-- ==== Sys2Proof/Word.lean ====
section
/-!
DEFINITION. The word types of the module (R20, R21, R23, R32): bytes, half words, words and double words
as bit vectors, and nothing else.
-/
namespace Sys2Proof

/-- One byte. -/
abbrev Byte := BitVec 8
/-- A 16-bit field: status codes, sync-object numbers, generations (R32, R194). -/
abbrev Half := BitVec 16
/-- A 32-bit word: set-up registers, scalar registers, accumulators (R23, R64, R76). -/
abbrev Word := BitVec 32
/-- A 48-bit address-register value (R76, R204). -/
abbrev Addr48 := BitVec 48
/-- A 64-bit instruction word or counter (R185, R374). -/
abbrev Dword := BitVec 64

end Sys2Proof
end

