-- ==== Sys2Proof/Syntax.lean ====
section
/-!
DEFINITION. The commands: one constructor per row of the table of operations and events, with the row's operands.
-/
namespace Sys2Proof

/-! Identities and field widths of operands. -/

/-- A function: 0 is PF0, t = 1 to 31 tenant VF t (R545). -/
abbrev FnId := Fin 32
/-- A logical core 8k + c (R11). -/
abbrev CoreId := Fin 128
/-- A cluster k. -/
abbrev ClusterId := Fin 16
/-- A partition identifier (R334). -/
abbrev PartId := Fin 64
/-- A hardware context (R510). -/
abbrev CtxId := Fin 4096
/-- A stack: 2d and 2d + 1 lie on die d. -/
abbrev StackId := Fin 4
/-- A camera port. -/
abbrev PortId := Fin 16
/-- A microphone group. -/
abbrev GroupId := Fin 2
/-- A PCIe link. -/
abbrev LinkId := Fin 2
/-- A UCIe link, by its compute die (R42). -/
abbrev D2dId := Fin 2
/-- An island index (R678). -/
abbrev IslandId := Fin 186
/-- A stacked-memory address (Table 4.7). -/
abbrev Dpa := Fin 137438953472
abbrev U8 := Fin 256
abbrev U16 := Fin 65536
abbrev U32 := Fin 4294967296
abbrev U64 := Fin 18446744073709551616

/-- The host's answer to a read the module makes: the bytes, or Unsupported Request / Completer Abort (R207). -/
inductive HostRead where
  | data (bytes : List Byte)
  | refused
  deriving DecidableEq, Repr

/-- An embedded-data line: its bytes, its header (0 clean, 1 corrected, 2 beyond correction), and whether it passed its CRC or was
recovered (R390). -/
structure EmbLine where
  hdr : Fin 3
  data : List Byte
  crcOk : Bool
  deriving DecidableEq, Repr

/-- What a meter's debit is attributed to (R376, R593): the descriptor at a ring index of a context, a partition, or
nothing. -/
inductive DebitTo where
  | desc (ctx idx : Nat)
  | part (p : Nat)
  /-- the domain of a logical core -/
  | core (n : Nat)
  /-- domains that partitions share -/
  | shared
  | none
  deriving DecidableEq, Repr

/-- An image in host memory: the address and length that a message names (Table 17.5), and the host's answer. -/
structure ImageRead where
  iova : BitVec 64
  len : BitVec 32
  answer : HostRead
  deriving DecidableEq, Repr

/-- A debit of a meter, in units of 1/1,024 µJ (R376, R590). -/
structure Debit where
  who : DebitTo
  amount : Nat
  deriving DecidableEq, Repr

/-- What an audit of a pool latches (R679): I, F, O, R, and for KIND 0 the pool's size and, at the moment of
step 1, the returned count r0 and the credits in hand H; `foreign` marks a message found in
another class's escape slot (R689), and `opens` the event of step 1 alone, which opens the epoch. -/
structure AuditCounts where
  i : Nat
  f : Nat
  o : Nat
  r : Nat
  r0 : Nat
  h : Nat
  size : Nat
  foreign : Bool
  opens : Bool
  deriving DecidableEq, Repr

/-- A command to, or an event at, the module: one constructor per row, in the order of the table, with the rule that names it. -/
inductive Instr where
  /-- POWER_ON (R607) -/
  | powerOn (selfTest identity low0 low1 : Bool) (banks : List (Nat × Nat))
  /-- STAGE_B (R611) -/
  | stageB (check : Fin 4) (stacksOk : Bool)
  /-- RESTART_AFTER_SAVE (R606) -/
  | restartAfterSave (selfTest identity low0 low1 : Bool) (banks : List (Nat × Nat))
  /-- WINDFALL_SAVE (R625) -/
  | windfallSave (cause : Fin 4)
  /-- FW_REGION_DECLARE (R630) -/
  | fwRegionDeclare (off len version : U32)
  /-- BANK_RETEST (R620) -/
  | bankRetest (b : Fin 4) (cap esr : U16)
  /-- WINDFALL_ARMING_CHANGE (R622) -/
  | windfallArmingChange (v : U8)
  /-- FW_LOAD (R707) -/
  | fwLoad (f : FnId) (tag : U32) (raw : List Byte) (host : HostRead) (takes : Bool)
  /-- START_STATUS (R617) -/
  | startStatus (f : FnId) (tag : U32)
  /-- MMA (R82) -/
  | mma (n : CoreId)
  /-- DRAIN (R173) -/
  | drain (n : CoreId)
  /-- REQUANT (R156) -/
  | requant (n : CoreId)
  /-- VOP (R783) -/
  | vop (n : CoreId)
  /-- VLDST (R185) -/
  | vldst (n : CoreId)
  /-- TILE (R188) -/
  | tile (n : CoreId)
  /-- COMMIT (R190) -/
  | commit (n : CoreId)
  /-- WAIT (R79) -/
  | wait (n : CoreId)
  /-- WAIT_RESUME (R79) -/
  | waitResume (n : CoreId)
  /-- SIGNAL (R189) -/
  | signal (n : CoreId)
  /-- MOVE (R189) -/
  | move (n : CoreId)
  /-- TDLOAD (R185) -/
  | tdload (n : CoreId)
  /-- WAITSET (R785) -/
  | waitset (n : CoreId)
  /-- WAITSET_PROXY_SIGNAL (R785) -/
  | waitsetProxySignal (k : ClusterId) (ix : Nat)
  /-- WAITSET_TIMEOUT (R785) -/
  | waitsetTimeout (k : ClusterId) (ix : Nat)
  /-- LOOP (R781) -/
  | loop (n : CoreId)
  /-- BRANCH (R784) -/
  | branch (n : CoreId)
  /-- SALU (R784) -/
  | salu (n : CoreId)
  /-- SLDST (R185) -/
  | sldst (n : CoreId)
  /-- AALU (R784) -/
  | aalu (n : CoreId)
  /-- TILE_WATCHDOG_EXPIRY (R193) -/
  | tileWatchdogExpiry (n : CoreId)
  /-- LINK_PARITY_FAILURE (R93) -/
  | linkParityFailure (n : CoreId) (engine : Fin 64) (link : Fin 12) (resendFails : Bool)
  /-- CORE_RESET (R99) -/
  | coreReset (n : CoreId)
  /-- MOVE_DESCRIPTOR_ACCEPT (R780) -/
  | moveDescriptorAccept (k : ClusterId)
  /-- MOVE_COMPLETE (R119) -/
  | moveComplete (k : ClusterId) (slot : Nat) (host : HostRead)
  /-- STEM_DESCRIPTOR (R232) -/
  | stemDescriptor (k : ClusterId) (ctx : CtxId) (idx : U32) (raw : List Byte)
  /-- STEM_COMPLETE (R235) -/
  | stemComplete (k : ClusterId)
  /-- PROGRAM_LOAD (R184) -/
  | programLoad (n : CoreId) (host : HostRead)
  /-- OVERLAY_LOAD (R211) -/
  | overlayLoad (n : CoreId) (host : HostRead)
  /-- SYNC_SIGNAL_APPLY (R198) -/
  | syncSignalApply (ix : Nat)
  /-- SYNC_ALLOC (R201) -/
  | syncAlloc (f : FnId) (tag count : U32) (p : PartId)
  /-- SYNC_FREE (R201) -/
  | syncFree (f : FnId) (tag : U32) (objs : List Nat)
  /-- SYNC_SET (R201) -/
  | syncSet (f : FnId) (tag : U32) (ix : U16) (value : U32)
  /-- POST_DESCRIPTOR_QUEUE (R244) -/
  | postDescriptorQueue
  /-- POST_DESCRIPTOR_START (R244) -/
  | postDescriptorStart
  /-- POST_DESCRIPTOR_COMPLETE (R251) -/
  | postDescriptorComplete
  /-- ATTN_REGISTER (R256) -/
  | attnRegister (f : FnId) (tag : U32) (p : PartId) (raw : List Byte)
  /-- KV_PAGES (R263) -/
  | kvPages (f : FnId) (tag : U32) (p : PartId) (slot : Fin 16) (first count : U32)
  /-- STEP_START (R366) -/
  | stepStart (p : PartId)
  /-- WORK_LIST_COMPLETE (R369) -/
  | workListComplete (p : PartId)
  /-- CACHE_TAG_MISMATCH (R290) -/
  | cacheTagMismatch (n : CoreId) (seq : Fin 2048) (out : U64) (len : U32) (signals : List (Nat × Nat)) (weight : Bool)
  /-- SERVE_REGISTER (R363) -/
  | serveRegister (f : FnId) (tag : U32) (p : PartId) (raw : List Byte)
  /-- MODEL_SLOT (R363) -/
  | modelSlot (f : FnId) (tag : U32) (p : PartId) (slot : Fin 16) (raw : List Byte)
  /-- SEQ_WRITE (R364) -/
  | seqWrite (f : FnId) (tag ix : U32) (raw : List Byte)
  /-- STEP (R372) -/
  | step (f : FnId) (tag : U32) (p : PartId)
  /-- SLICE_REQUEST (R309) -/
  | sliceRequest (p : PartId) (gen : U16) (write : Bool) (a : Dpa) (n : Nat) (data : List Byte) (ecc : Fin 256)
  /-- REFRESH_DUE (R302) -/
  | refreshDue (stack : StackId) (ch : Fin 32) (postpone : Bool)
  /-- STACK_TEMPERATURE_REPORT (R303) -/
  | stackTemperatureReport (stack : StackId) (temp : Int)
  /-- MEM_STALL_CLEAR_ALL (R328) -/
  | memStallClearAll (f : FnId)
  /-- MEM_STALL_CLEAR_PART (R739) -/
  | memStallClearPart (f : FnId) (p : PartId)
  /-- GROUP_MODE (R297) -/
  | groupMode (f : FnId) (tag : U32) (g : Fin 16384) (sliced : Bool)
  /-- STREAM_REGISTER (R320) -/
  | streamRegister (f : FnId) (tag : U32) (p : PartId) (k : ClusterId) (raw : List Byte)
  /-- STREAM_FILL_START (R321) -/
  | streamFillStart (p : PartId) (k : ClusterId)
  /-- STREAM_STOP (R324) -/
  | streamStop (f : FnId) (tag : U32) (p : PartId) (k : ClusterId)
  /-- STREAM_STOP_AT_BOUNDARY (R324) -/
  | streamStopAtBoundary (p : PartId) (k : ClusterId)
  /-- PART_CREATE (R336) -/
  | partCreate (f : FnId) (tag : U32) (raw : List Byte)
  /-- PART_DESTROY (R560) -/
  | partDestroy (f : FnId) (tag : U32) (p : PartId)
  /-- DESCRIPTOR_DISPATCH (R343) -/
  | descriptorDispatch (p : PartId)
  /-- DESCRIPTOR_COMPLETE (R529) -/
  | descriptorComplete (n : CtxId) (idx : U32) (energy : Nat)
  /-- MINUET_REQUEST (R347) -/
  | minuetRequest (n : CoreId) (migrate : Bool)
  /-- MINUET_SAVE (R349) -/
  | minuetSave (n : CoreId)
  /-- MINUET_RESTORE (R354) -/
  | minuetRestore (n : CoreId) (host : HostRead)
  /-- CTX_PAUSE (R347) -/
  | ctxPause (f : FnId) (tag : U32) (n : CtxId)
  /-- CTX_RESTART (R358) -/
  | ctxRestart (f : FnId) (tag : U32) (n : CtxId)
  /-- PARTITION_FAULT_HANDLING (R356) -/
  | partitionFaultHandling (n : CtxId) (idx : U32)
  /-- PAIR_CREATE (R379) -/
  | pairCreate (f : FnId) (tag : U32) (raw : List Byte)
  /-- PAIR_ARM (R380) -/
  | pairArm (f : FnId) (tag ix : U32) (arm : Bool)
  /-- PAIR_ROUND_COMPARE (R381) -/
  | pairRoundCompare (ix : Nat)
  /-- PAIR_TIMEOUT (R385) -/
  | pairTimeout (ix : Nat)
  /-- CAM_POC_EN_WRITE (R393) -/
  | camPocEnWrite (f : FnId) (n : PortId) (value : U32)
  /-- POC_OVERCURRENT (R393) -/
  | pocOvercurrent (n : PortId)
  /-- POC_OPEN_DETECT (R392) -/
  | pocOpenDetect (n : PortId) (current : U16)
  /-- PORT_BRING_UP (R396) -/
  | portBringUp (n : PortId) (fails : Fin 4)
  /-- APHY_LINK_LOSS (R398) -/
  | aphyLinkLoss (n : PortId)
  /-- CAM_PORT_MAP (R395) -/
  | camPortMap (f : FnId) (tag : U32) (raw : List Byte)
  /-- CAM_PROFILE (R401) -/
  | camProfile (f : FnId) (tag slot index : U32) (data : List Byte)
  /-- CAM_CTX_START (R405) -/
  | camCtxStart (f : FnId) (tag : U32) (raw : List Byte)
  /-- CAM_CTX_STOP (R404) -/
  | camCtxStop (f : FnId) (tag c : U32)
  /-- CAM_DEFAULT_STATS (R400) -/
  | camDefaultStats (f : FnId) (tag port index : U32)
  /-- CAM_PORT_OWNER_WRITE (R740) -/
  | camPortOwnerWrite (f : FnId) (n : PortId) (value : U32)
  /-- CAM_FSYNC_CTRL_WRITE (R741) -/
  | camFsyncCtrlWrite (f : FnId) (g : Fin 4) (value : U32)
  /-- CAM_FSYNC_PERIOD_WRITE (R403) -/
  | camFsyncPeriodWrite (f : FnId) (g : Fin 4) (value : U32)
  /-- FSYNC_GENERATOR_EDGE (R403) -/
  | fsyncGeneratorEdge (g : Fin 4)
  /-- FSYNC_EDGE (R402) -/
  | fsyncEdge (g : Fin 4)
  /-- FRAME_START_PACKET (R409) -/
  | frameStartPacket (port : PortId) (vc : Fin 32) (csiNo : U16)
  /-- LINE_PACKET (R412) -/
  | linePacket (port : PortId) (vc : Fin 32) (dt : Fin 64) (hdr : Fin 3) (px : List Nat) (crcOk : Bool)
  /-- EMBEDDED_DATA_LINE (R408) -/
  | embeddedDataLine (port : PortId) (vc : Fin 32) (bs : EmbLine)
  /-- FRAME_END_PACKET (R412) -/
  | frameEndPacket (port : PortId) (vc : Fin 32)
  /-- ISP_UNIT_START (R431) -/
  | ispUnitStart (p : Fin 4)
  /-- ISP_UNIT_END (R423) -/
  | ispUnitEnd (p : Fin 4)
  /-- CAMERA (R445) -/
  | camera (n : CtxId) (idx : U32)
  /-- SENSOR_WRITE (R446) -/
  | sensorWrite (p : PortId) (acked : Nat)
  /-- SENSOR_READ (R446) -/
  | sensorRead (p : PortId) (answer : HostRead)
  /-- EXPOSURE (R449) -/
  | exposure (p : PortId) (acked : Nat)
  /-- ISP_PARAMS (R453) -/
  | ispParams (p : PortId) (host : HostRead)
  /-- MUTE_ASSERT (R472) -/
  | muteAssert (g : GroupId)
  /-- UNMUTE (R473) -/
  | unmute (g : GroupId)
  /-- MUTE_SETTLE_END (R473) -/
  | muteSettleEnd (g : GroupId)
  /-- AUD_GROUP_CFG_WRITE (R468) -/
  | audGroupCfgWrite (f : FnId) (g : GroupId) (value : U32)
  /-- AUD_WAKE_CFG_WRITE (R477) -/
  | audWakeCfgWrite (f : FnId) (g : GroupId) (value : U32)
  /-- AUD_STORE (R467) -/
  | audStore (f : FnId) (tag : U32) (raw : List Byte)
  /-- RECOGNISER_HOP (R482) -/
  | recogniserHop (g : GroupId) (fall rise : List (List Bool)) (energy : Int)
  /-- WAKE_MATCH (R487) -/
  | wakeMatch (g : GroupId)
  /-- SESSION_TIMEOUT (R477) -/
  | sessionTimeout (g : GroupId)
  /-- AUD_COPY (R479) -/
  | audCopy (f : FnId) (tag g mask : U32) (epoch : U16) (first : U64) (count fmt space : U32) (part : PartId) (dest : U64)
  /-- AUD_RESEAL (R477) -/
  | audReseal (f : FnId) (tag g : U32)
  /-- AUD_STREAM (R492) -/
  | audStream (f : FnId) (tag g : U32) (part : PartId) (base : U64) (slots slotBytes : U32) (frameSync releaseSync : U16)
  /-- AUD_STREAM_SLOT (R492) -/
  | audStreamSlot (ix : Nat) (pdm : List (List (Bool × Bool)))
  /-- WAKE_QUEUE_READ (R488) -/
  | wakeQueueRead (f : FnId) (tag first : U32)
  /-- RECOG_IMAGE (R481) -/
  | recogImage (f : FnId) (tag : U32) (host : ImageRead)
  /-- RUSTLE_TRIGGER (R59) -/
  | rustleTrigger
  /-- PERST_ASSERT (R502) -/
  | perstAssert (l : LinkId)
  /-- PERST_RELEASE (R608) -/
  | perstRelease (l : LinkId)
  /-- DL_DOWN (R502) -/
  | dlDown (l : LinkId)
  /-- LINK_UP (R498) -/
  | linkUp (l : LinkId) (speed : Fin 8) (width : Fin 32)
  /-- LINK_RETRAIN (R501) -/
  | linkRetrain (l : LinkId) (ended : Bool) (speed : Fin 8) (width : Fin 32)
  /-- LINK_RECORD (R495) -/
  | linkRecord (f : FnId) (tag : U32) (raw : List Byte)
  /-- MEM_APT_WRITE (R508) -/
  | memAptWrite (f : FnId) (j : Fin 4096) (value : U32)
  /-- APERTURE_ACCESS (R509) -/
  | apertureAccess (f : FnId) (off : U64) (n : Nat) (write : Bool) (data : List Byte)
  /-- SQ_TAIL_DOORBELL (R530) -/
  | sqTailDoorbell (f : FnId) (n : CtxId) (v : U32)
  /-- CQ_HEAD_DOORBELL (R530) -/
  | cqHeadDoorbell (f : FnId) (n : CtxId) (v : U32)
  /-- CTX_ENABLE (R514) -/
  | ctxEnable (f : FnId) (n : CtxId) (value : U32)
  /-- CTX_DISABLE (R517) -/
  | ctxDisable (f : FnId) (n : CtxId)
  /-- DESCRIPTOR_FETCH (R519) -/
  | descriptorFetch (n : CtxId)
  /-- DESCRIPTOR_ARRIVE (R524) -/
  | descriptorArrive (n : CtxId) (host : HostRead)
  /-- NOP (R525) -/
  | nop (n : CtxId) (idx : U32)
  /-- COMPUTE (R343) -/
  | compute (n : CtxId) (idx : U32) (host : HostRead)
  /-- COPY (R526) -/
  | copy (n : CtxId) (idx : U32) (host : HostRead)
  /-- POST (R244) -/
  | post (n : CtxId) (idx : U32)
  /-- IRQ_MODERATION_TIMER (R535) -/
  | irqModerationTimer (n : CtxId)
  /-- VECTOR_UNMASK (R536) -/
  | vectorUnmask (f : FnId) (v : Fin 2048)
  /-- PTM_DIALOGUE (R538) -/
  | ptmDialogue (l : LinkId) (hostTime : U64)
  /-- PTM_SYNC_TIMEOUT (R538) -/
  | ptmSyncTimeout (l : LinkId)
  /-- STAMP_ALIGN (R537) -/
  | stampAlign (ix : IslandId)
  /-- SMBUS_MCTP_CONTROL (R543) -/
  | smbusMctpControl (code : U8) (body : List Byte)
  /-- SMBUS_PLDM_SENSOR_READ (R543) -/
  | smbusPldmSensorRead (ix : U16) (meter : U32)
  /-- SMBUS_ERRLOG_SUMMARY (R695) -/
  | smbusErrlogSummary
  /-- SMBUS_ERRLOG_ENTRY (R695) -/
  | smbusErrlogEntry (seq : U32)
  /-- SMBUS_SPARE_SUMMARY (R695) -/
  | smbusSpareSummary
  /-- SMBUS_SPARE_RECORD (R695) -/
  | smbusSpareRecord (ix : U32)
  /-- FN_LIMIT_WRITE (R548) -/
  | fnLimitWrite (f t : FnId) (value : U32)
  /-- FN_QOS_WRITE (R548) -/
  | fnQosWrite (f t : FnId) (value : U32)
  /-- FN_GROUP_OWNER_WRITE (R549) -/
  | fnGroupOwnerWrite (f : FnId) (g : Fin 64) (value : U32)
  /-- FLR (R555) -/
  | flr (f : FnId)
  /-- VF_DISABLE (R556) -/
  | vfDisable (l : LinkId)
  /-- CLEARING (R560) -/
  | clearing (p : PartId) (home : Bool)
  /-- TALLY_CLEARING_TIMEOUT (R564) -/
  | tallyClearingTimeout (p : PartId) (pool : U32) (diff : Int)
  /-- PWR_CFG_WRITE (R569) -/
  | pwrCfgWrite (f : FnId) (value : U32)
  /-- STATE_REQUEST (R576) -/
  | stateRequest (f : FnId) (tag target timeout : U32)
  /-- STATE_REQUEST_TIMEOUT (R578) -/
  | stateRequestTimeout
  /-- REFUSER_RELEASE (R578) -/
  | refuserRelease
  /-- STATE_ENTRY (R579) -/
  | stateEntry (late : Option Nat)
  /-- STATE_RISE (R582) -/
  | stateRise (digestOk : Bool)
  /-- THERMAL_GUARD_SAMPLE (R588) -/
  | thermalGuardSample (junction : Int)
  /-- THERMAL_RECOVERY_STEP (R588) -/
  | thermalRecoveryStep
  /-- LEDGER_WINDOW_START (R591) -/
  | ledgerWindowStart (debits : List Debit)
  /-- LEDGER_HOLD (R594) -/
  | ledgerHold (debits : List Debit)
  /-- PWR_LEDGER_CFG_WRITE (R589) -/
  | pwrLedgerCfgWrite (f : FnId) (value : U32)
  /-- PWR_ALLOWANCE_WRITE (R589) -/
  | pwrAllowanceWrite (f : FnId) (value : U32)
  /-- TIER_REGISTER (R598) -/
  | tierRegister (f : FnId) (tag t : U32) (raw : List Byte)
  /-- ESCALATION_REQUEST (R599) -/
  | escalationRequest (t : Fin 4)
  /-- SIGNER_REVOKE (R654) -/
  | signerRevoke (f : FnId) (host : HostRead)
  /-- SVN_COMMIT (R653) -/
  | svnCommit (f : FnId) (arg : U32)
  /-- RELEASE_OPEN (R663) -/
  | releaseOpen (f : FnId) (p : U32)
  /-- RELEASE_KEY (R665) -/
  | releaseKey (f : FnId) (host : HostRead)
  /-- RELEASE_CLOSE (R663) -/
  | releaseClose (f : FnId) (id : U32)
  /-- RELEASE_ENTRY_TIMEOUT (R663) -/
  | releaseEntryTimeout (id : U32)
  /-- UNLOCK_NONCE (R672) -/
  | unlockNonce (f : FnId)
  /-- UNLOCK (R672) -/
  | unlock (f : FnId) (host : HostRead)
  /-- GET_VERSION (R655) -/
  | getVersion (f : FnId) (req : List Byte)
  /-- GET_CAPABILITIES (R655) -/
  | getCapabilities (f : FnId) (req : List Byte)
  /-- NEGOTIATE_ALGORITHMS (R655) -/
  | negotiateAlgorithms (f : FnId) (req : List Byte)
  /-- GET_DIGESTS (R655) -/
  | getDigests (f : FnId) (req : List Byte)
  /-- GET_CERTIFICATE (R655) -/
  | getCertificate (f : FnId) (slot : U8) (off len : U16) (req : List Byte)
  /-- CHALLENGE (R656) -/
  | challenge (f : FnId) (req : List Byte)
  /-- GET_MEASUREMENTS (R656) -/
  | getMeasurements (f : FnId) (index : U8) (req : List Byte)
  /-- SPDM_UNSUPPORTED_REQUEST (R655) -/
  | spdmUnsupportedRequest (f : FnId)
  /-- D2D_PACKET_TAG_FAIL (R659) -/
  | d2dPacketTagFail (link : D2dId) (dir : Fin 2) (fresh : Bool)
  /-- TALLY_AUDIT (R679) -/
  | tallyAudit (pool : U32) (holder : Option Nat) (c : AuditCounts)
  /-- FATAL_HALT (R692) -/
  | fatalHalt (island : IslandId) (detail : U64)
  /-- AGEING_MONITOR_READ (R696) -/
  | ageingMonitorRead (ix : IslandId) (slack : U8)
  /-- CORE_MIGRATION (R699) -/
  | coreMigration (n : CoreId) (selfTest : Bool)
  /-- SRAM_ROW_SWAP (R700) -/
  | sramRowSwap (cluster : Bool) (unit : Fin 128) (bank row : U16) (uncorrectable : Bool)
  /-- STACK_ROW_REPAIR (R701) -/
  | stackRowRepair (stack : StackId) (ch : Fin 32) (row : U32) (pg : U16) (uncorrectable ppr ended : Bool)
  /-- PSEUDO_CHANNEL_SWAP (R701) -/
  | pseudoChannelSwap (stack : StackId) (ch : Fin 32) (cause : Fin 16) (ended : Bool)
  /-- UCIE_LANE_REPAIR (R702) -/
  | ucieLaneRepair (link : D2dId) (dir : Fin 2) (lane : Fin 1024) (training : Bool)
  /-- ERRLOG_READ (R694) -/
  | errlogRead (f : FnId) (tag seq : U32)
  /-- SPARE_READ (R704) -/
  | spareRead (f : FnId) (tag ix : U32)
  /-- MGMT_EVENT_DELIVER (R717) -/
  | mgmtEventDeliver (f : FnId)
  /-- TRACE_RECORD_EMIT (R722) -/
  | traceRecordEmit (point : U16) (island : IslandId) (fn : FnId) (part : PartId) (args : List Word) (blocked : Bool)
  /-- TRC_CTRL_WRITE (R723) -/
  | trcCtrlWrite (f : FnId) (value : U32)
  /-- GLB_SAFE_CLEAR (R734) -/
  | glbSafeClear (f : FnId) (cause : Bool)
  /-- GLB_FAULT_CLEAR (R735) -/
  | glbFaultClear (f : FnId)
  /-- BAR0_MISALIGNED_ACCESS (R730) -/
  | bar0MisalignedAccess (f : FnId) (write : Bool)
  /-- COUNTER_LO_READ (R24) -/
  | counterLoRead (f : FnId) (addr : U32)
  /-- RC_REGISTER_READ (R26) -/
  | rcRegisterRead (f : FnId) (addr : U32)
  /-- REGISTER_WRITE (R55) -/
  | registerWrite (f : FnId) (addr value : U32)
  /-- UNDEFINED_INSTRUCTION_ENCODING (R80) -/
  | undefinedInstructionEncoding (n : CoreId)
  /-- UNKNOWN_OPCODE_REQUEST (R718) -/
  | unknownOpcodeRequest (f : FnId) (op : U16) (tag : U32)
  deriving DecidableEq, Repr

end Sys2Proof
end

