-- ==== Sys2Proof/WellFormed.lean ====
section
/-!
DEFINITION. What the operands of a well-formed command satisfy beyond the ranges of their types: lengths of records and lists, and codes.
-/
namespace Sys2Proof

/-- A debit names an existing context or partition, and its amount is at most 64 bits. -/
def Debit.wf (d : Debit) : Bool :=
  decide (d.amount < 2 ^ 64) && (match d.who with
    | .desc ctx idx => decide (ctx < 4096) && decide (idx < 2 ^ 32)
    | .part p => decide (p < 64)
    | .core n => decide (n < 128)
    | .shared => true
    | .none => true)

/-- The counts of an audit are 32-bit words (R679). -/
def AuditCounts.wf (c : AuditCounts) : Bool :=
  decide (c.i < 2 ^ 32) && decide (c.f < 2 ^ 32) && decide (c.o < 2 ^ 32) && decide (c.r < 2 ^ 32) && decide (c.r0 < 2 ^ 32) &&
    decide (c.h < 2 ^ 32) && decide (c.size < 2 ^ 32)

/-- A temperature in °C that a sensor can report. -/
def celsiusOk (t : Int) : Bool := decide (-128 ≤ t) && decide (t ≤ 255)

/-- The checks on a command's operands. -/
def Instr.wf : Instr → Bool
  | .powerOn _ _ _ _ banks => banks.length == 4 && banks.all (fun b => decide (b.1 < 65536) && decide (b.2 < 65536))
  | .stageB check _ => check.val != 1
  | .restartAfterSave _ _ _ _ banks => banks.length == 4 && banks.all (fun b => decide (b.1 < 65536) && decide (b.2 < 65536))
  | .windfallSave cause => cause.val != 0
  | .fwRegionDeclare _ _ _ => true
  | .bankRetest _ _ _ => true
  | .windfallArmingChange _ => true
  | .fwLoad _ _ raw _ _ => raw.length == 16
  | .startStatus _ _ => true
  | .mma _ => true
  | .drain _ => true
  | .requant _ => true
  | .vop _ => true
  | .vldst _ => true
  | .tile _ => true
  | .commit _ => true
  | .wait _ => true
  | .waitResume _ => true
  | .signal _ => true
  | .move _ => true
  | .tdload _ => true
  | .waitset _ => true
  | .waitsetProxySignal _ _ => true
  | .waitsetTimeout _ _ => true
  | .loop _ => true
  | .branch _ => true
  | .salu _ => true
  | .sldst _ => true
  | .aalu _ => true
  | .tileWatchdogExpiry _ => true
  | .linkParityFailure _ _ _ _ => true
  | .coreReset _ => true
  | .moveDescriptorAccept _ => true
  | .moveComplete _ _ _ => true
  | .stemDescriptor _ _ _ raw => raw.length == 64
  | .stemComplete _ => true
  | .programLoad _ _ => true
  | .overlayLoad _ _ => true
  | .syncSignalApply _ => true
  | .syncAlloc _ _ _ _ => true
  | .syncFree _ _ objs => decide (objs.length ≤ 240) && objs.all (fun i => decide (i < 65536))
  | .syncSet _ _ _ _ => true
  | .postDescriptorQueue => true
  | .postDescriptorStart => true
  | .postDescriptorComplete => true
  | .attnRegister _ _ _ raw => raw.length == 64
  | .kvPages _ _ _ _ _ _ => true
  | .stepStart _ => true
  | .workListComplete _ => true
  | .cacheTagMismatch _ _ _ _ signals _ => signals.all (fun e => decide (e.1 < 65536) && decide (e.2 < 65536))
  | .serveRegister _ _ _ raw => raw.length == 32
  | .modelSlot _ _ _ _ raw => raw.length == 32
  | .seqWrite _ _ _ raw => raw.length == 48
  | .step _ _ _ => true
  | .sliceRequest _ _ write a n data _ => decide (1 ≤ n) && decide (a.val % 256 + n ≤ 256) && (!write || data.length == n)
  | .refreshDue _ _ _ => true
  | .stackTemperatureReport _ temp => celsiusOk temp
  | .memStallClearAll _ => true
  | .memStallClearPart _ _ => true
  | .groupMode _ _ _ _ => true
  | .streamRegister _ _ _ _ raw => raw.length == 32
  | .streamFillStart _ _ => true
  | .streamStop _ _ _ _ => true
  | .streamStopAtBoundary _ _ => true
  | .partCreate _ _ raw => decide (128 ≤ raw.length) && decide (raw.length ≤ 480) && (raw.length - 128) % 8 == 0
  | .partDestroy _ _ _ => true
  | .descriptorDispatch _ => true
  | .descriptorComplete _ _ _ => true
  | .minuetRequest _ _ => true
  | .minuetSave _ => true
  | .minuetRestore _ _ => true
  | .ctxPause _ _ _ => true
  | .ctxRestart _ _ _ => true
  | .partitionFaultHandling _ _ => true
  | .pairCreate _ _ raw => raw.length == 272
  | .pairArm _ _ _ _ => true
  | .pairRoundCompare _ => true
  | .pairTimeout _ => true
  | .camPocEnWrite _ _ _ => true
  | .pocOvercurrent _ => true
  | .pocOpenDetect _ _ => true
  | .portBringUp _ _ => true
  | .aphyLinkLoss _ => true
  | .camPortMap _ _ raw => raw.length == 64
  | .camProfile _ _ _ _ data => decide (data.length ≤ 480)
  | .camCtxStart _ _ raw => raw.length == 256
  | .camCtxStop _ _ _ => true
  | .camDefaultStats _ _ _ _ => true
  | .camPortOwnerWrite _ _ _ => true
  | .camFsyncCtrlWrite _ _ _ => true
  | .camFsyncPeriodWrite _ _ _ => true
  | .fsyncGeneratorEdge _ => true
  | .fsyncEdge _ => true
  | .frameStartPacket _ _ _ => true
  | .linePacket _ _ _ _ px _ => px.all (fun x => decide (x < 1048576))
  | .embeddedDataLine _ _ _ => true
  | .frameEndPacket _ _ => true
  | .ispUnitStart _ => true
  | .ispUnitEnd _ => true
  | .camera _ _ => true
  | .sensorWrite _ _ => true
  | .sensorRead _ _ => true
  | .exposure _ _ => true
  | .ispParams _ _ => true
  | .muteAssert _ => true
  | .unmute _ => true
  | .muteSettleEnd _ => true
  | .audGroupCfgWrite _ _ _ => true
  | .audWakeCfgWrite _ _ _ => true
  | .audStore _ _ raw => raw.length == 24
  | .recogniserHop _ fall rise _ => decide (fall.length ≤ 4) && decide (rise.length ≤ 4)
  | .wakeMatch _ => true
  | .sessionTimeout _ => true
  | .audCopy _ _ _ _ _ _ _ _ _ _ _ => true
  | .audReseal _ _ _ => true
  | .audStream _ _ _ _ _ _ _ _ _ => true
  | .audStreamSlot _ pdm => decide (pdm.length ≤ 4)
  | .wakeQueueRead _ _ _ => true
  | .recogImage _ _ _ => true
  | .rustleTrigger => true
  | .perstAssert _ => true
  | .perstRelease _ => true
  | .dlDown _ => true
  | .linkUp _ _ _ => true
  | .linkRetrain _ _ _ _ => true
  | .linkRecord _ _ raw => raw.length == 64
  | .memAptWrite _ _ _ => true
  | .apertureAccess _ _ n write data => decide (1 ≤ n) && (!write || data.length == n)
  | .sqTailDoorbell _ _ _ => true
  | .cqHeadDoorbell _ _ _ => true
  | .ctxEnable _ _ _ => true
  | .ctxDisable _ _ => true
  | .descriptorFetch _ => true
  | .descriptorArrive _ _ => true
  | .nop _ _ => true
  | .compute _ _ _ => true
  | .copy _ _ _ => true
  | .post _ _ => true
  | .irqModerationTimer _ => true
  | .vectorUnmask _ _ => true
  | .ptmDialogue _ _ => true
  | .ptmSyncTimeout _ => true
  | .stampAlign _ => true
  | .smbusMctpControl _ _ => true
  | .smbusPldmSensorRead _ _ => true
  | .smbusErrlogSummary => true
  | .smbusErrlogEntry _ => true
  | .smbusSpareSummary => true
  | .smbusSpareRecord _ => true
  | .fnLimitWrite _ _ _ => true
  | .fnQosWrite _ _ _ => true
  | .fnGroupOwnerWrite _ _ _ => true
  | .flr _ => true
  | .vfDisable _ => true
  | .clearing _ _ => true
  | .tallyClearingTimeout _ _ _ => true
  | .pwrCfgWrite _ _ => true
  | .stateRequest _ _ _ _ => true
  | .stateRequestTimeout => true
  | .refuserRelease => true
  | .stateEntry late => late.all (fun r => decide (r < 9))
  | .stateRise _ => true
  | .thermalGuardSample junction => celsiusOk junction
  | .thermalRecoveryStep => true
  | .ledgerWindowStart debits => debits.all Debit.wf
  | .ledgerHold debits => debits.all Debit.wf
  | .pwrLedgerCfgWrite _ _ => true
  | .pwrAllowanceWrite _ _ => true
  | .tierRegister _ _ _ raw => raw.length == 16
  | .escalationRequest _ => true
  | .signerRevoke _ _ => true
  | .svnCommit _ _ => true
  | .releaseOpen _ _ => true
  | .releaseKey _ _ => true
  | .releaseClose _ _ => true
  | .releaseEntryTimeout _ => true
  | .unlockNonce _ => true
  | .unlock _ _ => true
  | .getVersion _ _ => true
  | .getCapabilities _ _ => true
  | .negotiateAlgorithms _ _ => true
  | .getDigests _ _ => true
  | .getCertificate _ _ _ _ _ => true
  | .challenge _ _ => true
  | .getMeasurements _ _ _ => true
  | .spdmUnsupportedRequest _ => true
  | .d2dPacketTagFail _ _ _ => true
  | .tallyAudit _ holder c => holder.all (fun p => decide (p < 64)) && c.wf
  | .fatalHalt _ _ => true
  | .ageingMonitorRead _ _ => true
  | .coreMigration _ _ => true
  | .sramRowSwap cluster unit _ _ _ => !cluster || decide (unit.val < 16)
  | .stackRowRepair _ _ _ _ _ _ _ => true
  | .pseudoChannelSwap _ _ _ _ => true
  | .ucieLaneRepair _ _ _ _ => true
  | .errlogRead _ _ _ => true
  | .spareRead _ _ _ => true
  | .mgmtEventDeliver _ => true
  | .traceRecordEmit _ _ _ _ args _ => decide (args.length ≤ 4)
  | .trcCtrlWrite _ _ => true
  | .glbSafeClear _ _ => true
  | .glbFaultClear _ => true
  | .bar0MisalignedAccess _ _ => true
  | .counterLoRead _ _ => true
  | .rcRegisterRead _ _ => true
  | .registerWrite _ _ _ => true
  | .undefinedInstructionEncoding _ => true
  | .unknownOpcodeRequest _ _ _ => true

/-- A well-formed command. -/
abbrev Instr.WellFormed (c : Instr) : Prop := c.wf = true

end Sys2Proof
end

