-- ==== Sys2Proof/Decode.lean ====
section
/-!
DEFINITION. Table words: the table of operations and events gives no row any bits, so no word spells a command.
-/
namespace Sys2Proof

/-- The command that a word of a number of bits spells by the table. -/
def decodeTableWord (_nbits _w : Nat) : Option Instr := none

end Sys2Proof
end

