-- ==== Sys2Proof/Config.lean ====
section
/-!
DEFINITION. What an implementation fixes and the manual leaves open: opaque constants without a body, so that
nothing in Lean can evaluate one or prove a value of it. Each is named in a row of the assumption log.
-/
namespace Sys2Proof.Config

/-- The FP32 word a vector-unit function produces for an input, before its error bound is applied
(R153 bounds it, Table 3.5). First argument: the function's FUNC code. -/
opaque functionValue : Nat → Word → Word

/-- An accumulator or vector lane that carries no defined value into a tile (R187): the n-th free
draw, at the position given. -/
opaque freeLane : Nat → Nat → Word

/-- A byte the manual calls undefined: the n-th free draw, at the address given (R191, R322, R324, R354). -/
opaque freeByte : Nat → Nat → Byte

/-- A word of an internal secret or random number (DRBG outputs of the root of trust, R672): the n-th draw. -/
opaque freshRandom : Nat → List Byte

/-- The primes of the identity key and of the encryption key, which the module made at its manufacture (R641). -/
opaque identityPrimes : Nat × Nat
opaque encryptionPrimes : Nat × Nat

/-- The salt of a signature over a message (R641). -/
opaque identitySalt : List Byte → List Byte

/-- An SPDM response body for a request (the message formats of SPDM are outside the manual, R655). -/
opaque spdmBody : Nat → List Byte → List Byte

/-- The packet error code of a packet from an address: SMBus is named, its code is outside the manual (R542, log entry 123). -/
opaque smbusPec : Nat → List Byte → BitVec 8

/-- The answer to an MCTP control message: endpoint ID, command code, body (the formats of MCTP are outside the manual, R542). -/
opaque mctpBody : Nat → Nat → List Byte → List Byte

/-- The device root key (Table 15.1, DRK). -/
opaque deviceRootKey : List Byte

/-- The serial number of the module (Table 15.1, SERIAL). -/
opaque serial : List Byte

/-- SIGNER_HASH of the four signers; all zero bytes mark an unprogrammed signer (Table 15.1). -/
opaque signerHash : Nat → List Byte

/-- SHA-256 of the mask ROM (Table 15.9, measurement 1). -/
opaque romDigest : List Byte

/-- The DER bytes of certificate 0 to 3 of the chain, with what the manual says that it names and the signature that it bears, and the body
that the last one's signature covers (R642; the form is X.509's, log entry 206). -/
opaque certificate : Nat → List Byte → List Byte → List Byte
opaque certificateBody : List Byte → List Byte

/-- The bytes in which a section of the Windfall image, 0 to 7, or the retention image, 8, holds what it is of: Table 14.10 and R571 give the
contents without their layout (log entry 180). -/
opaque sectionBytes {α : Type} : Nat → α → List Byte

/-- What padding of a tile with one zero point reads as in other ways than through a tile descriptor: the move that writes it carries no ZP
field (R219, log entry 32). -/
opaque padZero : Nat → Byte

/-- TEXT_ID (index 0) and ARG[0–9] (1 to 10) of a log entry for a status code: numbers of the catalogue that the firmware
image carries (Table 17.6). -/
opaque logText : Nat → Nat → Word

/-- OPEN and MATCH thresholds of a class in the recogniser image of a digest (R480, R483, R484): the image's layout is outside the
manual. -/
opaque recogOpen : List Byte → Nat → Int
opaque recogMatch : List Byte → Nat → Int

/-- What the recogniser image of a digest holds for a layer, 0 to 4 (R480, Table 10.8; log entry 181): the INT8 weight of an output channel and
an input, the bias, multiplier and shift of an output channel's record, and the zero point of a layer's input, 5 being the scores'. -/
opaque recogWeight : List Byte → Nat → Nat → Nat → BitVec 8
opaque recogBias : List Byte → Nat → Nat → BitVec 32
opaque recogMult : List Byte → Nat → Nat → BitVec 32
opaque recogShift : List Byte → Nat → Nat → BitVec 6
opaque recogZero : List Byte → Nat → BitVec 8

/-- Log-mel energy of a band of a 25 ms window, as the INT8 value that enters the network: the manual gives the Hann window, the 512-point FFT
and the span of the bands, and neither their edges nor the scale of the energies (log entry 181). -/
opaque recogFeature : List Int → Nat → BitVec 8

/-- A feature of a time step before the capture, by channel, and the mean of no microphone (log entry 181). -/
opaque recogBefore : Nat → BitVec 8
opaque recogNoInput : Int

/-- Which code of the tables stands for a use that asks for a code and is given none: 0 a corrected ECC error, 1 a UCIe packet whose tag
fails, 2 a Windfall save, 3 Windfall armed, 4 a link record that R737 bars, 5 a corrected word of a store (R694, R743, Table 16.5; log
entry 63). Uses 2 and 3 are no errors and take a code with bit 15 clear, the others one with bit 15 set (R33). -/
opaque unstatedCode : Nat → Nat

/-- A field that the manual asks for and gives no value in one case: 0 DETAIL0 of a rise that the thermal guard refuses (R588), 1 TRIGGER
of a Clearing that a Tally violation begins (Table 12.10), 2 the outcome of FW_LOAD before there was one (Table 17.5), 3 and 4
ALLOW of a core with a REALTIME or another program (R586). -/
opaque unstatedField : Nat → Nat

/-- Slots of a PCIe link's transaction layer that all classes share (R683 gives their use and not their number), by link (log entry 169). -/
opaque hopShared : Nat → Nat

/-- Clock of the island of a PCIe link in MHz, by link (R686 counts cycles of it and no rule gives it; log entry 169). -/
opaque hopMHz : Nat → Nat

/-- A request of a partition waits behind another row of its bank (Table 7.5): the rows and banks of an address are not in the
manual (log entry 170). By partition and reference count. -/
opaque bankWait : Nat → Nat → Bool

/-- The PHY of a stack retrains (Table 7.5): no command of the manual tells when (log entry 204). By stack and reference count. -/
opaque phyRetrain : Nat → Nat → Bool

/-- The byte of a store at which an uncorrectable word of a row lies (R700, R703): the manual does not place rows in the stores' addresses
(log entry 205). By store, cluster or not, unit, bank and row. -/
opaque rowWord : Bool → Nat → Nat → Nat → Nat

/-- The logical engines of a core that fail their self-test as its domain powers up (Table 16.6): what fails is the silicon's
(log entry 214). By core and reference count. -/
opaque failedEngines : Nat → Nat → List Nat

/-- The pseudo-channel whose slice is replaced for wear when the slack of a stack's controller calls for it (R697, Table 16.6): the slack
is an island's, and the manual does not say which of its 32 slices goes (log entry 214). By stack and slices already replaced. -/
opaque wornChannel : Nat → Nat → Nat

/-- The text of a root-of-trust start message on UART_TX (R761): it depends on no key and no data (log entry 178). -/
opaque startMessage : List Byte

/-- Taps 0 to 11 of HB1 and 0 to 23 of HB2 for a CIC ratio (R463 bounds the response and states no tap), and the rounding of a chain's
sum to 24 bits (log entry 112). -/
opaque hb1 : Nat → Nat → Int
opaque hb2 : Nat → Nat → Int
opaque chainRound : Nat → Int → Int

/-- The die-to-die packets of a partition's old generation on their way when its Clearing reaches step 5, by partition and old generation
(Table 12.9, log entry 208). -/
opaque d2dInFlight : Nat → Nat → Nat

/-- The severity of an uncorrectable internal error in PF0's AER capability at a tick of the crystal clock (R691, log entry 212). -/
opaque aerSeverity : Nat → Bool

/-- Whether the high-pass of R465 rounds a product with its coefficient up, from the product in units of 2^-64 (log entry 112). -/
opaque dcUp : Int → Bool

end Sys2Proof.Config
end

