-- ==== Sys2Proof/Machine/Bits.lean ====
section
/-!
DEFINITION. Bit fields, byte order and plain integer helpers (R20, R21, R22): every structure of the
manual is little-endian, offsets are byte offsets, and a field spanning bits hi to lo is written [hi:lo].
-/
namespace Sys2Proof.Machine

/-- The field [hi:lo] of a number (R20). -/
def bits (x hi lo : Nat) : Nat := (x >>> lo) % 2 ^ (hi + 1 - lo)

/-- The single bit [n] of a number (R20). -/
def bit (x n : Nat) : Bool := (x >>> n) % 2 == 1

/-- A Boolean as the bit it stands for. -/
def b2n (b : Bool) : Nat := if b then 1 else 0

/-- The number a list of bytes spells, least significant byte first (R21). -/
def leNat : List Byte → Nat
  | [] => 0
  | b :: bs => b.toNat + 256 * leNat bs

/-- The n bytes of a number, least significant first (R21). -/
def toLE : Nat → Nat → List Byte
  | 0, _ => []
  | n + 1, x => BitVec.ofNat 8 x :: toLE n (x / 256)

/-- The n bytes at offset off of a record, bytes beyond its end reading 0. -/
def slice (bs : List Byte) (off n : Nat) : List Byte :=
  let t := (bs.drop off).take n
  t ++ List.replicate (n - t.length) 0

/-- The little-endian number held in the n bytes at offset off of a record (R21, R22). -/
def fld (bs : List Byte) (off n : Nat) : Nat := leNat ((bs.drop off).take n)

/-- The field [hi:lo] of the 32-bit word at offset off of a record. -/
def fldBits (bs : List Byte) (off hi lo : Nat) : Nat := bits (fld bs off 4) hi lo

/-- Replace the bytes of a record from offset off by the bytes given. -/
def putBytes (bs : List Byte) (off : Nat) (new : List Byte) : List Byte :=
  bs.take off ++ new ++ bs.drop (off + new.length)

/-- True when every byte of the record in the range is 0 (reserved bytes, R25). -/
def zeroBytes (bs : List Byte) (off n : Nat) : Bool := ((bs.drop off).take n).all (· == 0)

/-- A number read as a signed w-bit two's complement integer. -/
def sext (w x : Nat) : Int :=
  let y := x % 2 ^ w
  if y < 2 ^ (w - 1) then (y : Int) else (y : Int) - (2 : Int) ^ w

/-- An integer taken modulo 2^w. -/
def wrap (w : Nat) (x : Int) : Nat := (x % ((2 : Int) ^ w)).toNat

/-- An integer clamped to a range (R139, R156). -/
def clampInt (x lo hi : Int) : Int := if x < lo then lo else if hi < x then hi else x

/-- Ceiling of a quotient. -/
def cdiv (a b : Nat) : Nat := (a + b - 1) / b

/-- A number rounded up to a multiple. -/
def roundUp (a m : Nat) : Nat := cdiv a m * m

/-- The signed 32-bit distance (a − b) modulo 2^32 used by counters that run freely (R196, R530). -/
def sdiff32 (a b : Nat) : Int := sext 32 ((a + 2 ^ 32 - b % 2 ^ 32) % 2 ^ 32)

/-- The distance (a − b) modulo 2^32 (R519, R530). -/
def diff32 (a b : Nat) : Nat := (a + 2 ^ 32 - b % 2 ^ 32) % 2 ^ 32

/-- A saturating counter increment. -/
def satAdd (x n max : Nat) : Nat := if x + n < max then x + n else max

/-- The numbers lo to lo + n − 1 in ascending order. -/
def rangeFrom (lo n : Nat) : List Nat := (List.range n).map (lo + ·)

/-- CRC-32 of IEEE 802.3: one byte folded into the reflected register. -/
def crcByte (c : Nat) (b : Byte) : Nat :=
  (List.range 8).foldl (fun acc _ => if acc % 2 = 1 then (acc / 2) ^^^ 0xEDB88320 else acc / 2) (c ^^^ b.toNat)

/-- CRC-32 of IEEE 802.3 over a list of bytes (R183, R184). -/
def crc32 (bs : List Byte) : Nat := (bs.foldl crcByte 0xFFFFFFFF) ^^^ 0xFFFFFFFF

end Sys2Proof.Machine
end

