-- ==== Sys2Proof/Machine/Crypto.lean ====
section
/-!
DEFINITION. The standards that the manual names for its cryptography: SHA-256 (FIPS 180-4), HMAC and HKDF (RFC 2104, RFC 5869), AES-256
(FIPS 197) in GCM and XTS, and RSA-3072 with PSS and OAEP (RFC 8017) (R308, R622, R641, R644, R651, R658, R661, R664, R668, R669). Their
text is outside the manual: PRESUMED, log entry 206.
-/
namespace Sys2Proof.Machine

/-! Big-endian numbers. -/

/-- The number a list of bytes spells, most significant byte first. -/
def beNat (bs : List Byte) : Nat := bs.foldl (fun acc b => acc * 256 + b.toNat) 0

/-- The n bytes of a number, most significant first. -/
def toBE (n x : Nat) : List Byte := (toLE n x).reverse

/-- Bytes combined by exclusive or, as far as both lists go. -/
def xorBytes (a b : List Byte) : List Byte := List.zipWith (· ^^^ ·) a b

/-- The ASCII bytes of a string. -/
def ascii (x : String) : List Byte := x.toList.map (fun c => BitVec.ofNat 8 c.toNat)

/-- The consecutive blocks of n bytes of a list, the last one as it stands. -/
def blocksFuel (n : Nat) : Nat → List Byte → List (List Byte)
  | 0, _ => []
  | fuel + 1, bs => if bs.isEmpty then [] else bs.take n :: blocksFuel n fuel (bs.drop n)

def blocksOf (n : Nat) (bs : List Byte) : List (List Byte) := blocksFuel n (cdiv bs.length n) bs

/-! SHA-256. -/

/-- The round constants of SHA-256. -/
def shaK : List Word :=
  [0x428a2f98, 0x71374491, 0xb5c0fbcf, 0xe9b5dba5, 0x3956c25b, 0x59f111f1, 0x923f82a4, 0xab1c5ed5,
   0xd807aa98, 0x12835b01, 0x243185be, 0x550c7dc3, 0x72be5d74, 0x80deb1fe, 0x9bdc06a7, 0xc19bf174] ++
  [0xe49b69c1, 0xefbe4786, 0x0fc19dc6, 0x240ca1cc, 0x2de92c6f, 0x4a7484aa, 0x5cb0a9dc, 0x76f988da,
   0x983e5152, 0xa831c66d, 0xb00327c8, 0xbf597fc7, 0xc6e00bf3, 0xd5a79147, 0x06ca6351, 0x14292967] ++
  [0x27b70a85, 0x2e1b2138, 0x4d2c6dfc, 0x53380d13, 0x650a7354, 0x766a0abb, 0x81c2c92e, 0x92722c85,
   0xa2bfe8a1, 0xa81a664b, 0xc24b8b70, 0xc76c51a3, 0xd192e819, 0xd6990624, 0xf40e3585, 0x106aa070] ++
  [0x19a4c116, 0x1e376c08, 0x2748774c, 0x34b0bcb5, 0x391c0cb3, 0x4ed8aa4a, 0x5b9cca4f, 0x682e6ff3,
   0x748f82ee, 0x78a5636f, 0x84c87814, 0x8cc70208, 0x90befffa, 0xa4506ceb, 0xbef9a3f7, 0xc67178f2]

/-- The initial hash value of SHA-256. -/
def shaInit : List Word :=
  [0x6a09e667, 0xbb67ae85, 0x3c6ef372, 0xa54ff53a, 0x510e527f, 0x9b05688c, 0x1f83d9ab, 0x5be0cd19]

/-- One more word of the message schedule, whose last words stand newest first. -/
def shaNext (w : List Word) : Word :=
  let x := w.getD 14 0
  let y := w.getD 1 0
  let s0 := x.rotateRight 7 ^^^ x.rotateRight 18 ^^^ (x >>> 3)
  let s1 := y.rotateRight 17 ^^^ y.rotateRight 19 ^^^ (y >>> 10)
  w.getD 15 0 + s0 + w.getD 6 0 + s1

/-- The 64 words of the message schedule of a block. -/
def shaSchedule (block : List Byte) : List Word :=
  let first := ((blocksOf 4 block).map (fun b => BitVec.ofNat 32 (beNat b))).reverse
  ((List.range 48).foldl (fun w _ => shaNext w :: w) first).reverse

/-- One round on the working variables a to h. -/
def shaRound (v : List Word) (kw : Word × Word) : List Word :=
  match v with
  | [a, b, c, d, e, f, g, h] =>
    let s1 := e.rotateRight 6 ^^^ e.rotateRight 11 ^^^ e.rotateRight 25
    let t1 := h + s1 + ((e &&& f) ^^^ (~~~e &&& g)) + kw.1 + kw.2
    let s0 := a.rotateRight 2 ^^^ a.rotateRight 13 ^^^ a.rotateRight 22
    let t2 := s0 + ((a &&& b) ^^^ (a &&& c) ^^^ (b &&& c))
    [t1 + t2, a, b, c, d + t1, e, f, g]
  | _ => v

/-- The hash value after one more block. -/
def shaBlock (h : List Word) (block : List Byte) : List Word :=
  List.zipWith (· + ·) h ((shaK.zip (shaSchedule block)).foldl shaRound h)

/-- A message with its padding. -/
def shaPad (m : List Byte) : List Byte :=
  m ++ [0x80] ++ List.replicate ((119 - m.length % 64) % 64) 0 ++ toBE 8 (8 * m.length)

/-- SHA-256 of a byte string. -/
def sha256 (m : List Byte) : List Byte := ((blocksOf 64 (shaPad m)).foldl shaBlock shaInit).flatMap (fun w => toBE 4 w.toNat)

/-- HMAC-SHA-256 of a message under a key. -/
def hmac (key m : List Byte) : List Byte :=
  let k := slice (if 64 < key.length then sha256 key else key) 0 64
  sha256 (k.map (· ^^^ 0x5C) ++ sha256 (k.map (· ^^^ 0x36) ++ m))

/-- The expansion of HKDF: block i + 1 follows from block i. -/
def hkdfExpand (prk info : List Byte) : Nat → Nat → List Byte → List Byte
  | 0, _, _ => []
  | n + 1, i, t =>
    let t' := hmac prk (t ++ info ++ toLE 1 i)
    t' ++ hkdfExpand prk info n (i + 1) t'

/-- HKDF-SHA-256: input key, salt, info, output length. No salt is 32 zero bytes. -/
def hkdf (key salt info : List Byte) (len : Nat) : List Byte :=
  (hkdfExpand (hmac (if salt.isEmpty then List.replicate 32 0 else salt) key) info (cdiv len 32) 1 []).take len

/-! AES-256. -/

/-- A byte times x in the field of AES. -/
def xtime (a : Byte) : Byte := (a <<< 1) ^^^ (if a.msb then 0x1B else 0)

/-- The product of two bytes in the field of AES. -/
def gmul (a b : Byte) : Byte :=
  ((List.range 8).foldl (fun (e : Byte × Byte) i => (if b.getLsbD i then e.1 ^^^ e.2 else e.1, xtime e.2)) (0, a)).1

/-- The inverse of a byte, 0 of 0: its 254th power. -/
def ginv (a : Byte) : Byte := (List.range 7).foldl (fun r i => let q := gmul r r; if i = 6 then q else gmul q a) a

/-- The substitution of AES. -/
def aesSub (a : Byte) : Byte :=
  let x := ginv a
  x ^^^ x.rotateLeft 1 ^^^ x.rotateLeft 2 ^^^ x.rotateLeft 3 ^^^ x.rotateLeft 4 ^^^ 0x63

/-- One more word of the key schedule of AES-256, whose words stand newest first. -/
def aesNextKey (w : List (List Byte)) (i : Nat) : List Byte :=
  let t := w.getD 0 []
  let t := if i % 8 = 0 then xorBytes ((t.drop 1 ++ t.take 1).map aesSub) [(List.range (i / 8 - 1)).foldl (fun r _ => xtime r) 1, 0, 0, 0]
    else if i % 8 = 4 then t.map aesSub else t
  xorBytes (w.getD 7 []) t

/-- The 15 round keys of a 32-byte key. -/
def aesKeys (key : List Byte) : List (List Byte) :=
  let w := (rangeFrom 8 52).foldl (fun w i => aesNextKey w i :: w) (blocksOf 4 (slice key 0 32)).reverse
  blocksOf 16 w.reverse.flatten

/-- The rows of a state shifted: byte 4c + r comes from column c + r. -/
def aesShift (x : List Byte) : List Byte := (List.range 16).map (fun i => x.getD ((i + 4 * (i % 4)) % 16) 0)

/-- The columns of a state mixed. -/
def aesMix (x : List Byte) : List Byte :=
  (blocksOf 4 x).flatMap (fun c => (List.range 4).map (fun r =>
    xtime (c.getD r 0) ^^^ (xtime (c.getD ((r + 1) % 4) 0) ^^^ c.getD ((r + 1) % 4) 0) ^^^ c.getD ((r + 2) % 4) 0 ^^^ c.getD ((r + 3) % 4) 0))

/-- AES-256 encryption of a 16-byte block. -/
def aesBlock (key x : List Byte) : List Byte :=
  match aesKeys key with
  | [] => []
  | k0 :: ks =>
    let mid := (ks.take 13).foldl (fun s k => xorBytes (aesMix (aesShift (s.map aesSub))) k) (xorBytes (slice x 0 16) k0)
    xorBytes (aesShift (mid.map aesSub)) (ks.getD 13 [])

/-! GCM. -/

/-- The product of GHASH, bit 127 of a number being the coefficient of 1. -/
def ghashMul (x y : BitVec 128) : BitVec 128 :=
  ((List.range 128).foldl (fun (e : BitVec 128 × BitVec 128) i =>
    (if x.getLsbD (127 - i) then e.1 ^^^ e.2 else e.1,
     (e.2 >>> 1) ^^^ (if e.2.getLsbD 0 then 0xE1000000000000000000000000000000 else 0))) (0, y)).1

/-- GHASH of a byte string cut into blocks. -/
def ghash (h : BitVec 128) (bs : List Byte) : BitVec 128 :=
  (blocksOf 16 bs).foldl (fun acc b => ghashMul (acc ^^^ BitVec.ofNat 128 (beNat (slice b 0 16))) h) 0

/-- Bytes filled up with zeros to whole blocks. -/
def padBlock (bs : List Byte) : List Byte := slice bs 0 (roundUp bs.length 16)

/-- Counter-mode encryption from counter 2 on, the nonce having 12 bytes. -/
def gcmStream (key nonce bs : List Byte) : List Byte :=
  ((List.range (cdiv bs.length 16)).zip (blocksOf 16 bs)).flatMap (fun e =>
    xorBytes e.2 (aesBlock key (slice nonce 0 12 ++ toBE 4 (e.1 + 2))))

/-- The tag of a ciphertext. -/
def gcmTag (key nonce aad ct : List Byte) : List Byte :=
  let h := BitVec.ofNat 128 (beNat (aesBlock key (List.replicate 16 0)))
  let s := ghash h (padBlock aad ++ padBlock ct ++ toBE 8 (8 * aad.length) ++ toBE 8 (8 * ct.length))
  xorBytes (toBE 16 s.toNat) (aesBlock key (slice nonce 0 12 ++ toBE 4 1))

/-- AES-256-GCM encryption: key, nonce, associated data, plaintext; answers ciphertext with tag. -/
def gcmSeal (key nonce aad plain : List Byte) : List Byte :=
  let ct := gcmStream key nonce plain
  ct ++ gcmTag key nonce aad ct

/-- AES-256-GCM decryption: key, nonce, associated data, ciphertext with tag; none when the tag fails. -/
def gcmOpen (key nonce aad sealed : List Byte) : Option (List Byte) :=
  let ct := sealed.take (sealed.length - 16)
  if sealed.drop (sealed.length - 16) = gcmTag key nonce aad ct then some (gcmStream key nonce ct) else none

/-! XTS. -/

/-- A tweak, as a little-endian number, for the next block of its data unit. -/
def xtsDouble (t : Nat) : Nat := t * 2 % 2 ^ 128 ^^^ (if bit t 127 then 0x87 else 0)

/-- AES-256-XTS encryption of a data unit of whole blocks: data key and tweak key, tweak, plaintext. -/
def xtsSeal (keys : List Byte) (tweak : Nat) (plain : List Byte) : List Byte :=
  let t0 := leNat (aesBlock (slice keys 32 32) (toLE 16 tweak))
  ((blocksOf 16 plain).foldl (fun (e : Nat × List Byte) b =>
    let t := toLE 16 e.1
    (xtsDouble e.1, e.2 ++ xorBytes (aesBlock (slice keys 0 32) (xorBytes b t)) t)) (t0, [])).2

/-! RSA-3072. -/

/-- A power modulo n, the exponent's bits from the top. -/
def powMod (b n : Nat) (e : Nat) : Nat :=
  ((List.range (Nat.log2 e + 1)).reverse).foldl (fun r i => let q := r * r % n; if bit e i then q * (b % n) % n else q) (1 % n)

/-- MGF1 with SHA-256. -/
def mgf1 (seed : List Byte) (n : Nat) : List Byte := ((List.range (cdiv n 32)).flatMap (fun i => sha256 (seed ++ toBE 4 i))).take n

/-- A byte string with its first bit clear. -/
def clearTop : List Byte → List Byte
  | [] => []
  | b :: bs => (b &&& 0x7F) :: bs

/-- The hash that an encoded message of PSS holds. -/
def pssHash (m salt : List Byte) : List Byte := sha256 (List.replicate 8 0 ++ sha256 m ++ salt)

/-- The 384-byte encoded message of PSS with SHA-256 and a 32-byte salt. -/
def pssEncode (m salt : List Byte) : List Byte :=
  let h := pssHash m salt
  clearTop (xorBytes (List.replicate 318 0 ++ [1] ++ salt) (mgf1 h 351)) ++ h ++ [0xBC]

/-- RSASSA-PSS verification with a 3072-bit modulus (R641, R651, Table 15.8): the signature encodes the message with some salt. -/
def pssVerify (n e : Nat) (m sig : List Byte) : Bool :=
  let s := beNat sig
  let em := toBE 384 (powMod s n e)
  let h := slice em 351 32
  let db := clearTop (xorBytes (em.take 351) (mgf1 h 351))
  decide (2 ^ 3071 ≤ n) && decide (n < 2 ^ 3072) && decide (s < n) && em == pssEncode m (db.drop 319)

/-- The modulus of a key pair from its primes. -/
def rsaModulus (pq : Nat × Nat) : Nat := pq.1 * pq.2

/-- The private exponent that belongs to the public exponent 65,537 (R641): its inverse modulo l, taken from the inverse of l modulo 65,537,
which is a prime. -/
def rsaPrivate (pq : Nat × Nat) : Nat :=
  let l := Nat.lcm (pq.1 - 1) (pq.2 - 1)
  (1 + (65537 - powMod l 65537 65535) * l) / 65537

/-- RSASSA-PSS signature with a key pair and a salt (R641). -/
def pssSign (pq : Nat × Nat) (m salt : List Byte) : List Byte :=
  toBE 384 (powMod (beNat (pssEncode m (slice salt 0 32))) (rsaModulus pq) (rsaPrivate pq))

/-- RSAES-OAEP decryption with SHA-256 under a label; none when the unwrap fails (R641, R664). -/
def oaepOpen (pq : Nat × Nat) (label c : List Byte) : Option (List Byte) :=
  let n := rsaModulus pq
  let em := toBE 384 (powMod (beNat c) n (rsaPrivate pq))
  let seed := xorBytes (slice em 1 32) (mgf1 (slice em 33 351) 32)
  let db := xorBytes (slice em 33 351) (mgf1 seed 351)
  let rest := (db.drop 32).dropWhile (· == 0)
  if c.length = 384 ∧ beNat c < n ∧ em.head? = some 0 ∧ db.take 32 = sha256 label ∧ rest.head? = some 1 then some (rest.drop 1) else none

/-! The module's own key pairs. -/

/-- A signature of the identity key over a message, whose salt is free (R641, R656). -/
def identitySign (m : List Byte) : List Byte := pssSign Config.identityPrimes m (Config.identitySalt m)

/-- What the encryption key unwraps under a label (R641, R664). -/
def unwrapKey (label c : List Byte) : Option (List Byte) := oaepOpen Config.encryptionPrimes label c

/-- The check of a signed image's SIGNATURE: its EXPONENT and MODULUS, the bytes signed, the signature (R651, Table 15.8). -/
def signatureValid (modulus exponent m sig : List Byte) : Bool := pssVerify (beNat modulus) (leNat exponent) m sig

/-- A hexadecimal digit. -/
def hexDigit (n : Nat) : Byte := BitVec.ofNat 8 (if n < 10 then 48 + n else 55 + n)

/-- SERIAL written as 24 hexadecimal digits, its last byte first, as a number is written (R642; DESIGN CHOICE, log entry 206). -/
def serialHex : List Byte := (slice Config.serial 0 12).reverse.flatMap (fun b => [hexDigit (b.toNat / 16), hexDigit (b.toNat % 16)])

/-- The four certificates of the chain, in order: two of Trelist's, the device identity certificate, which names SERIAL, and the device
encryption certificate, which names its use and bears the identity key's signature. The DER form of each is free (R642, log entry 206). -/
def certificates : List (List Byte) :=
  [Config.certificate 0 [] [], Config.certificate 1 [] [], Config.certificate 2 serialHex [],
   Config.certificate 3 (ascii "keyEncipherment") (identitySign (Config.certificateBody (ascii "keyEncipherment")))]

/-- The certificate chain, at most 8 KiB in all (R642). -/
def certificateChain : List Byte := certificates.flatten.take 8192

end Sys2Proof.Machine
end

