-- ==== Sys2Proof/Machine/Float.lean ====
section
/-!
DEFINITION. Number formats and arithmetic (chapter 03): storage types as exact dyadic values, one rounding per
step, conversions, requantisation and the vector-unit functions.
-/
namespace Sys2Proof.Machine

/-- The value a storage element stands for: a NaN, an infinity, or (−1)^neg · m · 2^e exactly. -/
inductive Num where
  | nan
  | inf (neg : Bool)
  | fin (neg : Bool) (m : Nat) (e : Int)
  deriving DecidableEq, Repr

/-- A floating format of Table 3.1. `special`: 0 no special values, 1 IEEE style, 2 E4M3. -/
structure FpFmt where
  ew : Nat
  mw : Nat
  bias : Nat
  special : Nat
  deriving DecidableEq, Repr

def fmtE4M3 : FpFmt := ⟨4, 3, 7, 2⟩
def fmtE5M2 : FpFmt := ⟨5, 2, 15, 1⟩
def fmtE2M3 : FpFmt := ⟨2, 3, 1, 0⟩
def fmtE3M2 : FpFmt := ⟨3, 2, 3, 0⟩
def fmtE2M1 : FpFmt := ⟨2, 1, 1, 0⟩
def fmtBF16 : FpFmt := ⟨8, 7, 127, 1⟩
def fmtFP16 : FpFmt := ⟨5, 10, 15, 1⟩
def fmtFP32 : FpFmt := ⟨8, 23, 127, 1⟩

/-- The exponent of the least bit of a subnormal of a format. -/
def FpFmt.emin (f : FpFmt) : Int := 1 - (f.bias : Int) - (f.mw : Int)

/-- The magnitude field of the largest finite value of a format (Table 3.1). -/
def FpFmt.maxField (f : FpFmt) : Nat :=
  match f.special with
  | 1 => (2 ^ f.ew - 1) * 2 ^ f.mw - 1
  | 2 => 2 ^ (f.ew + f.mw) - 2
  | _ => 2 ^ (f.ew + f.mw) - 1

/-- The value an element of a format encodes (R131). -/
def decodeFp (f : FpFmt) (x : Nat) : Num :=
  let neg := bit x (f.ew + f.mw)
  let ex := (x >>> f.mw) % 2 ^ f.ew
  let mant := x % 2 ^ f.mw
  if f.special = 1 && ex = 2 ^ f.ew - 1 then (if mant = 0 then .inf neg else .nan)
  else if f.special = 2 && ex = 2 ^ f.ew - 1 && mant = 2 ^ f.mw - 1 then .nan
  else if ex = 0 then .fin neg mant f.emin
  else .fin neg (mant + 2 ^ f.mw) ((ex : Int) - (f.bias : Int) - (f.mw : Int))

/-- A number shifted left, or right with ties to even. -/
def shiftRNE (m : Nat) (k : Int) : Nat :=
  if 0 ≤ k then m <<< k.toNat
  else
    let r := (-k).toNat
    let q := m >>> r
    let rem := m % 2 ^ r
    let half := 2 ^ (r - 1)
    if half < rem then q + 1 else if rem = half then q + q % 2 else q

/-- The magnitude field of m · 2^e rounded once to a format, nearest with ties to even, before any range check. -/
def roundField (f : FpFmt) (m : Nat) (e : Int) : Nat :=
  if m = 0 then 0
  else
    let q := max ((Nat.log2 m : Int) + e - (f.mw : Int)) f.emin
    let m' := shiftRNE m (e - q)
    let top := 2 ^ (f.mw + 1)
    let qi := if m' = top then q + 1 else q
    let mi := if m' = top then 2 ^ f.mw else m'
    if mi < 2 ^ f.mw then mi else ((qi - f.emin).toNat + 1) * 2 ^ f.mw + (mi - 2 ^ f.mw)

/-- The sign bit of a format, when set. -/
def signField (f : FpFmt) (neg : Bool) : Nat := if neg then 2 ^ (f.ew + f.mw) else 0

/-- A number rounded once to FP32; beyond the finite range ±Inf, every NaN canonical (R142, R143, R146, R150). -/
def toF32 : Num → Word
  | .nan => 0x7FC00000
  | .inf neg => BitVec.ofNat 32 (signField fmtFP32 neg + 0x7F800000)
  | .fin neg m e =>
    let fd := roundField fmtFP32 m e
    BitVec.ofNat 32 (signField fmtFP32 neg + (if fmtFP32.maxField < fd then 0x7F800000 else fd))

/-- The exact value of an FP32 word. -/
def ofF32 (w : Word) : Num := decodeFp fmtFP32 w.toNat

/-- A value is ±Inf or NaN. -/
def Num.nonfinite : Num → Bool
  | .fin _ _ _ => false
  | _ => true

def Num.isNan : Num → Bool
  | .nan => true
  | _ => false

def Num.isZero : Num → Bool
  | .fin _ m _ => m == 0
  | _ => false

/-- An FP32 word holds ±Inf or NaN (R147). -/
def f32Nonfinite (w : Word) : Bool := (ofF32 w).nonfinite

/-- The exact product of two values (R146: Inf times 0 is NaN). -/
def Num.mul : Num → Num → Num
  | .nan, _ => .nan
  | _, .nan => .nan
  | .inf a, .inf b => .inf (a ^^ b)
  | .inf a, .fin b m _ => if m = 0 then .nan else .inf (a ^^ b)
  | .fin a m _, .inf b => if m = 0 then .nan else .inf (a ^^ b)
  | .fin a m e, .fin b n d => .fin (a ^^ b) (m * n) (e + d)

/-- A value times 2^k exactly (R148). -/
def Num.scale (k : Int) : Num → Num
  | .fin s m e => .fin s m (e + k)
  | x => x

def Num.neg : Num → Num
  | .nan => .nan
  | .inf s => .inf (!s)
  | .fin s m e => .fin (!s) m e

/-- The least exponent of the finite terms of a sum. -/
def minExp (l : List Num) : Int :=
  l.foldl (fun acc x => match x with
    | .fin _ _ e => min acc e
    | _ => acc) 0

/-- The integer a finite term stands for at a common exponent. -/
def Num.at (e0 : Int) : Num → Int
  | .fin s m e => (if s then -1 else 1) * ((m <<< (e - e0).toNat : Nat) : Int)
  | _ => 0

/-- The exact sum of a list of terms (R142, R143, R146): NaN and opposite infinities give NaN, an exact zero is
+0 unless every term is −0. -/
def sumNum (l : List Num) : Num :=
  if l.any Num.isNan then .nan
  else if l.any (· == .inf false) then (if l.any (· == .inf true) then .nan else .inf false)
  else if l.any (· == .inf true) then .inf true
  else
    let e0 := minExp l
    let s := l.foldl (fun acc x => acc + x.at e0) (0 : Int)
    if s = 0 then
      .fin (!l.isEmpty && l.all (fun x => match x with
        | .fin neg m _ => neg && m == 0
        | _ => false)) 0 0
    else .fin (decide (s < 0)) s.natAbs e0

/-- FP32 addition, multiplication and fused multiply-add, each rounded once (R150). -/
def f32Add (a b : Word) : Word := toF32 (sumNum [ofF32 a, ofF32 b])
def f32Sub (a b : Word) : Word := toF32 (sumNum [ofF32 a, (ofF32 b).neg])
def f32Mul (a b : Word) : Word := toF32 ((ofF32 a).mul (ofF32 b))
def f32Fma (a b c : Word) : Word := toF32 (sumNum [(ofF32 a).mul (ofF32 b), ofF32 c])

/-- The ordering key of a non-NaN FP32 word, +0 above −0. -/
def f32Key (w : Word) : Int :=
  let x := w.toNat
  if bit x 31 then -((x % 2 ^ 31 : Nat) : Int) - 1 else ((x : Nat) : Int)

def f32IsNan (w : Word) : Bool := (ofF32 w).isNan

/-- FMAX and FMIN of Table 4.5a: +0 counts as larger than −0, a NaN operand gives the canonical NaN. -/
def f32Max (a b : Word) : Word :=
  if f32IsNan a || f32IsNan b then 0x7FC00000 else if f32Key a < f32Key b then b else a
def f32Min (a b : Word) : Word :=
  if f32IsNan a || f32IsNan b then 0x7FC00000 else if f32Key b < f32Key a then b else a

/-- a < b as FP32 values, NaN comparing false and −0 equal to +0. -/
def f32Lt (a b : Word) : Bool :=
  match sumNum [ofF32 b, (ofF32 a).neg] with
  | .fin neg m _ => !neg && !(m == 0)
  | .inf neg => !neg
  | .nan =>
    match ofF32 a, ofF32 b with
    | .inf true, .inf false => true
    | _, _ => false

/-- A number rounded to a narrower floating format by Table 3.4: BF16 and FP16 overflow to ±Inf, the others clamp
to the largest finite value; the NaN column gives the canonical NaN. -/
def toNarrow (f : FpFmt) (nanField : Nat) (sat : Bool) : Num → Nat
  | .nan => nanField
  | .inf neg => signField f neg + (if sat then f.maxField else f.maxField + 1)
  | .fin neg m e =>
    let fd := roundField f m e
    signField f neg + (if f.maxField < fd then (if sat then f.maxField else f.maxField + 1) else fd)

def toBF16 (w : Word) : Nat := toNarrow fmtBF16 0x7FC0 false (ofF32 w)
def toFP16 (w : Word) : Nat := toNarrow fmtFP16 0x7E00 false (ofF32 w)
def toE4M3 (w : Word) : Nat := toNarrow fmtE4M3 0x7F true (ofF32 w)
def toE5M2 (w : Word) : Nat := toNarrow fmtE5M2 0x7F true (ofF32 w)

/-- An exact value rounded to an integer, nearest with ties to even. -/
def roundInt : Bool → Nat → Int → Int
  | neg, m, e => (if neg then -1 else 1) * ((shiftRNE m e : Nat) : Int)

/-- FP32 to INT32 by Table 3.4: saturates, NaN gives 0; the flag says a clamp happened. -/
def f32ToInt32 (w : Word) : Word × Bool :=
  match ofF32 w with
  | .nan => (0, false)
  | .inf neg => (if neg then 0x80000000 else 0x7FFFFFFF, true)
  | .fin neg m e =>
    let v := if 64 < (Nat.log2 m : Int) + e then (if neg then -(2 ^ 64 : Int) else 2 ^ 64) else roundInt neg m e
    let c := clampInt v (-(2 ^ 31)) (2 ^ 31 - 1)
    (BitVec.ofInt 32 c, decide (c ≠ v) && !(m == 0))

/-- An integer as an FP32 word, nearest with ties to even (Table 3.4). -/
def int32ToF32 (v : Int) : Word := toF32 (.fin (decide (v < 0)) v.natAbs 0)

/-- floor(log2 |x|) of a finite non-zero value. -/
def Num.ilog2 : Num → Int
  | .fin _ m e => (Nat.log2 m : Int) + e
  | _ => 0

/-- The exact value of an E8M0 scale: 2^(X − 127), 0xFF being NaN (Table 3.1). -/
def e8m0 (x : Nat) : Num := if x = 255 then .nan else .fin false 1 ((x : Int) - 127)

/-- Saturating INT32 addition (R139, R155): the sum and whether it clamped. -/
def sat32 (x : Int) : Int × Bool :=
  let c := clampInt x (-(2 ^ 31)) (2 ^ 31 - 1)
  (c, decide (c ≠ x))

/-- Requantisation of one accumulator (R155, R156): the output and whether the bias addition clamped. -/
def requantOne (acc bias mult : Int) (shift : Nat) (zp lo hi : Int) : Int × Bool :=
  let (acc2, sat) := sat32 (acc + bias)
  let p := acc2 * mult + (if shift = 0 then 0 else 2 ^ (shift - 1))
  let q := p / (2 ^ shift : Int)
  (clampInt (zp + q) lo hi, sat)

/-! The functions of Table 3.5. Each is approximated far below one ULP by exact integer arithmetic; the word the
implementation produces is free within the bound of the table. -/

/-- ln 2 scaled by 2^200. -/
def ln2Fix : Nat := 1113844574712631719546256151097547306333272293549090750737802

/-- The Taylor series of e^r at scale 2^200, n more terms after term k. -/
def expSeries : Nat → Nat → Nat → Nat → Nat → Nat
  | 0, _, _, _, acc => acc
  | n + 1, k, r, t, acc =>
    let t' := ((t * r) >>> 200) / k
    expSeries n (k + 1) r t' (acc + t')

/-- e^r · 2^200 for r at scale 2^200 in [0, ln 2). -/
def expFix (r : Nat) : Nat := expSeries 60 1 r (2 ^ 200) (2 ^ 200)

/-- e^(v · 2^−200) as m · 2^e. -/
def expReal (v : Int) : Nat × Int :=
  let k := v / (ln2Fix : Int)
  let r := (v % (ln2Fix : Int)).toNat
  (expFix r, k - 200)

/-- Integer square root by bits, from bit n down. -/
def isqrtBits : Nat → Nat → Nat → Nat
  | 0, _, acc => acc
  | n + 1, x, acc =>
    let c := acc + 2 ^ n
    isqrtBits n x (if c * c ≤ x then c else acc)

/-- |c − y| is at most k ULP of y's binade, for FP32 word c of the same sign and y = m · 2^e. -/
def withinUlp (k : Nat) (neg : Bool) (m : Nat) (e : Int) (c : Word) : Bool :=
  match ofF32 c with
  | .fin cn cm ce =>
    let q := max ((Nat.log2 m : Int) + e - 23) fmtFP32.emin
    let e0 := min (min ce e) q
    let y := ((m <<< (e - e0).toNat : Nat) : Int)
    let x := ((cm <<< (ce - e0).toNat : Nat) : Int)
    cn == neg && decide ((x - y).natAbs ≤ k * 2 ^ (q - e0).toNat)
  | _ => false

/-- The word a function produces for a real result (−1)^neg · m · 2^e: the implementation's own word where it lies
within k ULP, the nearest FP32 value otherwise; then the flush of R153 below 2^−126. -/
def funcResult (fn k : Nat) (x : Word) (neg : Bool) (m : Nat) (e : Int) : Word :=
  let near := toF32 (.fin neg m e)
  let c := Config.functionValue fn x
  let y := if withinUlp k neg m e c then c else near
  if y.toNat % 2 ^ 31 < 0x00800000 then BitVec.ofNat 32 (signField fmtFP32 neg) else y

/-- The scaled integer v · 2^200 of a finite FP32 value. -/
def fix200 (neg : Bool) (m : Nat) (e : Int) : Int := (if neg then -1 else 1) * ((m <<< (e + 200).toNat : Nat) : Int)

/-- EXP (Table 3.5). -/
def f32Exp (x : Word) : Word :=
  match ofF32 x with
  | .nan => 0x7FC00000
  | .inf neg => if neg then 0 else 0x7F800000
  | .fin neg m e =>
    if !neg && 0x42B17218 ≤ x.toNat then 0x7F800000
    else if neg && 0x42D00000 ≤ x.toNat % 2 ^ 31 then 0
    else
      let r := expReal (fix200 neg m e)
      funcResult 0x08 2 x false r.1 r.2

/-- EXP2 (Table 3.5). -/
def f32Exp2 (x : Word) : Word :=
  match ofF32 x with
  | .nan => 0x7FC00000
  | .inf neg => if neg then 0 else 0x7F800000
  | .fin neg m e =>
    if !neg && 0x43000000 ≤ x.toNat then 0x7F800000
    else if neg && 0x42FC0000 < x.toNat % 2 ^ 31 then 0
    else
      let v := fix200 neg m e
      let k := v / (2 ^ 200 : Int)
      let f := (v % (2 ^ 200 : Int)).toNat
      funcResult 0x09 1 x false (expFix ((f * ln2Fix) >>> 200)) (k - 200)

/-- RCP (Table 3.5); of a NaN the canonical NaN (DESIGN CHOICE: the table states it for EXP and EXP2 only, log entry 4). -/
def f32Rcp (x : Word) : Word :=
  match ofF32 x with
  | .nan => 0x7FC00000
  | .inf neg => BitVec.ofNat 32 (signField fmtFP32 neg)
  | .fin neg m e =>
    if m = 0 then BitVec.ofNat 32 (signField fmtFP32 neg + 0x7F800000)
    else
      let q := 2 ^ 200 / m
      funcResult 0x0A 1 x neg (2 * q + b2n (decide (2 ^ 200 % m ≠ 0))) (-201 - e)

/-- RSQRT (Table 3.5); of a NaN the canonical NaN (DESIGN CHOICE, log entry 4). -/
def f32Rsqrt (x : Word) : Word :=
  match ofF32 x with
  | .nan => 0x7FC00000
  | .inf neg => if neg then 0x7FC00000 else 0
  | .fin neg m e =>
    if m = 0 then BitVec.ofNat 32 (signField fmtFP32 neg + 0x7F800000)
    else if neg then 0x7FC00000
    else
      let odd := e % 2 = 1
      let mm := if odd then 2 * m else m
      let ee := if odd then e - 1 else e
      let q := 2 ^ 240 / mm
      funcResult 0x0B 2 x false (2 * isqrtBits 121 q 0 + 1) (-(ee / 2) - 121)

/-- The pairwise tree of a lane reduction (R75): lane 2n pairs with lane 2n + 1 at every level. -/
def pairUp (op : Word → Word → Word) : List Word → List Word
  | a :: b :: t => op a b :: pairUp op t
  | l => l

/-- Seven levels of the tree over 128 lanes (R75). -/
def reduceTree (op : Word → Word → Word) : Nat → List Word → List Word
  | 0, l => l
  | n + 1, l => reduceTree op n (pairUp op l)

def reduceLanes (op : Word → Word → Word) (l : List Word) : Word := (reduceTree op 7 l).headD 0

end Sys2Proof.Machine
end

