-- ==== Sys2Proof/Machine/Status.lean ====
section
/-!
DEFINITION. The status, outcome and event codes of the module (R32 to R37, Tables 18.16 and 18.17).
-/
namespace Sys2Proof.Machine

/-- A status, outcome or event code by name. -/
inductive Status where
  /-- OK, 0x0000 (R34). -/
  | ok
  /-- OK_ACC_SAT, 0x0031 (Table 3.8). -/
  | okAccSat
  /-- OK_ACC_NONFINITE, 0x0032 (Table 3.8). -/
  | okAccNonfinite
  /-- OK_EMPTY, 0x0051 (Table 5.8). -/
  | okEmpty
  /-- OK_POST_CAND_CLIPPED, 0x0052 (Table 5.8). -/
  | okPostCandClipped
  /-- OK_POST_KEEP_FULL, 0x0053 (Table 5.8). -/
  | okPostKeepFull
  /-- OK_FRAME_DEFECT, 0x0091 (Table 9.16). -/
  | okFrameDefect
  /-- SYNC_TIMEOUT, 0x0401 (Table 4.9). -/
  | syncTimeout
  /-- KV_PAGES_EXHAUSTED, 0x0601 (Table 6.7). -/
  | kvPagesExhausted
  /-- SEQ_FAULTED, 0x0602 (Table 6.7). -/
  | seqFaulted
  /-- SEQ_ENDED, 0x0801 (Table 8.15). -/
  | seqEnded
  /-- WCET_VOID, 0x0802 (Table 8.15). -/
  | wcetVoid
  /-- CTX_SUSPENDED, 0x0901 (Table 9.16). -/
  | ctxSuspended
  /-- AUD_MUTED, 0x0A01 (Table 10.11). -/
  | audMuted
  /-- AUD_RESEALED, 0x0A02 (Table 10.11). -/
  | audResealed
  /-- AUD_SUSPENDED, 0x0A03 (Table 10.11). -/
  | audSuspended
  /-- ABORTED_BY_CLEARING, 0x0C01 (Table 12.12). -/
  | abortedByClearing
  /-- ENERGY_DEFERRED, 0x0D01 (Table 13.13). -/
  | energyDeferred
  /-- STATE_SUPERSEDED, 0x0D02 (Table 13.13). -/
  | stateSuperseded
  /-- ESCALATION_DENIED, 0x0D03 (Table 13.13). -/
  | escalationDenied
  /-- FIRMWARE_LOST, 0x0D04 (Table 13.13). -/
  | firmwareLost
  /-- DORMANT_EXIT, 0x0D05 (Table 13.13). -/
  | dormantExit
  /-- WINDFALL_RESTORED, 0x0E01 (Table 14.14). -/
  | windfallRestored
  /-- ABORTED_BY_WINDFALL, 0x0E02 (Table 14.14). -/
  | abortedByWindfall
  /-- WINDFALL_DISARMED, 0x0E03 (Table 14.14). -/
  | windfallDisarmed
  /-- SPARE_SWAPPED, 0x1001 (Table 16.11). -/
  | spareSwapped
  /-- SPARE_EXHAUSTED, 0x1002 (Table 16.11). -/
  | spareExhausted
  /-- POWER_DOWN_NOTICE, 0x1201 (Table 18.17, Step 2 of Table 13.5). -/
  | powerDownNotice
  /-- CONTEXT_HALTED, 0x1202 (Table 18.17, A halted context (R359, R534)). -/
  | contextHalted
  /-- PARTITION_FAULT, 0x1203 (Table 18.17, A partition fault event (R291, R323)). -/
  | partitionFault
  /-- CLEARING_REPORT, 0x1204 (Table 18.17, Interim and final Clearing reports). -/
  | clearingReport
  /-- THERMAL_STAGE, 0x1205 (Table 18.17, Each change of thermal stage). -/
  | thermalStage
  /-- LINK_CHANGE, 0x1206 (Table 18.17, Each change of SPEED or WIDTH of a link). -/
  | linkChange
  /-- WAKE, 0x1207 (Table 18.17, A wake event to OWNER (R487)). -/
  | wake
  /-- MAILBOX_DONE, 0x1208 (Table 18.17, A finished mailbox command (R648)). -/
  | mailboxDone
  /-- E_LINK_PARITY, 0x8201 (Table 2.8). -/
  | eLinkParity
  /-- E_SEQ_ILLEGAL, 0x8202 (Table 2.8). -/
  | eSeqIllegal
  /-- E_STORE_RANGE, 0x8203 (Table 2.8). -/
  | eStoreRange
  /-- E_MODE_CONFLICT, 0x8204 (Table 2.8). -/
  | eModeConflict
  /-- E_TRANSPOSE_TYPE, 0x8205 (Table 2.8). -/
  | eTransposeType
  /-- E_TYPE_PAIR, 0x8301 (Table 3.8). -/
  | eTypePair
  /-- E_CODE_ALIGN, 0x8302 (Table 3.8). -/
  | eCodeAlign
  /-- E_TILE_OVERRUN, 0x8401 (Table 4.9). -/
  | eTileOverrun
  /-- E_SYNC_OWNER, 0x8402 (Table 4.9). -/
  | eSyncOwner
  /-- E_PTC_UNSUPPORTED, 0x8403 (Table 4.9). -/
  | ePtcUnsupported
  /-- E_PROGRAM_FORMAT, 0x8404 (Table 4.9). -/
  | eProgramFormat
  /-- E_IOVA_FAULT, 0x8405 (Table 4.9). -/
  | eIovaFault
  /-- E_LAYOUT, 0x8406 (Table 4.9). -/
  | eLayout
  /-- E_SYNC_EXHAUSTED, 0x8407 (Table 4.9). -/
  | eSyncExhausted
  /-- E_WINDOW_GEOMETRY, 0x8501 (Table 5.8). -/
  | eWindowGeometry
  /-- E_STEM_LIMIT, 0x8502 (Table 5.8). -/
  | eStemLimit
  /-- E_POST_DESC, 0x8503 (Table 5.8). -/
  | ePostDesc
  /-- E_SCALE_SKEW, 0x8601 (Table 6.7). -/
  | eScaleSkew
  /-- E_ATTN_CONFIG, 0x8602 (Table 6.7). -/
  | eAttnConfig
  /-- E_KV_RANGE, 0x8603 (Table 6.7). -/
  | eKvRange
  /-- E_MEM_POISON, 0x8701 (Table 7.8). -/
  | eMemPoison
  /-- E_STACK_OFF, 0x8702 (Table 7.8). -/
  | eStackOff
  /-- E_STREAM_CONFIG, 0x8703 (Table 7.8). -/
  | eStreamConfig
  /-- E_GROUP_BUSY, 0x8704 (Table 7.8). -/
  | eGroupBusy
  /-- E_PART_CONFIG, 0x8801 (Table 8.15). -/
  | ePartConfig
  /-- E_LIVE_SIZE, 0x8802 (Table 8.15). -/
  | eLiveSize
  /-- E_CONTEXT_CLASS, 0x8803 (Table 8.15). -/
  | eContextClass
  /-- E_PAIR_CONFIG, 0x8804 (Table 8.15). -/
  | ePairConfig
  /-- E_PAIR_MISMATCH, 0x8805 (Table 8.15). -/
  | ePairMismatch
  /-- E_PAIR_TIMEOUT, 0x8806 (Table 8.15). -/
  | ePairTimeout
  /-- E_CAM_CONFIG, 0x8901 (Table 9.16). -/
  | eCamConfig
  /-- E_ISP_OVERLOAD, 0x8902 (Table 9.16). -/
  | eIspOverload
  /-- E_CAM_CMD_FULL, 0x8903 (Table 9.16). -/
  | eCamCmdFull
  /-- E_SENSOR_NACK, 0x8904 (Table 9.16). -/
  | eSensorNack
  /-- E_CAM_LINK, 0x8905 (Table 9.16). -/
  | eCamLink
  /-- E_CAM_POWER, 0x8906 (Table 9.16). -/
  | eCamPower
  /-- E_AUD_CONFIG, 0x8A01 (Table 10.11). -/
  | eAudConfig
  /-- E_AUD_SEALED, 0x8A02 (Table 10.11). -/
  | eAudSealed
  /-- E_AUD_EXPIRED, 0x8A03 (Table 10.11). -/
  | eAudExpired
  /-- E_AUD_MODEL, 0x8A04 (Table 10.11). -/
  | eAudModel
  /-- E_DESC_FORMAT, 0x8B01 (Table 11.17). -/
  | eDescFormat
  /-- E_CORE_MASK, 0x8B02 (Table 11.17). -/
  | eCoreMask
  /-- E_CTX_CONFIG, 0x8B03 (Table 11.17). -/
  | eCtxConfig
  /-- E_FN_LIMIT, 0x8C01 (Table 12.12). -/
  | eFnLimit
  /-- E_STATE_REFUSED, 0x8D01 (Table 13.13). -/
  | eStateRefused
  /-- E_STATE_BUSY, 0x8D02 (Table 13.13). -/
  | eStateBusy
  /-- E_ENERGY_OVERSIZE, 0x8D03 (Table 13.13). -/
  | eEnergyOversize
  /-- E_TIER_CONFIG, 0x8D04 (Table 13.13). -/
  | eTierConfig
  /-- E_THERMAL, 0x8D05 (Table 13.13). -/
  | eThermal
  /-- E_FW_ABSENT, 0x8E01 (Table 14.14). -/
  | eFwAbsent
  /-- E_START_FAULT, 0x8E02 (Table 14.14). -/
  | eStartFault
  /-- E_FW_REGION, 0x8E03 (Table 14.14). -/
  | eFwRegion
  /-- E_FW_SIGNATURE, 0x8F01 (Table 15.16). -/
  | eFwSignature
  /-- E_FW_SIGNER, 0x8F02 (Table 15.16). -/
  | eFwSigner
  /-- E_FW_ROLLBACK, 0x8F03 (Table 15.16). -/
  | eFwRollback
  /-- E_SEC_DENIED, 0x8F04 (Table 15.16). -/
  | eSecDenied
  /-- E_SEC_BUSY, 0x8F05 (Table 15.16). -/
  | eSecBusy
  /-- E_LAST_SIGNER, 0x8F06 (Table 15.16). -/
  | eLastSigner
  /-- E_RELEASE, 0x8F07 (Table 15.16). -/
  | eRelease
  /-- E_WEIGHT_SLOT_BUSY, 0x8F08 (Table 15.16). -/
  | eWeightSlotBusy
  /-- E_WEIGHT_AUTH, 0x8F09 (Table 15.16). -/
  | eWeightAuth
  /-- E_WEIGHT_EGRESS, 0x8F0A (Table 15.16). -/
  | eWeightEgress
  /-- E_IDENTITY_LOST, 0x8F0B (Table 15.16). -/
  | eIdentityLost
  /-- E_DEBUG_OPEN, 0x8F0C (Table 15.16). -/
  | eDebugOpen
  /-- E_TALLY_VIOLATION, 0x9001 (Table 16.11). -/
  | eTallyViolation
  /-- E_FATAL_HALT, 0x9002 (Table 16.11). -/
  | eFatalHalt
  /-- E_CORE_RETIRED, 0x9003 (Table 16.11). -/
  | eCoreRetired
  /-- E_FW_LOAD_STATE, 0x9101 (Table 17.11). -/
  | eFwLoadState
  /-- E_MSG_FORMAT, 0x9102 (Table 17.11). -/
  | eMsgFormat
  /-- A code that the manual asks for and does not name, by its use (Config.unstatedCode). -/
  | unstated (use : Nat)
  deriving DecidableEq, Repr

/-- The n codes from `base` up. -/
def codesFrom (base n : Nat) : List Half := (List.range n).map (fun i => BitVec.ofNat 16 (base + i))

/-- The codes of Tables 18.16 and 18.17 that report no error. -/
def plainCodes : List Half :=
  [(0x0000, 1), (0x0031, 2), (0x0051, 3), (0x0091, 1), (0x0401, 1), (0x0601, 2), (0x0801, 2), (0x0901, 1), (0x0A01, 3), (0x0C01, 1),
    (0x0D01, 5), (0x0E01, 3), (0x1001, 2), (0x1201, 8)].flatMap (fun e => codesFrom e.1 e.2)

/-- The codes of Table 18.16 that report an error. -/
def errorCodes : List Half :=
  [(0x8201, 5), (0x8301, 2), (0x8401, 7), (0x8501, 3), (0x8601, 3), (0x8701, 4), (0x8801, 6), (0x8901, 6), (0x8A01, 4), (0x8B01, 3),
    (0x8C01, 1), (0x8D01, 5), (0x8E01, 3), (0x8F01, 12), (0x9001, 3), (0x9101, 2)].flatMap (fun e => codesFrom e.1 e.2)

/-- The code of a use for which the manual asks for a code and names none: one of the tables', and no rule says which (R743). -/
def unstatedOf (use : Nat) : Half :=
  let l := if use = 2 ∨ use = 3 then plainCodes else errorCodes
  l.getD (Config.unstatedCode use % l.length) 0

/-- The 16-bit value of a code (R32, Tables 18.16 and 18.17). -/
def Status.code : Status → Half
  | .ok => 0x0000
  | .okAccSat => 0x0031
  | .okAccNonfinite => 0x0032
  | .okEmpty => 0x0051
  | .okPostCandClipped => 0x0052
  | .okPostKeepFull => 0x0053
  | .okFrameDefect => 0x0091
  | .syncTimeout => 0x0401
  | .kvPagesExhausted => 0x0601
  | .seqFaulted => 0x0602
  | .seqEnded => 0x0801
  | .wcetVoid => 0x0802
  | .ctxSuspended => 0x0901
  | .audMuted => 0x0A01
  | .audResealed => 0x0A02
  | .audSuspended => 0x0A03
  | .abortedByClearing => 0x0C01
  | .energyDeferred => 0x0D01
  | .stateSuperseded => 0x0D02
  | .escalationDenied => 0x0D03
  | .firmwareLost => 0x0D04
  | .dormantExit => 0x0D05
  | .windfallRestored => 0x0E01
  | .abortedByWindfall => 0x0E02
  | .windfallDisarmed => 0x0E03
  | .spareSwapped => 0x1001
  | .spareExhausted => 0x1002
  | .powerDownNotice => 0x1201
  | .contextHalted => 0x1202
  | .partitionFault => 0x1203
  | .clearingReport => 0x1204
  | .thermalStage => 0x1205
  | .linkChange => 0x1206
  | .wake => 0x1207
  | .mailboxDone => 0x1208
  | .eLinkParity => 0x8201
  | .eSeqIllegal => 0x8202
  | .eStoreRange => 0x8203
  | .eModeConflict => 0x8204
  | .eTransposeType => 0x8205
  | .eTypePair => 0x8301
  | .eCodeAlign => 0x8302
  | .eTileOverrun => 0x8401
  | .eSyncOwner => 0x8402
  | .ePtcUnsupported => 0x8403
  | .eProgramFormat => 0x8404
  | .eIovaFault => 0x8405
  | .eLayout => 0x8406
  | .eSyncExhausted => 0x8407
  | .eWindowGeometry => 0x8501
  | .eStemLimit => 0x8502
  | .ePostDesc => 0x8503
  | .eScaleSkew => 0x8601
  | .eAttnConfig => 0x8602
  | .eKvRange => 0x8603
  | .eMemPoison => 0x8701
  | .eStackOff => 0x8702
  | .eStreamConfig => 0x8703
  | .eGroupBusy => 0x8704
  | .ePartConfig => 0x8801
  | .eLiveSize => 0x8802
  | .eContextClass => 0x8803
  | .ePairConfig => 0x8804
  | .ePairMismatch => 0x8805
  | .ePairTimeout => 0x8806
  | .eCamConfig => 0x8901
  | .eIspOverload => 0x8902
  | .eCamCmdFull => 0x8903
  | .eSensorNack => 0x8904
  | .eCamLink => 0x8905
  | .eCamPower => 0x8906
  | .eAudConfig => 0x8A01
  | .eAudSealed => 0x8A02
  | .eAudExpired => 0x8A03
  | .eAudModel => 0x8A04
  | .eDescFormat => 0x8B01
  | .eCoreMask => 0x8B02
  | .eCtxConfig => 0x8B03
  | .eFnLimit => 0x8C01
  | .eStateRefused => 0x8D01
  | .eStateBusy => 0x8D02
  | .eEnergyOversize => 0x8D03
  | .eTierConfig => 0x8D04
  | .eThermal => 0x8D05
  | .eFwAbsent => 0x8E01
  | .eStartFault => 0x8E02
  | .eFwRegion => 0x8E03
  | .eFwSignature => 0x8F01
  | .eFwSigner => 0x8F02
  | .eFwRollback => 0x8F03
  | .eSecDenied => 0x8F04
  | .eSecBusy => 0x8F05
  | .eLastSigner => 0x8F06
  | .eRelease => 0x8F07
  | .eWeightSlotBusy => 0x8F08
  | .eWeightAuth => 0x8F09
  | .eWeightEgress => 0x8F0A
  | .eIdentityLost => 0x8F0B
  | .eDebugOpen => 0x8F0C
  | .eTallyViolation => 0x9001
  | .eFatalHalt => 0x9002
  | .eCoreRetired => 0x9003
  | .eFwLoadState => 0x9101
  | .eMsgFormat => 0x9102
  | .unstated use => unstatedOf use

/-- A code reports an error exactly when its bit [15] is 1 (R33). -/
def Status.isError (x : Status) : Bool := decide (0x8000 ≤ x.code.toNat)

/-- A descriptor with this outcome did not complete: an error, a wait set's timeout, a Clearing or a Windfall (R268, R370). -/
def Status.fails (x : Status) : Bool :=
  x.isError || x == .syncTimeout || x == .abortedByClearing || x == .abortedByWindfall

/-- The code as a number. -/
def Status.num (x : Status) : Nat := x.code.toNat

/-- The kind of error that a code stands for in the counts of R694: codes the manual does not name are kinds of their own. -/
def Status.kind (x : Status) : Nat :=
  match x with
  | .unstated use => 2 ^ 16 + use
  | x => x.num

end Sys2Proof.Machine
end

