-- ==== Sys2Proof/Machine/Table.lean ====
section
/-!
DEFINITION. Sparse tables in one canonical form (keys strictly rising, no entry equal to what an
unlisted key reads as), and the byte memory built the same way.
-/
namespace Sys2Proof.Machine

/-- A sparse table: what a key that is not listed reads as is the reader's default. -/
abbrev Tbl (α : Type) := List (Nat × α)

/-- The entry of a key, if the table lists one. -/
def Tbl.find {α : Type} : Tbl α → Nat → Option α
  | [], _ => none
  | (k, v) :: t, n => if k = n then some v else Tbl.find t n

/-- The entry of a key, or the default. -/
def Tbl.get {α : Type} (d : α) (t : Tbl α) (n : Nat) : α := (Tbl.find t n).getD d

/-- The table without the entries of a key. -/
def Tbl.del {α : Type} (t : Tbl α) (n : Nat) : Tbl α := t.filter (fun e => !(e.1 == n))

/-- Insert a pair before the first greater key. -/
def Tbl.ins {α : Type} (n : Nat) (v : α) : Tbl α → Tbl α
  | [] => [(n, v)]
  | (k, w) :: t => if n < k then (n, v) :: (k, w) :: t else (k, w) :: Tbl.ins n v t

/-- The table with the entry of a key replaced. -/
def Tbl.put {α : Type} (t : Tbl α) (n : Nat) (v : α) : Tbl α := Tbl.ins n v (Tbl.del t n)

/-- The table with a key set, an entry equal to the default being left out. -/
def Tbl.set {α : Type} [DecidableEq α] (d : α) (t : Tbl α) (n : Nat) (v : α) : Tbl α :=
  if v = d then Tbl.del t n else Tbl.put t n v

/-- A key's entry changed by a function. -/
def Tbl.modify {α : Type} [DecidableEq α] (d : α) (t : Tbl α) (n : Nat) (f : α → α) : Tbl α :=
  Tbl.set d t n (f (Tbl.get d t n))

/-- The keys a table lists. -/
def Tbl.keys {α : Type} (t : Tbl α) : List Nat := t.map (·.1)

/-- The keys of a table rise strictly. -/
def Tbl.sorted {α : Type} : Tbl α → Bool
  | [] => true
  | [_] => true
  | (a, _) :: (b, w) :: t => decide (a < b) && Tbl.sorted ((b, w) :: t)

/-- What of a byte is padding of a tile whose zero point the move that wrote it does not carry (R219, log entry 32): all of it, its elements having `bits` bits, or the
nibble beside an INT4 element of data, which is the high one or not and has a value. -/
inductive Padding where
  | whole (bits : Nat)
  | beside (high : Bool) (data : Nat)
  deriving DecidableEq, Repr

/-- The element of w bits at a bit of a byte is padding. -/
def Padding.covers (w at_ : Nat) : Option Padding → Bool
  | none => false
  | some (.whole b) => w == b
  | some (.beside high _) => w == 4 && high != decide (4 ≤ at_)

/-- A byte as it reads: its padding is the free value given. -/
def Padding.byte (free : Byte) : Option Padding → Byte
  | some (.beside true v) => BitVec.ofNat 8 (free.toNat % 16 + v % 16 * 16)
  | some (.beside false v) => BitVec.ofNat 8 (free.toNat / 16 * 16 + v % 16)
  | _ => free

/-- A range of memory that holds undefined bytes until they are written (R187, R191, R322, R324, R354, R612): base, length and
the free draw its bytes come from. `pad` marks padding that a move filled with the zero point of a tile, which its descriptor
does not carry: it reads as that zero point through the tile's own descriptor (R219, log entry 32). -/
structure FreeRange where
  base : Nat
  len : Nat
  draw : Nat
  pad : Option Padding := none
  deriving DecidableEq, Repr

/-- The draw of the newest free range over an address. -/
def freeAt : List FreeRange → Nat → Option Nat
  | [], _ => none
  | f :: fs, a => if f.base ≤ a ∧ a < f.base + f.len then some f.draw else freeAt fs a

/-- The padding of the newest free range over an address. -/
def padAt : List FreeRange → Nat → Option Padding
  | [], _ => none
  | f :: fs, a => if f.base ≤ a ∧ a < f.base + f.len then f.pad else padAt fs a

/-- What is left of a free range outside [a, a + n). -/
def FreeRange.cut (f : FreeRange) (a n : Nat) : List FreeRange :=
  let lo : FreeRange := { f with len := min (f.base + f.len) a - f.base }
  let hi : FreeRange := { f with base := max f.base (a + n), len := f.base + f.len - max f.base (a + n) }
  [lo, hi].filter (fun x => x.len != 0)

/-- The canonical form of a byte memory: addresses strictly rising, and no entry 0 except where an unlisted byte is
free. -/
def Memory.wf (u : List FreeRange) (m : List Host.Cell) : Bool :=
  Tbl.sorted m && m.all (fun e => !(e.2 == 0) || (freeAt u e.1).isSome)

/-- One byte of memory; a byte that nothing has written reads 0 (R70, R112), or its free value in a range the manual
leaves undefined. -/
def Memory.read (u : List FreeRange) (m : List Host.Cell) (a : Nat) : Byte :=
  match Tbl.find m a with
  | some b => b
  | none =>
    match freeAt u a with
    | some d => Padding.byte (Config.freeByte d a) (padAt u a)
    | none => 0

/-- Write one byte. -/
def Memory.write (u : List FreeRange) (m : List Host.Cell) (a : Nat) (b : Byte) : List Host.Cell :=
  if b = 0 ∧ freeAt u a = none then Tbl.del m a else Tbl.put m a b

/-- The n bytes from an address. -/
def Memory.readN (u : List FreeRange) (m : List Host.Cell) (a n : Nat) : List Byte :=
  (List.range n).map (fun i => Memory.read u m (a + i))

/-- Write bytes in ascending addresses. -/
def Memory.writeN (u : List FreeRange) (m : List Host.Cell) (a : Nat) : List Byte → List Host.Cell
  | [] => m
  | b :: bs => Memory.writeN u (Memory.write u m a b) (a + 1) bs

/-- The cells outside a range. -/
def Memory.outside (m : List Host.Cell) (a n : Nat) : List Host.Cell :=
  m.filter (fun e => decide (e.1 < a) || decide (a + n ≤ e.1))

end Sys2Proof.Machine
end

