-- ==== Sys2Proof/Machine/StateCompute.lean ====
section
/-!
DEFINITION. The state of the compute side: cores, clusters, sync objects and the post engine (chapters 02 to 06).
-/
namespace Sys2Proof.Machine

/-- A wait on a sync object: GE or EQ against a target (R196). -/
structure SyncWait where
  sync : Nat
  eq : Bool
  target : Word
  deriving DecidableEq, Repr

/-- One open hardware loop: position of its first body instruction, body length, runs left (R781). -/
structure LoopFrame where
  start : Nat
  len : Nat
  left : Nat
  deriving DecidableEq, Repr

/-- An entry of the commit queue (R189). -/
inductive CommitEntry where
  | signal (sync add : Nat)
  | move (desc : List Byte)
  deriving DecidableEq, Repr

/-- What a tile releases at its COMMIT and by its moves (R189, R190): the signals in its commit queue so far, those of its SIGNAL and MOVE
words in program order, and what they come to over the tile's loops where the words alone tell it. -/
structure TilePlan where
  queued : List (Nat × Nat)
  words : List (Nat × Nat)
  whole : Option (List (Nat × Nat))
  deriving DecidableEq, Repr

/-- The open execution tile of a core (R188): its TILE_ID, the position of its TILE, whether its body has begun, and
the WAITSET proxies that still lack the WAIT of R785. -/
structure TileOpen where
  id : Nat
  pos : Nat
  inBody : Bool
  proxies : List Nat
  deriving DecidableEq, Repr

/-- What a core is doing. -/
inductive RunState where
  /-- no program loaded, or none running -/
  | idle
  /-- loaded; its program begins when every core of the descriptor is loaded (R345, R786) -/
  | loaded
  | running
  /-- stopped at a WAIT (R79) -/
  | waiting (w : SyncWait)
  /-- its WAIT is met and the wake notification is on its way (Table 4.6) -/
  | woken
  /-- ended by a tile abort or an illegal instruction outside a tile; the cluster controller holds the status (R80, R125) -/
  | stopped (st : Status)
  /-- the program has ended (R346) -/
  | ended
  /-- saved by Minuet; the resume block is held (R349) -/
  | yielded
  deriving DecidableEq, Repr

/-- The descriptor a core works for: context, ring index, partition and generation. -/
structure CoreWork where
  ctx : Nat
  idx : Nat
  part : Nat
  gen : Nat
  deriving DecidableEq, Repr

/-- The program a core has loaded (Table 4.4): where its image lies, its total length in instructions, the first
instruction of the overlay in the buffer, its live table and its whole text, overlays that are not in the buffer with it. -/
structure Program where
  compat : Bool
  realtime : Bool
  features : Nat
  liveBytes : Nat
  codeWords : Nat
  codeBase : Nat
  live : List (List (Nat × Nat))
  iova : Bool
  imageBase : Nat
  words : List Dword
  deriving DecidableEq, Repr

/-- The register block a Minuet save leaves with the cluster controller (R349). -/
structure Resume where
  s : Tbl Word
  a : Tbl Addr48
  td : Tbl (List Byte)
  tilePos : Nat
  tileId : Nat
  ranges : List (Nat × Nat)
  /-- offset of the save slot in the partition's save area of the cluster (R338) -/
  slotOff : Nat
  prog : Program
  work : CoreWork
  deriving DecidableEq, Repr

/-- One core (chapter 02). The core store itself lies in the device memory at the core's DPA (Table 4.7). -/
structure Core where
  run : RunState
  work : Option CoreWork
  prog : Option Program
  /-- the instruction buffer: the words of the program, or of its current overlay (Table 2.2) -/
  code : List Dword
  pc : Nat
  s : Tbl Word
  a : Tbl Addr48
  td : Tbl (List Byte)
  /-- accumulator words, key engine·256 + slot·16 + 4i + j (R64) -/
  acc : Tbl Word
  /-- what an unlisted accumulator word holds: none 0 (R65), some n a free value (R187) -/
  accBase : Option Nat
  /-- slots last written by a floating MMA since the core reset, key engine·16 + slot (R154) -/
  accFp : Tbl Bool
  /-- vector lanes, key 128·v + lane (R74) -/
  v : Tbl Word
  vBase : Option Nat
  /-- padding in the bytes of the vector registers, key 512·v + byte (R219, R222, log entry 32) -/
  vPad : Tbl Padding
  loops : List LoopFrame
  tile : Option TileOpen
  commitQ : List CommitEntry
  accSat : Bool
  accNonfin : Bool
  /-- engines in freeze mode by parity (R91) -/
  freeze : Tbl Bool
  /-- parity failures per engine and link, key 16·engine + link (Table 2.6) -/
  parity : Tbl Nat
  /-- reference counts of the last parity failures of an engine, newest first, at most four (Table 16.6) -/
  recent : Tbl (List Nat)
  /-- logical engines that failed their self-test at the core's power-up, with a swap pending (Table 16.6) -/
  failed : List Nat
  /-- UZ7220 compatibility mode (R103, R106) -/
  compat : Bool
  /-- a core reset the cluster controller has scheduled for the next tile boundary (Table 2.6) -/
  resetDue : Bool
  /-- logical engines with a swap pending in the spare map (R128) -/
  swapDue : List Nat
  /-- a Minuet request has reached the core (R349) -/
  minuetReq : Bool
  /-- the fault handler asks the core to stop at its next tile boundary (Table 8.5 step 3) -/
  stopReq : Bool
  resume : Option Resume
  /-- island mode: 0 ACTIVE, else the PMODE entered at a WAIT (R584) -/
  mode : Nat
  /-- ALLOW of CLK_CORE_MODE: the deepest mode permitted (Table 13.7) -/
  allow : Nat
  /-- ID of the last tile the core opened, for the fault report (Table 11.13) -/
  lastTile : Nat
  /-- core-store ranges the open tile's body has written: offset and length (R191) -/
  wrote : List (Nat × Nat)
  /-- what the last aborted tile would have released (R191, R291) -/
  plan : TilePlan
  deriving DecidableEq, Repr

def TilePlan.empty : TilePlan := { queued := [], words := [], whole := none }

/-- A core after power-up or core reset: accumulators, registers and sequencer cleared (R65, R99). -/
def Core.reset : Core :=
  { run := .idle, work := none, prog := none, code := [], pc := 0, s := [], a := [], td := [], acc := [],
    accBase := none, accFp := [], v := [], vBase := none, vPad := [], loops := [], tile := none, commitQ := [],
    accSat := false, accNonfin := false, freeze := [], parity := [], recent := [], failed := [], compat := false, resetDue := false,
    swapDue := [], minuetReq := false, stopReq := false, resume := none, mode := 0, allow := 0, lastTile := 0, wrote := [],
    plan := TilePlan.empty }

/-- What posted a move descriptor, and so what follows its end. -/
inductive MoveOwner where
  /-- a core program: the core and the TILE_ID of the tile whose commit released it (R356) -/
  | program (core tileId : Nat)
  /-- a segment fill of the cluster's weight stream (R321) -/
  | stream (part seg : Nat)
  deriving DecidableEq, Repr

/-- A move released by a commit and not yet accepted, or accepted and queued on the tile mover (R180, R181). -/
structure MoveSlot where
  slot : Nat
  raw : List Byte
  owner : MoveOwner
  ctx : Nat
  idx : Nat
  part : Nat
  gen : Nat
  weightSlot : Nat
  deriving DecidableEq, Repr

/-- A wait set the cluster controller watches (R785). -/
structure WaitSet where
  core : Nat
  part : Nat
  gen : Nat
  proxy : Nat
  entries : List SyncWait
  timeout : Nat
  /-- an entry's condition has held since the WAITSET (R785, R198) -/
  met : Bool
  deriving DecidableEq, Repr

/-- A stem descriptor submitted, queued or granted (R123, R232). -/
structure StemJob where
  raw : List Byte
  part : Nat
  gen : Nat
  /-- the running descriptor whose record carries the job's outcome -/
  ctx : Nat
  idx : Nat
  deriving DecidableEq, Repr

/-- One cluster: tile mover, stem engine and controller; its store lies in the device memory (Table 4.7). -/
structure Cluster where
  released : List MoveSlot
  moves : List MoveSlot
  waitSets : List WaitSet
  stemRun : Option StemJob
  stemQueue : List StemJob
  /-- the controller's copies of the geometry records it checked last, with H_OUT and W_OUT written (R217, R218) -/
  geoms : List (List Byte)
  /-- the digest of the firmware image that the controller runs, none before it has loaded one (R711) -/
  firm : Option (List Byte)
  deriving DecidableEq, Repr

/-- A cluster whose domain has just powered up (R112, R124). -/
def Cluster.reset : Cluster :=
  { released := [], moves := [], waitSets := [], stemRun := none, stemQueue := [], geoms := [], firm := none }

/-- A sync object (R194). `pf0` marks the objects of a recovery reserve, which carry PF0's generation (Table 12.8). -/
structure SyncObj where
  value : Word
  fn : Nat
  part : Nat
  gen : Nat
  pf0 : Bool
  deriving DecidableEq, Repr

/-- A signal released and not yet applied (R195, R198). `part` 64 stands for the firmware's own signals. -/
structure Signal where
  sync : Nat
  add : Nat
  part : Nat
  gen : Nat
  deriving DecidableEq, Repr

/-- The sync-object table of IOD.FAB with the signals on their way to it (R194, R198). -/
structure SyncUnit where
  objs : Tbl SyncObj
  flight : List Signal
  /-- signals dropped under R200, per partition -/
  dropped : Tbl Nat
  /-- signals released and applied since power-on (R675, R680) -/
  released : Nat
  applied : Nat
  deriving DecidableEq, Repr

def SyncUnit.reset : SyncUnit := { objs := [], flight := [], dropped := [], released := 0, applied := 0 }

/-- A queued or running post descriptor (R244). -/
structure PostJob where
  raw : List Byte
  fn : Nat
  part : Nat
  gen : Nat
  ctx : Nat
  idx : Nat
  deriving DecidableEq, Repr

/-- The post engine (R244): its queue, the running descriptor and the function served last. -/
structure PostUnit where
  /-- descriptors handed over by rings and not yet checked -/
  handed : List PostJob
  queue : List PostJob
  run : Option PostJob
  last : Nat
  /-- PST_COMPLETED (Table 18.15) -/
  completed : Nat
  deriving DecidableEq, Repr

def PostUnit.reset : PostUnit := { handed := [], queue := [], run := none, last := 31, completed := 0 }

/-- The compute side of the module: 128 logical cores, 16 clusters, the sync-object table and the post engine. -/
structure Cpu where
  cores : Tbl Core
  clusters : Tbl Cluster
  sync : SyncUnit
  post : PostUnit
  deriving DecidableEq, Repr

def Cpu.reset : Cpu := { cores := [], clusters := [], sync := SyncUnit.reset, post := PostUnit.reset }

end Sys2Proof.Machine
end

