-- ==== Sys2Proof/Machine/StateWork.lean ====
section
/-!
DEFINITION. The state of partitions, contexts, descriptors, serving and Pas de deux (chapters 06 to 08, 11, 12).
-/
namespace Sys2Proof.Machine

/-- A registered attention record with its pool's free list (R255, R263): the record, the owner, and the head and
length of the ring of identifiers in stacked memory. -/
structure AttnReg where
  raw : List Byte
  part : Nat
  head : Nat
  len : Nat
  deriving DecidableEq, Repr

/-- A weight stream of one cluster (R318, R321). -/
structure WStream where
  raw : List Byte
  part : Nat
  cluster : Nat
  /-- segments whose fill has been started, and fills completed -/
  next : Nat
  filled : Nat
  /-- last moves of fills, by segment, which the firmware posts when the other moves of their segments have ended (R321) -/
  tails : List (Nat × List Byte)
  stopAsked : Bool
  stopped : Bool
  deriving DecidableEq, Repr

/-- A sequence's place in a work list: sequence, Q_LEN, KV_LEN after the append (R270). -/
structure LenEntry where
  seq : Nat
  qLen : Nat
  kvLen : Nat
  deriving DecidableEq, Repr

/-- An attention item of a work list as the step builder assigned it (Table 6.5), with the page identifiers of its chunk, its
sequence's tags from its first page on, and the DPA and bytes of its own partial record when it has several chunks (R259, R288). -/
structure AttnItem where
  core : Nat
  seq : Nat
  head : Nat
  first : Nat
  ids : List Nat
  seed : Nat
  nChunks : Nat
  out : Nat
  bytes : Nat
  deriving DecidableEq, Repr

/-- A work list of an open step (R368). -/
structure WorkList where
  model : Nat
  bucket : Nat
  base : Nat
  resultDpa : Nat
  entries : List LenEntry
  ctx : Nat
  idx : Nat
  /-- the attention record and the items as they stood at the start of the step (R288) -/
  attn : List Byte
  items : List AttnItem
  /-- sequences marked by a cache tag mismatch in this list (R290) -/
  skewed : List Nat
  /-- a weight, scale or codebook mismatch befell the list (R291) -/
  weightSkew : Bool
  /-- status of the list's descriptor once its record is written -/
  done : Option Status
  /-- the step builder has updated the list's sequences; the list stays until its step ends (R289 to R291) -/
  updated : Bool
  deriving DecidableEq, Repr

/-- The serving set-up of a partition (Tables 8.7 and 8.8). -/
structure Serving where
  /-- the serving record; none when only model slots are registered -/
  raw : Option (List Byte)
  stepNo : Nat
  models : Tbl (List Byte)
  lists : List WorkList
  /-- KV_PAGES_EXHAUSTED or E_KV_RANGE has been reported since the sequence last ran (R370) -/
  reported : Tbl Bool
  /-- cache tag mismatches counted (Table 6.6) -/
  skews : Nat
  deriving DecidableEq, Repr

def Serving.empty : Serving := { raw := none, stepNo := 0, models := [], lists := [], reported := [], skews := 0 }

/-- The module's own part of a sequence-table entry, with the host's 48 bytes (Table 8.9). -/
structure SeqEntry where
  raw : List Byte
  /-- management messages waiting for the next step, oldest first (R372) -/
  pendingRaw : List (List Byte)
  tokensSince : Nat
  /-- steps the sequence was held out of for want of a CQ slot (R522) -/
  holdouts : Nat
  deriving DecidableEq, Repr

/-- A free entry. -/
def SeqEntry.free : SeqEntry := { raw := List.replicate 48 0, pendingRaw := [], tokensSince := 0, holdouts := 0 }

/-- A partition (Table 8.1 and R337). -/
structure Part where
  fn : Nat
  realtime : Bool
  stemExcl : Bool
  minClock : Nat
  maxClock : Nat
  save64k : Nat
  sharersMax : Nat
  memShare : Nat
  coreMask : Nat
  granules : List Nat
  extents : List (Nat × Nat)
  keySlot : Nat
  yieldSync : Nat
  reserve : List Nat
  /-- a Clearing of the partition is under way (R559) -/
  clearing : Bool
  /-- the tiers in which the firmware placed the elastic buffers, in the order of their declaration (R209) -/
  placed : List Nat
  deriving DecidableEq, Repr

/-- The place of a fetched descriptor between its fetch and its record. -/
inductive DescPhase where
  /-- its read is on the way (R519) -/
  | fetching
  /-- arrived and checked (R524) -/
  | queued
  /-- waits for energy in a later window (R592) -/
  | energyWait
  /-- admitted by the ledger; waits for its sync object, its cores or its turn (R343, R527) -/
  | admitted
  /-- started: its program is being loaded or runs, or its unit works on it -/
  | running
  /-- restored from a Windfall image without its record, which is due at the context's restart (R633) -/
  | restored
  /-- all its work has ended; its record is due (R346, R529) -/
  | ended
  deriving DecidableEq, Repr

/-- The descriptor has been checked and has not started. -/
def DescPhase.unstarted : DescPhase → Bool
  | .queued => true
  | .energyWait => true
  | .admitted => true
  | _ => false

/-- A fetched descriptor and what is known of it (R519 to R529). -/
structure Desc where
  idx : Nat
  raw : List Byte
  phase : DescPhase
  order : Nat
  status : Status
  accSat : Bool
  accNonfin : Bool
  detail0 : Nat
  detail1 : Nat
  /-- the estimate its admission used, what is left of its reservation, the part of it taken from C, whether it is open,
  and the energy credited so far; in 1/1,024 µJ (R376, R592, R593) -/
  estimate : Nat
  resLeft : Nat
  resC : Nat
  resOpen : Bool
  drawn : Nat
  /-- place among the descriptors that have begun to wait for energy, from 1; 0 for one that never waited (R592) -/
  waitSince : Nat
  voided : Bool
  /-- a failed move of the descriptor waits for the fault handler (Table 8.5) -/
  fault : Bool
  /-- its aborted tiles and failed moves, first one first: core, status and DETAIL0 (R356) -/
  stops : List (Nat × Status × Nat)
  /-- its WAIT_SYNC condition has held while it waited (R198, R527) -/
  waitMet : Bool
  /-- a core of it ended its program with a Minuet request open, and yielded (R343, R353) -/
  freed : Bool
  /-- the number of the kind under which the ledger last tested it (R597) -/
  kind : Nat := 0
  deriving DecidableEq, Repr

/-- A doorbell that waits for the restart of its halted context: CQ_HEAD or SQ_TAIL, its value, and its order of arrival at IOD.MGMT
(R344, R531). -/
structure HeldBell where
  head : Bool
  value : Word
  order : Nat
  deriving DecidableEq, Repr

/-- A hardware context (Tables 11.6 to 11.9) with its fetched descriptors. -/
structure Ctx where
  sqLo : Word
  sqHi : Word
  cqLo : Word
  cqHi : Word
  cfg : Word
  mod : Word
  vectorHi : Word
  cfgErr : Half
  dbBad : Bool
  halted : Bool
  active : Bool
  sqHead : Word
  cqTail : Word
  sqTail : Word
  cqHead : Word
  /-- descriptors fetched or being fetched and lacking a record, in ring order -/
  descs : List Desc
  /-- CQ slots reserved for sequence records (R522) -/
  seqReserved : Nat
  /-- records written since the context's last message (R535) -/
  pending : Nat
  /-- doorbells that arrived while the context was halted, oldest first (R531) -/
  held : List HeldBell
  /-- accepted SQ_TAIL values not yet fetched past, with their arrival order at IOD.MGMT, oldest first (R344) -/
  bells : List (Word × Nat)
  /-- paused by the host driver (R347) -/
  paused : Bool
  deriving DecidableEq, Repr

/-- A context as it stands after power-on and PERST_N (Tables 11.6 to 11.9). -/
def Ctx.reset : Ctx :=
  { sqLo := 0, sqHi := 0, cqLo := 0, cqHi := 0, cfg := 0x606, mod := 1, vectorHi := 0, cfgErr := 0,
    dbBad := false, halted := false, active := false, sqHead := 0, cqTail := 0, sqTail := 0,
    cqHead := 0, descs := [], seqReserved := 0, pending := 0, held := [], bells := [], paused := false }

/-- A Pas-de-deux pair (R379 to R385). -/
structure Pair where
  raw : List Byte
  fn : Nat
  armed : Bool
  /-- rounds completed since arming -/
  round : Nat
  stopped : Bool
  deriving DecidableEq, Repr

/-- A Clearing in progress: trigger, generations and the counts of Table 12.10. -/
structure ClearingJob where
  fn : Nat
  trigger : Nat
  oldGen : Nat
  descAborted : Nat
  signalsDropped : Nat
  writesDiscarded : Nat
  readsPoisoned : Nat
  d2dDropped : Nat
  pagesScrubbed : Nat
  /-- doorbells of the partition's contexts ignored (Table 12.9 step 2) -/
  bellsIgnored : Nat
  /-- contexts of the fetches that were on their way at step 2 and have not arrived since, one entry for each (R562) -/
  fetches : List Nat
  /-- contexts active for the partition at the trigger, whose doorbells are ignored and counted (Table 12.9 step 2) -/
  ctxs : List Nat
  /-- cluster and slot of each move that was dropped with a host read outstanding (R562) -/
  moves : List (Nat × Nat)
  /-- step of Table 12.9 reached -/
  step : Nat
  deriving DecidableEq, Repr

/-- Partitions, contexts and serving. -/
structure Work where
  parts : Tbl Part
  /-- current generation of each partition identifier; 0 at power-on (R557) -/
  gens : Tbl Nat
  /-- identifiers retired until power-on (R564, R682) -/
  retired : List Nat
  clearings : Tbl ClearingJob
  ctxs : Tbl Ctx
  /-- doorbells numbered so far, for the order of R344 -/
  doorbells : Nat
  /-- context served last among the NORMAL contexts of a partition (R344) -/
  lastNormal : Tbl Nat
  /-- the NORMAL contexts that were passed over while their descriptor waited, which keep their turn (R344) -/
  passed : Tbl (List Nat)
  /-- the sequence table (R364) -/
  seqs : Tbl SeqEntry
  /-- registered attention records, key POOL_BASE (R255) -/
  attn : Tbl AttnReg
  /-- weight streams, key 16·partition + cluster (R318) -/
  streams : Tbl WStream
  serving : Tbl Serving
  pairs : Tbl Pair
  /-- MEM_STALL[p][c], key 8·p + c (R328) -/
  stall : Tbl Nat
  /-- reference count at the start of a partition's open stall interval (R325) -/
  stallFrom : Tbl Nat
  /-- the cause of an open stall interval that stands highest in Table 7.5 so far (R326) -/
  stallWorst : Tbl Nat
  /-- accounting counters, key of contexts 8·n + i, partitions 0x8000 + 8·p + i, functions 0x8200 + 8·f + i,
  UNATTRIBUTED 0x8300 (R374, R377) -/
  acct : Tbl Nat
  deriving DecidableEq, Repr

def Work.reset : Work :=
  { parts := [], gens := [], retired := [], clearings := [], ctxs := [], doorbells := 0, lastNormal := [], passed := [],
    seqs := [], attn := [], streams := [], serving := [], pairs := [], stall := [], stallFrom := [], stallWorst := [], acct := [] }

end Sys2Proof.Machine
end

