-- ==== Sys2Proof/Machine/StateHost.lean ====
section
/-!
DEFINITION. The state the host sees: functions, management rings, links, MSI-X, logs, and the record of what the
module has sent out (chapters 11, 12, 16, 17).
-/
namespace Sys2Proof.Machine

/-- The attributes of a PCIe request that the module makes: its traffic class, Relaxed Ordering, No Snoop, and whether its tag may
have 10 bits (R301, R330, R504). -/
structure ReqAttr where
  tc : Nat
  relaxed : Bool
  noSnoop : Bool
  tag10 : Bool
  deriving DecidableEq, Repr

/-- What leaves the module, newest first in the state's log. -/
inductive Out where
  /-- a posted write of a function to host memory; `poison` is the EP bit (R207, R315) -/
  | hostWrite (fn addr : Nat) (data : List Byte) (poison : Bool) (attr : ReqAttr)
  /-- a read request of a function to host memory (R206, R331, R504) -/
  | hostRead (fn addr len : Nat) (attr : ReqAttr)
  /-- an MSI-X message (R513) -/
  | msix (fn vec : Nat)
  /-- the value answered to a 32-bit register read -/
  | regRead (fn : Nat) (value : Word)
  /-- the completion of a BAR2 read; `poison` is the EP bit (R509) -/
  | barRead (fn : Nat) (data : List Byte) (poison : Bool)
  /-- a DOE answer (R655) -/
  | spdm (fn : Nat) (data : List Byte)
  /-- a packet of an SMBus answer: its source address, at most 64 bytes of the message, and its error code (R542, R543) -/
  | smbus (source : Nat) (data : List Byte) (pec : Byte)
  /-- tunnelled I2C traffic to a sensor on the A-PHY uplink (R446) -/
  | uplink (port : Nat) (data : List Byte)
  /-- a GPIO edge on the A-PHY uplink to a port's sensor (R402) -/
  | fsync (port : Nat)
  /-- a controller slice's answer to a granule request: status, data of a read, poison, traffic class (R301, R309) -/
  | granule (status : Status) (data : List Byte) (poison : Bool) (tc : Nat)
  /-- an Advanced Error Reporting message on PF0: corrected or uncorrectable internal error (R691) -/
  | aer (uncorrectable fatal : Bool)
  /-- a root-of-trust start message on UART_TX (R761) -/
  | uart (text : List Byte)
  deriving DecidableEq, Repr

/-- A message at a hop: its class (Table 0.4), the function it is of, its payload bytes, the reference count at its arrival, whether it
holds an escape slot, and what leaves the module with it (R683 to R686). -/
structure HopMsg where
  cls : Nat
  fn : Nat
  size : Nat
  since : Nat
  escape : Bool
  out : Out
  deriving DecidableEq, Repr

/-- The transaction layer of a PCIe link as a hop: messages in slots and messages that wait for one, in arrival order, the class
served last, and the payload bytes forwarded for each function since the last contention began (R551, R683 to R688). -/
structure Hop where
  slots : List HopMsg
  ready : List HopMsg
  last : Nat
  used : Tbl Nat
  deriving DecidableEq, Repr

/-- An empty hop; the round of classes begins at TC0. -/
def Hop.empty : Hop := { slots := [], ready := [], last := 6, used := [] }

/-- A management event that waits for its function's event ring (R714, R717). `keep` marks those never discarded. -/
structure Event where
  code : Status
  payload : List Byte
  keep : Bool
  deriving DecidableEq, Repr

/-- A request taken and not yet answered in the reply ring: its number, OPCODE and TAG, and the reply once it is known. -/
structure Owed where
  num : Nat
  op : Nat
  tag : Nat
  reply : Option (List Byte)
  deriving DecidableEq, Repr

/-- One PCIe function: its FN registers, management rings, vectors and aperture (chapters 11, 12, 17). -/
structure Fn where
  limParts : Nat
  limPages : Nat
  limCores : Nat
  limRefused : Bool
  wEnergy : Nat
  wPcie : Nat
  wMem : Nat
  qosRefused : Bool
  flrBusy : Bool
  /-- the function is in reset or disabled, so no report reaches it (Table 12.5) -/
  inReset : Bool
  /-- a VF disabled in its parent's SR-IOV capability whose Clearings run (Table 12.6) -/
  disabled : Bool
  reqTail : Word
  reqHead : Word
  repHead : Word
  repTail : Word
  evtHead : Word
  evtTail : Word
  eventsLost : Word
  /-- the request ring as the host has written it, by offset in the management area (Table 17.2) -/
  reqRing : List Host.Cell
  /-- reply and event slots as written, key slot number (Table 17.2) -/
  repRing : Tbl (List Byte)
  evtRing : Tbl (List Byte)
  held : List Event
  /-- requests taken whose replies are not yet in the reply ring, in the order taken (R715) -/
  owed : List Owed
  /-- vectors masked by the host, an unlisted one being masked (R727), and pending bits (R536) -/
  masked : Tbl Bool
  pba : Tbl Bool
  /-- address and data words of the MSI-X table, key 4·vector + word (R727) -/
  msix : Tbl Word
  /-- MEM_APT[j] (Table 11.5) -/
  apt : Tbl Word
  /-- latched high words of 64-bit counters, key the BAR0 offset of the low word (R24) -/
  latch : Tbl Word
  /-- Bus Master Enable (R554) -/
  busMaster : Bool
  /-- Device Control of the function: Max_Read_Request_Size as its code, Enable Relaxed Ordering, and 10-Bit Tag Requester Enable
  of Device Control 2, at the defaults of PCI Express (R504; PRESUMED, log entry 162) -/
  mrrs : Nat
  relaxed : Bool
  tag10 : Bool
  /-- BAR0 access errors counted (R730) -/
  accessErr : Nat
  deriving DecidableEq, Repr

/-- A function after power-on: Tables 12.1 to 12.4 give PF0 and the VFs their Cold values. -/
def Fn.reset (pf0 : Bool) : Fn :=
  { limParts := if pf0 then 64 else 0, limPages := if pf0 then 0xFFFF else 0, limCores := if pf0 then 128 else 0,
    limRefused := false, wEnergy := if pf0 then 256 else 0, wPcie := if pf0 then 256 else 0,
    wMem := if pf0 then 256 else 0, qosRefused := false, flrBusy := false, inReset := false, disabled := false,
    reqTail := 0, reqHead := 0, repHead := 0, repTail := 0, evtHead := 0, evtTail := 0, eventsLost := 0,
    reqRing := [], repRing := [], evtRing := [], held := [], owed := [], masked := [], pba := [], msix := [], apt := [], latch := [],
    busMaster := true, mrrs := 2, relaxed := true, tag10 := false, accessErr := 0 }

/-- A PCIe link (Table 11.2). -/
structure Link where
  dbIgnored : Nat
  retrains : Nat
  width : Nat
  speed : Nat
  belowFloor : Bool
  up : Bool
  /-- the link has reached L0 since the start (R609) -/
  reached : Bool
  perst : Bool
  /-- taken down by the procedure of a state entry (R502, R580) -/
  removed : Bool
  retraining : Bool
  /-- synchronised by PTM (R538) -/
  ptm : Bool
  /-- offset of the host's PTM time from module time while synchronised, ns modulo 2^62 -/
  ptmOffset : Nat
  deriving DecidableEq, Repr

def Link.reset : Link :=
  { dbIgnored := 0, retrains := 0, width := 0, speed := 0, belowFloor := false, up := false, reached := false, perst := true,
    removed := false, retraining := false, ptm := false, ptmOffset := 0 }

/-- The firmware's log ring (Tables 17.3 and 17.6). -/
structure LogRing where
  head : Word
  tail : Word
  lost : Word
  level : Nat
  ring : Tbl (List Byte)
  /-- SEQ: entries since the firmware started (Table 17.6) -/
  seq : Nat
  deriving DecidableEq, Repr

def LogRing.reset : LogRing := { head := 0, tail := 0, lost := 0, level := 0, ring := [], seq := 0 }

/-- The TRC block and the per-island record counts (Tables 17.8 and 17.9). -/
structure Trace where
  en : Bool
  ringLog2 : Nat
  baseLo : Word
  baseHi : Word
  tail : Word
  head : Word
  drops : Word
  enable : Tbl Word
  seq : Tbl Nat
  deriving DecidableEq, Repr

def Trace.reset : Trace :=
  { en := false, ringLog2 := 12, baseLo := 0, baseHi := 0, tail := 0, head := 0, drops := 0, enable := [], seq := [] }

/-- An entry of the persistent error log (Table 16.5), without its SEQ_NO. -/
structure ErrEntry where
  startNo : Nat
  time : Nat
  cls : Nat
  priorUe : Bool
  source : Nat
  code : Status
  count : Nat
  detail : Nat
  deriving DecidableEq, Repr

/-- A spare-map record (Table 16.8). -/
structure SpareRec where
  kind : Nat
  cause : Nat
  startNo : Nat
  time : Nat
  logical : Nat
  physical : Nat
  spare : Nat
  deriving DecidableEq, Repr

/-- An island's ageing record (SPR_MARGIN, Table 16.9). -/
structure Margin where
  slack : Nat
  base : Nat
  cap : Nat
  steps : Nat
  /-- the baseline that the spare map holds, if any (R618); reference count of the last voltage step, from which 10 s run (R696) -/
  baseline : Option Nat
  stepAt : Option Nat
  deriving DecidableEq, Repr

def Margin.reset : Margin := { slack := 0, base := 0, cap := 0, steps := 0, baseline := none, stepAt := none }

/-- Errors, Tally and spares (chapter 16). -/
structure Errs where
  /-- the persistent error log, newest first, at most 16,384 entries (R694) -/
  log : List ErrEntry
  /-- entries since manufacture (SEQ_NO), contained and fatal among them (R695) -/
  seqNo : Nat
  contained : Nat
  fatal : Nat
  /-- occurrences since power-on, key 256·code + island (Table 16.5) -/
  counts : Tbl Nat
  /-- islands with an uncorrectable error reported since power-on (R677) -/
  dirty : Tbl Bool
  /-- the module is in the fatal halt (R692) -/
  halted : Bool
  /-- pools whose audit epoch is open (R679, R681) -/
  audits : List Nat
  /-- TLY_FATAL_POOL and TLY_FATAL_DIFF (Table 16.2) -/
  tlyPool : Nat
  tlyValid : Bool
  tlyDevice : Bool
  tlyPart : Nat
  tlyDiff : Int
  /-- spare-map records, oldest first (Table 16.8) -/
  spares : List SpareRec
  /-- spares used: engines per logical core, rows per bank, slices per stack, lanes per link and direction, remap
  rows per pseudo-channel, and cluster spare cores -/
  enginesUsed : Tbl Nat
  rowsUsed : Tbl Nat
  slicesUsed : Tbl Nat
  lanesUsed : Tbl Nat
  remapUsed : Tbl Nat
  spareCoreUsed : Tbl Bool
  /-- links at half width for want of lanes, key 2·link + direction (R702) -/
  halfWidth : Tbl Bool
  /-- cores that a migration must replace, with its CAUSE (Tables 16.6 and 16.8) -/
  coreDue : Tbl Nat
  retiredCores : Tbl Bool
  retiredPages : Tbl Bool
  /-- pseudo-channels whose failing slice has no spare, key 32·stack + channel (R703) -/
  deadSlices : Tbl Bool
  /-- SPR_SUMMARY and SPR_LANES have been filled from the spare map (Table 16.9) -/
  filled : Bool
  margin : Tbl Margin
  deriving DecidableEq, Repr

def Errs.reset : Errs :=
  { log := [], seqNo := 0, contained := 0, fatal := 0, counts := [], dirty := [], halted := false, audits := [], tlyPool := 0,
    tlyValid := false, tlyDevice := false, tlyPart := 0, tlyDiff := 0, spares := [], enginesUsed := [], rowsUsed := [],
    slicesUsed := [], lanesUsed := [], remapUsed := [], spareCoreUsed := [], halfWidth := [], coreDue := [], retiredCores := [],
    retiredPages := [], deadSlices := [], filled := false, margin := [] }

/-- The host side: functions, links, logs and time. -/
structure HostSide where
  fns : Tbl Fn
  /-- FN_GROUP_OWNER[g] and its REFUSED bits (Table 12.3) -/
  groupOwner : Tbl Nat
  groupRefused : Tbl Bool
  link0 : Link
  link1 : Link
  /-- the hop of each link, key the link (R683) -/
  hops : Tbl Hop
  /-- link mode in force (R494, R495): SPLIT, LINK1_FIRST, SRIS bits, SMBus address, VEC_COUNT for f = 1 to 31 -/
  split : Bool
  link1First : Nat
  ref0Sris : Bool
  ref1Sris : Bool
  smbusAddr : Nat
  /-- the endpoint ID the MCTP bus owner has assigned (R542) -/
  eid : Nat
  vecCount : Tbl Nat
  logRing : LogRing
  trace : Trace
  /-- the reference counter: crystal periods since power-on (chapter 11) -/
  refTicks : Nat
  /-- reference count at each island's last alignment (R537) -/
  aligned : Tbl Nat
  deriving DecidableEq, Repr

def HostSide.reset : HostSide :=
  { fns := [], groupOwner := [], groupRefused := [], link0 := Link.reset, link1 := Link.reset, hops := [], split := false,
    link1First := 0, ref0Sris := false, ref1Sris := false, smbusAddr := 0x62, eid := 0, vecCount := [], logRing := LogRing.reset,
    trace := Trace.reset, refTicks := 0, aligned := [] }

end Sys2Proof.Machine
end

