-- ==== Sys2Proof/Machine/StateMedia.lean ====
section
/-!
DEFINITION. The state of cameras, the ISP and audio (chapters 09 and 10, Tables 18.12 to 18.14).
-/
namespace Sys2Proof.Machine

/-! Cameras. -/

/-- A camera command in its port's queue (R445): the descriptor it answers and the 32-byte record. -/
structure CamCmd where
  ctx : Nat
  idx : Nat
  part : Nat
  raw : List Byte
  deriving DecidableEq, Repr

/-- One camera port: owner, power over coax, link and error counters (Tables 9.2 and 18.12). -/
structure Port where
  owner : Nat
  ownerRefused : Bool
  /-- CURRENT in mA as last measured -/
  current : Nat
  /-- STATE: 0 off, 1 ramping, 2 on, 3 fault latched -/
  st : Nat
  opened : Bool
  overcurrent : Bool
  ilim : Nat
  en : Bool
  retrains : Nat
  attempts : Nat
  gear : Nat
  /-- LINK: 0 off, 1 training, 2 writing the init list, 3 up, 4 failed -/
  link : Nat
  hdrEcc : Nat
  unmatched : Nat
  crcBad : Nat
  hdrCorrected : Nat
  /-- the profile slot the port trains by (R389) -/
  slot : Nat
  /-- the training under way follows a link loss and writes no init list (R398) -/
  retrain : Bool
  /-- what PF0 has written to CAM_POC while the group's domain was off and acts when it powers up (R55, R56): bits 9 and 8 the
  write-one-to-clear bits, bit 0 that EN was written 0 -/
  late : Nat
  queue : List CamCmd
  deriving DecidableEq, Repr

def Port.reset : Port :=
  { owner := 0, ownerRefused := false, current := 0, st := 0, opened := false, overcurrent := false, ilim := 8, en := false,
    retrains := 0, attempts := 0, gear := 0, link := 0, hdrEcc := 0, unmatched := 0, crcBad := 0, hdrCorrected := 0, slot := 0,
    retrain := false, late := 0, queue := [] }

/-- A frame-sync source (Table 18.13): PERIOD as written, and the period the generator runs (R403). -/
structure FsyncSrc where
  mode : Nat
  width : Nat
  reg : Nat
  period : Nat
  /-- a generator edge has been driven and is still to be forwarded (R402) -/
  due : Bool
  /-- the crystal-clock tick of the last edge that the generator drove, none when it drives no pulse, and the high time in µs in force for
  that pulse (R741) -/
  rise : Option Nat
  pulse : Nat
  deriving DecidableEq, Repr

def FsyncSrc.reset : FsyncSrc := { mode := 0, width := 10, reg := 1280000, period := 1280000, due := false, rise := none, pulse := 10 }

/-- The statistics accumulators of a frame (R440 to R443): histogram bins; white-balance words, key 4·zone + 0 R, 1 G, 2 B,
3 COUNT; focus zones; luma, key 2·zone the sum and 2·zone + 1 the quads. -/
structure CamStats where
  hist : Tbl Nat
  wb : Tbl Nat
  focus : Tbl Nat
  luma : Tbl Nat
  deriving DecidableEq, Repr

def CamStats.zero : CamStats := { hist := [], wb := [], focus := [], luma := [] }

/-- A frame of a context, from its start to its last record (R408 to R416, R431). -/
structure CamFrame where
  /-- frame starts of the context before this one; FRAME_NO is this modulo 2^32 -/
  no : Nat
  csiNo : Nat
  /-- reference count at the frame start, and the two time stamps -/
  tick : Nat
  tFs : Nat
  tFe : Nat
  closed : Bool
  /-- ROWS_RECEIVED: line packets accepted so far, so also the next line's number -/
  rows : Nat
  short : Nat
  long : Nat
  bad : Nat
  tooLong : Bool
  feMissing : Bool
  /-- filled pixels of received lines: line and first filled column -/
  filled : List (Nat × Nat)
  /-- the first 64 KiB of embedded-data lines -/
  emb : List Byte
  /-- EXP_PRED (R451) -/
  pred : Nat
  /-- pixels of the lines in the inline ring, key line; the ring's count of lines before this frame; a line was overwritten before the
  pipe had read it (R437) -/
  ring : Tbl (List Nat)
  ringBase : Nat
  lost : Bool
  /-- the first line of the next unit; `begun` once the first unit has started -/
  next : Nat
  begun : Bool
  /-- parameter sequence and bank in force at the first unit (R454) -/
  seq : Nat
  bank : List Byte
  tnrOff : Bool
  /-- outputs that the first unit decided to write (R421, R426) -/
  goes : List Bool
  /-- pipe of the motion watch when the frame runs there, inline (R455) -/
  watch : Option Nat
  stats : CamStats
  deriving DecidableEq, Repr

/-- An identified exposure request (R448 to R451): identifier, target frame, write slots. -/
structure ExpReq where
  id : Nat
  target : Nat
  writes : List Nat
  deriving DecidableEq, Repr

/-- A camera context (R404, R407), or a port's default context (R400). -/
structure CamCtx where
  raw : List Byte
  fn : Nat
  part : Nat
  gen : Nat
  /-- generation of the mirror partition when the context started (R426) -/
  mirrorGen : Nat
  dflt : Bool
  port : Nat
  vc : Nat
  pipe : Nat
  /-- the camera profile, as stored when the context started -/
  profile : List Byte
  stopAsked : Bool
  suspended : Bool
  /-- pipe of the motion watch while the context's frames begin there (R455) -/
  watch : Option Nat
  /-- the profile's DEFAULT_EXP is to be written once the port is up (R407, R456) -/
  expDue : Bool
  /-- frame starts counted (R409) -/
  started : Nat
  /-- a frame is open in the receiver; `dropping` when it was dropped at its start (R410) -/
  isOpen : Bool
  dropping : Bool
  /-- frames not yet finished by the pipe, oldest first; an open frame stands last -/
  frames : List CamFrame
  /-- parameter bank and sequence in force, the pending bank with its APPLY_FRAME, the last sequence number given -/
  bank : List Byte
  seq : Nat
  pend : Option (List Byte × Nat × Nat)
  lastSeq : Nat
  /-- requests, newest first, and the last identifier given -/
  reqs : List ExpReq
  lastExp : Nat
  /-- the last frame the pipe finished with its sequence, and its filled pixels: rows received and ranges (R419) -/
  prev : Option (Nat × Nat)
  prevRows : Nat
  prevFilled : List (Nat × Nat)
  /-- frames written to each output, and 1 plus the frame of its last record (R421, R424) -/
  written : Tbl Nat
  recorded : Tbl Nat
  /-- motion references: 1 plus the mean, by zone; consecutive moving frames (R443, R455) -/
  refs : Tbl Nat
  moving : Nat
  /-- the most recent statistics record of a default context (R400) -/
  lastStats : List Byte
  deriving DecidableEq, Repr

/-- A unit running on an ISP pipe: context, first line, lines. -/
structure IspUnit where
  ctx : Nat
  line : Nat
  len : Nat
  deriving DecidableEq, Repr

/-- One ISP pipe (Tables 9.12 and 18.14). -/
structure Pipe where
  run : Option IspUnit
  /-- the context whose running state the pipe holds (R434) -/
  held : Option Nat
  drops : Nat
  load : Nat
  deriving DecidableEq, Repr

def Pipe.reset : Pipe := { run := none, held := none, drops := 0, load := 0 }

/-! Audio. -/

/-- An open candidate (R483, R484). -/
structure Cand where
  cls : Nat
  onset : Nat
  /-- power state at the onset, and whether a change of state has followed (R486) -/
  stateAtOnset : Nat
  changed : Bool
  hops : Nat
  best : Int
  matchRun : Nat
  rejectRun : Nat
  /-- three matching hops have passed; WAKE_MATCH is due -/
  matched : Bool
  /-- first sample after the matching hop -/
  matchS : Nat
  deriving DecidableEq, Repr

/-- An open session (R477): S_UNSEAL, the channels, S at the later of the wake and the last copy request. -/
structure Session where
  from_ : Nat
  mask : Nat
  last : Nat
  deriving DecidableEq, Repr

/-- A block of the pre-wake buffer of one microphone (Table 10.7): its number, header and codes. -/
structure AudBlock where
  no : Nat
  header : Word
  codes : List Byte
  deriving DecidableEq, Repr

/-- The encoder of one microphone: predictor, step index, and the open block with the codes so far. -/
structure AudEnc where
  pred : Int
  step : Nat
  block : AudBlock
  nibbles : List Nat
  deriving DecidableEq, Repr

/-- One microphone's decimation chain (R463): PDM bits since the last CIC output, the CIC's integrators and combs, the delay lines of HB1
and HB2 with the newest entry first, each entry of HB2 with the CIC output it settled on, whether an input of each stands alone, and
the state of the high-pass. -/
structure Chain where
  phase : Nat
  ints : List (BitVec 40)
  combs : List (BitVec 40)
  hb1 : List Int
  hb2 : List Int
  odd1 : Bool
  odd2 : Bool
  /-- the bits that the filters still hold, newest first (R464) -/
  bits : List Bool
  dc : Int
  deriving DecidableEq, Repr

def Chain.reset : Chain :=
  { phase := 0, ints := List.replicate 5 0, combs := List.replicate 5 0, hb1 := [], hb2 := [], odd1 := false, odd2 := false, bits := [], dc := 0 }

/-- One microphone group (Tables 10.2 to 10.7). -/
structure AudGroup where
  /-- AUD_GROUP_CFG as written and as in force since the last hop boundary (R468) -/
  cfg : Word
  live : Word
  /-- AUD_WAKE_CFG and AUD_IND_CFG as written, and as in force since the last hop boundary (R468) -/
  wakeCfg : Word
  wake : Word
  indCfg : Word
  ind : Word
  /-- the mute land is low; the group is muted; it settles after an unmute (R472, R473) -/
  landLow : Bool
  muted : Bool
  settling : Bool
  /-- PDM clock, microphone power and indicator -/
  clock : Bool
  power : Bool
  lit : Bool
  /-- the stream chain was refused its pair (R469) -/
  chainOff : Bool
  /-- the capture counter S (R474) -/
  s : Nat
  /-- hops of noise-floor warm-up left (R482) -/
  warm : Nat
  /-- noise floor in 1/200 dB, none before the first hop of a capture -/
  floor : Option Int
  /-- first sample of the unbroken run of gated hops, and the power state there; a change of state since -/
  onset : Option (Nat × Nat)
  onsetChanged : Bool
  /-- the power state at the start of the hop (R486) -/
  hopState : Nat
  cand : Option Cand
  session : Option Session
  /-- blocks of microphone i at ring position q, key 625·i + q; and the encoders -/
  blocks : Tbl AudBlock
  enc : Tbl AudEnc
  /-- the wake chain of each microphone -/
  chains : Tbl Chain
  /-- the last 25 ms of the recogniser's input, oldest first, and the features of the last 15 hops, newest first (R480) -/
  window : List Int
  features : List (List Int)
  deriving DecidableEq, Repr

/-- A group after power-on, its mute land reading low (R470). -/
def AudGroup.reset : AudGroup :=
  { cfg := 0x00FF1600, live := 0x00FF1600, wakeCfg := 0x001E0009, wake := 0x001E0009, indCfg := 4, ind := 4, landLow := true, muted := true, settling := false,
    clock := false, power := false, lit := false, chainOff := false, s := 0, warm := 0, floor := none, onset := none,
    onsetChanged := false, hopState := 0, cand := none, session := none, blocks := [], enc := [], chains := [],
    window := [], features := [] }

/-- A record of the wake queue (R488): its 64 bytes, the OWNER, whether it has been delivered. -/
structure WakeRec where
  raw : List Byte
  owner : Nat
  delivered : Bool
  deriving DecidableEq, Repr

/-- A live stream (R492). -/
structure AudStream where
  group : Nat
  fn : Nat
  part : Nat
  gen : Nat
  base : Nat
  slots : Nat
  slotBytes : Nat
  frameSync : Nat
  releaseSync : Nat
  /-- slots that have come, slots written, 1 plus the number of the last one written -/
  started : Nat
  written : Nat
  recorded : Nat
  /-- the stream chain of each microphone -/
  chains : Tbl Chain
  deriving DecidableEq, Repr

/-- A Rustle trigger (R59, R60): the function its event goes to, its record, and whether the record stands in the wake queue (a phrase or
siren) or not (motion). -/
structure Trigger where
  owner : Nat
  record : List Byte
  phrase : Bool
  deriving DecidableEq, Repr

/-- Cameras, ISP and audio. -/
structure Media where
  ports : Tbl Port
  fsync : Tbl FsyncSrc
  /-- started contexts 0 to 15; the default context of port p under 16 + p -/
  ctxs : Tbl CamCtx
  pipes : Tbl Pipe
  /-- profile slots and port map of the non-volatile store, and a profile being written: slot and bytes so far -/
  profiles : Tbl (List Byte)
  portMap : List Byte
  staging : Option (Nat × List Byte)
  groups : Tbl AudGroup
  /-- the capture epoch (Table 10.9) -/
  epoch : Nat
  /-- wake events since the epoch -/
  eventNo : Nat
  /-- the stored audio configuration (R467) -/
  stored : Option (List Byte)
  wakes : List WakeRec
  wakesLost : Nat
  streams : List AudStream
  /-- a recogniser image that waits for a hop boundary without candidates: SVN and digest (R481) -/
  nextImage : Option (Nat × List Byte)
  /-- triggers on their way to IOD.PWR, and those that have reached it and whose event waits for its link, both in the order in which they
  fired (R60) -/
  triggers : List Trigger
  due : List Trigger
  /-- what status registers of the ISP block read while their pipe's domain is off: CONTEXTS of pipe p under p, ISP_CTX_FRAME of context c
  under 16 + c (R56) -/
  shown : Tbl Nat
  deriving DecidableEq, Repr

def Media.reset : Media :=
  { ports := [], fsync := [], ctxs := [], pipes := [], profiles := [], portMap := List.replicate 64 0, staging := none,
    groups := [], epoch := 0, eventNo := 0, stored := none, wakes := [], wakesLost := 0, streams := [], nextImage := none, triggers := [],
    due := [], shown := [] }

def Media.port (m : Media) (p : Nat) : Port := Tbl.get Port.reset m.ports p
def Media.setPort (m : Media) (p : Nat) (x : Port) : Media := { m with ports := Tbl.set Port.reset m.ports p x }
def Media.pipe (m : Media) (p : Nat) : Pipe := Tbl.get Pipe.reset m.pipes p
def Media.setPipe (m : Media) (p : Nat) (x : Pipe) : Media := { m with pipes := Tbl.set Pipe.reset m.pipes p x }
def Media.group (m : Media) (g : Nat) : AudGroup := Tbl.get AudGroup.reset m.groups g
def Media.setGroup (m : Media) (g : Nat) (x : AudGroup) : Media := { m with groups := Tbl.set AudGroup.reset m.groups g x }
def Media.cam (m : Media) (c : Nat) : Option CamCtx := Tbl.find m.ctxs c
def Media.setCam (m : Media) (c : Nat) (x : CamCtx) : Media := { m with ctxs := Tbl.put m.ctxs c x }
def Media.delCam (m : Media) (c : Nat) : Media := { m with ctxs := Tbl.del m.ctxs c }

/-- The pipe a context runs on now: that of its oldest frame (R455). -/
def CamCtx.on (x : CamCtx) : Nat := match x.frames with
  | f :: _ => f.watch.getD x.pipe
  | [] => x.watch.getD x.pipe

/-- A context goes on with the motion watch of a group and a pipe: it has MOTION = 1 and its port lies in the group (R455). -/
def CamCtx.keeps (x : CamCtx) (watch : Option (Nat × Nat)) : Bool :=
  match watch with
  | some (g, _) => !x.dflt && bit (fld x.raw 0 4) 15 && x.port / 4 == g
  | none => false

/-- The receiver has not yet written the last raw line of the context's open frame (R411): HEIGHT is bits 29:16 of the profile. -/
def CamCtx.rawLeft (x : CamCtx) : Bool := match x.frames.getLast? with
  | some f => decide (f.rows < fldBits x.profile 0 29 16)
  | none => false

/-- A frame whose last raw line is still to come is open in a receiver, or a pipe holds a frame between its first unit and its last
record, other than those of contexts that go on with the watch (ISP_FRAME_OPEN, R411, R435, R456). -/
def Media.frameOpen (m : Media) (watch : Option (Nat × Nat)) : Bool :=
  m.ctxs.any (fun e => (e.2.isOpen && !e.2.dropping && e.2.rawLeft && !e.2.keeps watch) ||
    (!(e.2.keeps watch && watch.map (·.2) == some e.2.on) && e.2.frames.any (fun f => f.begun)))

/-- A group has an open phrase candidate (AFE_PHRASE, R489). -/
def Media.phraseOpen (m : Media) : Bool := (m.group 0).cand.isSome || (m.group 1).cand.isSome

/-- The CMD_CONTEXT of the camera context that a camera command record names, if it runs (Table 9.5). -/
def Media.cmdContext (m : Media) (raw : List Byte) : Option Nat :=
  match m.cam (fldBits raw 0 11 8) with
  | some x => some (fldBits x.raw 0x14 11 0)
  | none => none

/-- The contexts that name a pipe (Table 18.14). -/
def Media.naming (m : Media) (p : Nat) : Nat := (m.ctxs.filter (fun e => decide (e.1 < 16) && e.2.pipe == p)).length

/-- FRAME_NO of a context's latest frame start (R409). -/
def CamCtx.frameNo (x : CamCtx) : Nat := (x.started - 1) % 2 ^ 32

/-- The pipes but the one of the watch turn off, and the contexts that do not go on with the watch: their status registers keep what
they read now (R56). -/
def Media.showPipes (m : Media) (watch : Option (Nat × Nat)) : Media :=
  let pipes := (List.range 4).filter (fun p => watch.map (·.2) != some p)
  let t := pipes.foldl (fun t p => if (Tbl.find t p).isSome || m.naming p == 0 then t else Tbl.put t p (m.naming p)) m.shown
  { m with shown := m.ctxs.foldl (fun t e =>
      if 16 ≤ e.1 ∨ e.2.suspended = true ∨ e.2.keeps watch = true then t else Tbl.put t (16 + e.1) e.2.frameNo) t }

/-- A context starts on a pipe, whose domain is on: its status registers are live again (R56). -/
def Media.unshow (m : Media) (p c : Nat) : Media := { m with shown := Tbl.del (Tbl.del m.shown p) (16 + c) }

/-- A pipe gives up the unit of a context that is gone. -/
def Media.freePipes (m : Media) : Media :=
  (List.range 4).foldl (fun m p =>
    match (m.pipe p).run with
    | some u => if (m.cam u.ctx).isNone then m.setPipe p { m.pipe p with run := none, held := none } else m
    | none => m) m

/-- The camera contexts and audio streams of a partition stop at once (R457). -/
def Media.clearPart (m : Media) (p : Nat) : Media :=
  Media.freePipes { m with
    ports := m.ports.map (fun e => (e.1, { e.2 with queue := e.2.queue.filter (fun q => !(q.part == p)) })),
    ctxs := m.ctxs.filter (fun e => e.2.dflt || !(e.2.part == p)), streams := m.streams.filter (fun x => !(x.part == p)) }

end Sys2Proof.Machine
end

