-- ==== Sys2Proof/Machine/StateTrust.lean ====
section
/-!
DEFINITION. The state of stacked memory's controllers (chapter 07) and of the root of trust (chapter 15).
-/
namespace Sys2Proof.Machine

/-- A granule request that a controller slice holds: its partition and generation, direction, place, data and what the stack will
deliver, in the traffic class of its direction (R300, R301, R303, R701). -/
structure GranuleReq where
  part : Nat
  gen : Nat
  write : Bool
  addr : Nat
  len : Nat
  data : List Byte
  ecc : Nat
  cls : Nat
  /-- the function whose BAR2 read it serves -/
  bar : Option Nat := none
  deriving DecidableEq, Repr

/-- Stacked memory and its controllers. -/
structure Mem where
  /-- groups in sliced mode (R297) -/
  sliced : Tbl Bool
  /-- stacks that serve requests; an unlisted stack is in self-refresh or off (R298) -/
  stackOn : Tbl Bool
  /-- last reported temperature of a stack in °C, unlisted before its first report of a start (R303, Table 14.5) -/
  temp : Tbl Int
  /-- postponed refreshes per pseudo-channel, key 32·stack + channel (R302) -/
  postponed : Tbl Nat
  /-- pseudo-channels with a swap waiting for the refresh boundary (R302, R701) -/
  swapPending : Tbl Bool
  /-- the page whose row is under repair, where the open swap is of a row and not of the whole pseudo-channel (R701) -/
  rowRepair : Tbl (List (Nat × Nat))
  /-- requests that wait at their slices, oldest first (R300, R303, R701) -/
  held : List GranuleReq
  /-- generation and memory key slot under which a page's lines were last scrubbed: 64·generation + slot + 1 (R308) -/
  pageKey : Tbl Nat
  /-- memory key registers of the compute dies, key 64·die + slot: data key, then tweak key (R644, R645) -/
  keyRegs : Tbl (List Byte)
  deriving DecidableEq, Repr

def Mem.reset : Mem := { sliced := [], stackOn := [], temp := [], postponed := [], swapPending := [], rowRepair := [], held := [], pageKey := [], keyRegs := [] }

/-- A weight slot of a partition: content key and package (R664, R666). -/
structure WeightKey where
  key : List Byte
  package : List Byte
  deriving DecidableEq, Repr

/-- An export binding of a partition (R668, R669). -/
structure Binding where
  slot : Nat
  number : Nat
  counter : Nat
  key : List Byte
  deriving DecidableEq, Repr

/-- An open release entry (Table 15.11). -/
structure Release where
  reqId : Nat
  fn : Nat
  part : Nat
  gen : Nat
  rand : List Byte
  deriving DecidableEq, Repr

/-- A mailbox command that the root of trust has accepted: CODE, ARG, SEC_MBOX_LEN and the buffer that SEC_MBOX_PTR named (R646, R648). -/
structure MboxCmd where
  code : Nat
  arg : Nat
  len : Nat
  buffer : Nat
  deriving DecidableEq, Repr

/-- A function's mailbox registers (Tables 15.3 to 15.5). A command runs to its end as one event, so GO and BUSY read 0
between events. -/
structure Mbox where
  code : Nat
  ptrLo : Word
  ptrHi : Word
  len : Word
  arg : Word
  done : Bool
  result : Half
  /-- the command that is queued or running: BUSY (R648) -/
  run : Option MboxCmd
  /-- commands that a reset of the function met, which run to their end inside the root of trust (R649) -/
  lost : List MboxCmd
  deriving DecidableEq, Repr

def Mbox.reset : Mbox :=
  { code := 0, ptrLo := 0, ptrHi := 0, len := 0, arg := 0, done := false, result := 0, run := none, lost := [] }

/-- The root of trust (chapter 15). Its fused constants that never change stand in Config. -/
structure Trust where
  /-- IDENTITY_OK (R643) -/
  identityOk : Bool
  /-- REVOKE fuses, and the fuse pairs of FW_SVN and RECOG_SVN, one fuse of each pair in either word (Table 15.1) -/
  revoke : Nat
  fwFuse : BitVec 64 × BitVec 64
  recogFuse : BitVec 32 × BitVec 32
  /-- REVOKE, FW_SVN and RECOG_SVN as step 3 of Stage A copied them (R31, R639) -/
  copied : Nat × Nat × Nat
  /-- SCOPE of the unlock token in force for this start, none when locked (R672, R673) -/
  scope : Option Nat
  /-- an accepted token that takes effect at the next start (R672) -/
  token : Option Nat
  nonce : Option (List Byte)
  mbox : Tbl Mbox
  releases : List Release
  /-- REQ_ID of the next release entry, from 1 per start (Table 15.11) -/
  nextReq : Nat
  weightKeys : Tbl WeightKey
  bindings : Tbl Binding
  /-- count of bindings ever made, in the non-volatile store (R668) -/
  bindingCount : Nat
  /-- the running firmware image: SVN, VERSION and the digest of measurement 3 (Table 15.9) -/
  runSvn : Nat
  runVersion : Nat
  runDigest : List Byte
  /-- the recogniser image: SVN and digest of measurement 5 -/
  recogImageSvn : Nat
  recogDigest : List Byte
  /-- digest of the link record, port map and camera profiles read at Stage A (measurement 6) -/
  setupDigest : List Byte
  /-- session key registers of the D2D domains, key 8·domain + 2·link + direction with domain 0 and 1 the compute dies' and 2 the IOD's
  (R645, R658) -/
  d2dKeys : Tbl (List Byte)
  /-- weight key registers of the clusters' tile movers, key 64·cluster + slot (R645) -/
  clKeys : Tbl WeightKey
  /-- packet counters of the UCIe links, key 2·link + direction (R658) -/
  d2dCount : Tbl Nat
  /-- tag failures of a link within the running millisecond (R659) -/
  d2dFails : Tbl Nat
  deriving DecidableEq, Repr

def Trust.reset : Trust :=
  { identityOk := false, revoke := 0, fwFuse := (0, 0), recogFuse := (0, 0), copied := (0, 0, 0), scope := none, token := none, nonce := none, mbox := [],
    releases := [], nextReq := 1, weightKeys := [], bindings := [], bindingCount := 0, runSvn := 0, runVersion := 0,
    runDigest := List.replicate 32 0, recogImageSvn := 0, recogDigest := List.replicate 32 0,
    setupDigest := List.replicate 32 0, d2dKeys := [], clKeys := [], d2dCount := [], d2dFails := [] }

/-- Steps of an anti-rollback counter: the pairs of which either fuse reads blown (R640). -/
def fuseSteps {w : Nat} (x : BitVec w × BitVec w) : Nat := (List.range w).countP (fun i => x.1.getLsbD i || x.2.getLsbD i)

/-- Both fuses of the lowest n pairs are blown (R653, Table 15.1). -/
def blowPairs {w : Nat} (x : BitVec w × BitVec w) (n : Nat) : BitVec w × BitVec w :=
  (x.1 ||| BitVec.ofNat w (2 ^ n - 1), x.2 ||| BitVec.ofNat w (2 ^ n - 1))

/-- The anti-rollback counters (Table 15.1). -/
def Trust.fwSvn (t : Trust) : Nat := fuseSteps t.fwFuse
def Trust.recogSvn (t : Trust) : Nat := fuseSteps t.recogFuse

end Sys2Proof.Machine
end

