-- ==== Sys2Proof/Machine/StatePower.lean ====
section
/-!
DEFINITION. The state of the power manager, the energy ledger, the start sequence and the Windfall image
(chapters 13, 14, 17 and 18).
-/
namespace Sys2Proof.Machine

/-- A kind of the energy predictor: PROGRAM, number of cores, and its last 64 pairs of measured and stated energy in µJ,
newest first, and its number among the kinds ever entered (R597). -/
structure Kind where
  program : Nat
  cores : Nat
  hist : List (Nat × Nat)
  born : Nat
  deriving DecidableEq, Repr

/-- The energy ledger (R589 to R597). Amounts are in units of 1/1,024 µJ (R376). -/
structure Ledger where
  /-- PWR_LEDGER_CFG WINDOW_MS and PWR_ALLOWANCE as last written (Tables 13.9 and 13.10) -/
  windowMs : Nat
  allowance : Word
  /-- WINDOW_NO (Table 13.11) -/
  windowNo : Nat
  /-- length and allowance of the window in force -/
  curMs : Nat
  curA : Nat
  /-- avail_f and C; avail of an unlisted function is 0 -/
  avail : Tbl Nat
  pool : Int
  hold : Bool
  /-- debits charged in the window -/
  debited : Nat
  /-- bytes that each partition had moved when the window began (R376) -/
  movedAt : Tbl Nat
  /-- partitions that have ended in the window: identifier, function, bytes moved in it (R376) -/
  gone : List (Nat × Nat × Nat)
  /-- debits of shared domains that the window's end credits (R376) -/
  sharedDue : Nat
  /-- kinds of the predictor, most recently seen first, at most 1,024 -/
  kinds : List Kind
  /-- kinds ever entered -/
  births : Nat
  /-- fractions of accounting counters in 1/1,024 µJ, keys as Work.acct -/
  frac : Tbl Nat
  /-- energy of the reservations that have lapsed at a window's end, in 1/1,024 µJ: what the rule removes it counts (R593, R676) -/
  lapsed : Nat
  /-- descriptors that have begun to wait, for their order (R592) -/
  waits : Nat
  deriving DecidableEq, Repr

/-- The ledger before the first window: Cold register values (Tables 13.9 to 13.11). -/
def Ledger.reset : Ledger :=
  { windowMs := 10, allowance := 0x00401640, windowNo := 0, curMs := 10, curA := 0, avail := [], pool := 0, hold := false,
    debited := 0, movedAt := [], gone := [], sharedDue := 0, kinds := [], births := 0, frac := [], lapsed := 0, waits := 0 }

/-- A host state request (R576): the reply it is owed, its target, its timeout in ms, and the refusers already counted
against it (R575). -/
structure StateReq where
  owed : Nat
  target : Nat
  timeout : Nat
  counted : List Nat
  deriving DecidableEq, Repr

/-- A committed entry to a lower state or a rise under way (R576, R579): its target, the request it answers, none for a rise of the
cascade (R600), and whether its domains are up while the firmware has still to resume (R583). -/
structure Transit where
  target : Nat
  req : Option StateReq
  powered : Bool := false
  deriving DecidableEq, Repr

/-- An escalation of the cascade (R599 to R603): tier 1 Glade, 2 Grove, 3 Stand; the OWNER of its trigger for Glade. -/
structure Escal where
  tier : Nat
  owner : Nat
  windows : Nat
  admitted : Bool
  /-- what is left of its reservation, the part taken from C, and whether the reservation is open -/
  resLeft : Nat
  resC : Nat
  resOpen : Bool
  deriving DecidableEq, Repr

/-- The thermal guard (R588): the stage, the hottest junction, and numbers of consecutive 100 µs samples. -/
structure Thermal where
  stage : Nat
  junction : Int
  /-- samples at 115 °C or more -/
  hot : Nat
  /-- samples with a stack at 105 °C or more -/
  stackHot : Nat
  /-- samples in stage 1 with every non-REALTIME core at 320 MHz -/
  floor : Nat
  /-- samples since the last step down -/
  sinceStep : Nat
  /-- samples below 100 °C -/
  cool : Nat
  /-- stage 4 was entered and the hottest junction has not since stood below 95 °C: every rise is refused -/
  lock : Bool
  /-- clock point the guard allows a core, 3 when unlisted -/
  point : Tbl Nat
  deriving DecidableEq, Repr

def Thermal.reset : Thermal :=
  { stage := 0, junction := 0, hot := 0, stackHot := 0, floor := 0, sinceStep := 0, cool := 0, lock := false, point := [] }

/-- A hold-up bank (Table 14.7): STATE, ESR in mΩ, capacitance in µF. -/
structure Bank where
  state : Nat
  esr : Nat
  cap : Nat
  deriving DecidableEq, Repr

def Bank.reset : Bank := { state := 0, esr := 0, cap := 0 }

/-- An unconsumed Windfall image (Tables 14.9 and 14.10). Section 7 is held as its declaration: the bytes belong to the
firmware. -/
structure Image where
  /-- the 256-byte header, SEAL included (Table 14.9) -/
  header : List Byte
  saveNo : Nat
  cause : Nat
  state : Nat
  goodBanks : Nat
  fwVersion : Nat
  saveTime : Nat
  /-- section 0: PWR_CFG, PWR_LEDGER_CFG, PWR_ALLOWANCE, open debits, accounting counters and their fractions -/
  pwrCfg : Word
  windowMs : Nat
  allowance : Word
  debits : Nat
  acct : Tbl Nat
  frac : Tbl Nat
  /-- section 1; absent in a save from Dormant (R628) -/
  sync : SyncUnit
  /-- section 2: ACTIVE contexts -/
  ctxs : Tbl Ctx
  /-- section 3: FN block, partitions, generations, key slots with them, serving, attention, streams, tiers, pairs,
  Clearings, group modes, firmware area -/
  fns : Tbl Fn
  groupOwner : Tbl Nat
  groupRefused : Tbl Bool
  parts : Tbl Part
  gens : Tbl Nat
  serving : Tbl Serving
  attn : Tbl AttnReg
  streams : Tbl WStream
  tiers : Tbl (List Byte)
  pairs : Tbl Pair
  clearings : Tbl ClearingJob
  sliced : Tbl Bool
  fwArea : Option (Nat × Nat)
  /-- section 4 -/
  seqs : Tbl SeqEntry
  /-- section 5: the spare map's changes that the store had not taken, none, for each is stored as it is made (R704) -/
  spares : List SpareRec
  /-- section 6: the entry of this save (R632) -/
  log : List ErrEntry
  /-- section 7: the declared region's length, 0 when none -/
  fwLength : Nat
  /-- owners of the partitions with a Minuet save or restore open at step 1, one for each (Table 14.12) -/
  minuets : List Nat
  deriving DecidableEq, Repr

/-- An FW_LOAD taken before Stage B was complete, which Stage C begins with: its request, payload, the host's answer and whether the firmware
can use section 7 (R614, log entry 196). -/
structure EarlyLoad where
  num : Nat
  raw : List Byte
  host : HostRead
  takes : Bool
  deriving DecidableEq, Repr

/-- The firmware (R707 to R712). -/
structure Firmware where
  /-- step 6 of Table 14.3 has passed and the firmware has not been lost since (R616, R708) -/
  running : Bool
  /-- outcome of the last FW_LOAD of this start -/
  outcome : Option Status
  /-- FW_GROUP and FW_GROUPS of the accepted load (R709) -/
  area : Option (Nat × Nat)
  /-- the areas of the loads accepted before it since the start, whose pages stay withheld (R709) -/
  areas : List (Nat × Nat)
  /-- the Windfall region declared through the internal mailbox: offset, length, FW_VERSION (R630) -/
  region : Option (Nat × Nat × Nat)
  /-- a load that waits for the end of Stage B -/
  early : Option EarlyLoad
  deriving DecidableEq, Repr

def Firmware.reset : Firmware := { running := false, outcome := none, area := none, areas := [], region := none, early := none }

/-- The power manager and the start sequence. -/
structure Power where
  /-- AON is powered (R53); the last power-down ended a save or a power-down without one (R606) -/
  aon : Bool
  saved : Bool
  /-- START_NO: starts since manufacture (R658) -/
  startNo : Nat
  /-- Windfall saves since manufacture (Table 14.9) -/
  saveNo : Nat
  /-- step 8 of Stage A has passed; the self-check of step 3 failed (R607, R610) -/
  stageADone : Bool
  aFault : Bool
  /-- GLB_START (Table 14.4) -/
  stage : Nat
  bFault : Bool
  /-- Stage B has its memory and ports up and waits for the default contexts' first frames (Table 14.2 steps 5 and 6) -/
  bOpen : Bool
  restore : Nat
  dormantExit : Bool
  /-- GLB_SAFE and GLB_FAULT (Tables 18.5 and 18.6) -/
  safeLow : Bool
  safeCause : Nat
  faultLow : Bool
  faultCause : Nat
  /-- WAKE_N is driven low (R581, R602) -/
  wakeLow : Bool
  /-- the power state in force: 0 Dormant to 4 Canopy (Table 18.8) -/
  state : Nat
  /-- powered switched domains by the index of their first island (Tables 1.5 and 1.6); the cores' and clusters' with them -/
  on : Tbl Bool
  /-- PWR_CFG with its REFUSED bit (Table 13.2) -/
  cfg : Word
  /-- the motion watch as PWR_CFG gave it at the last entry to Seed: A-PHY group and ISP pipe (R570) -/
  watch : Option (Nat × Nat)
  /-- the length of the retention image in the firmware area and its digest in AON (R571) -/
  retained : Option (Nat × List Byte)
  /-- the sections that the retention image holds, from which a save in Seed copies them (R627) -/
  kept : Option Image
  /-- FIRMWARE_LOST has been raised since the last firmware load (R572) -/
  fwLost : Bool
  /-- FIRMWARE_LOST is due to PF0 on the first link that trains (R572) -/
  fwLostDue : Bool
  /-- partitions ended by an entry to Dormant, for DORMANT_EXIT (R573) -/
  ended : List Nat
  /-- PWR_REFUSALS (Table 13.4) -/
  refusals : Tbl Word
  /-- the pending request, the entry or rise under way, and the requests that wait for its end (R576, R603) -/
  pending : Option StateReq
  transit : Option Transit
  waiting : List StateReq
  ledger : Ledger
  thermal : Thermal
  /-- tier records (Table 13.12), ESC_SYNC values seen, and escalations in the order they were raised -/
  tiers : Tbl (List Byte)
  escSeen : Tbl Word
  escals : List Escal
  /-- hold-up banks, those good at the start (Table 11.16), their voltage in 0.1 V, whether Windfall is armed (Tables 14.6 and 14.7) -/
  banks : Tbl Bank
  startBanks : Nat
  bankV : Nat
  armed : Bool
  /-- the unconsumed Windfall image of the non-volatile store -/
  image : Option Image
  fw : Firmware
  /-- the stored link record (R494) -/
  linkRec : Option (List Byte)
  deriving DecidableEq, Repr

def Power.reset : Power :=
  { aon := false, saved := false, startNo := 0, saveNo := 0, stageADone := false, aFault := false, stage := 0, bFault := false, bOpen := false, restore := 0,
    dormantExit := false, safeLow := true, safeCause := 1, faultLow := false, faultCause := 0, wakeLow := false, state := 0,
    on := [], cfg := 0x6400, watch := none, retained := none, kept := none, fwLost := false, fwLostDue := false, ended := [], refusals := [], pending := none,
    transit := none, waiting := [], ledger := Ledger.reset, thermal := Thermal.reset, tiers := [], escSeen := [], escals := [],
    banks := [], startBanks := 0, bankV := 0, armed := false, image := none, fw := Firmware.reset, linkRec := none }

end Sys2Proof.Machine
end

