-- ==== Sys2Proof/Machine/State.lean ====
section
/-!
DEFINITION. The state of the module as plain data, and the state right after reset.
-/
namespace Sys2Proof.Machine

/-- A reason the machine stops with a fault. No rule of the manual stops the module: every error is state. -/
inductive Fault where
  /-- raised by nothing: kept so that the type has a value to name; safe -/
  | none
  deriving DecidableEq, Repr

/-- A command the model gives no meaning. -/
inductive Refusal where
  /-- raised by the arm of a command that is not modelled yet; safe -/
  | notModelled (mnemonic : String)
  deriving DecidableEq, Repr

structure State where
  /-- commands waiting, first in, first out -/
  pending : List Instr
  cpu : Cpu
  work : Work
  host : HostSide
  errs : Errs
  pwr : Power
  mem : Mem
  trust : Trust
  media : Media
  /-- device memory by device physical address (Table 4.7) -/
  dmem : List Host.Cell
  /-- ranges of device memory whose unwritten bytes are undefined, newest first -/
  undef : List FreeRange
  /-- poisoned 64-bit words, key address / 8 (R312, R316) -/
  poison : Tbl Bool
  /-- free values drawn so far (the model's own counter) -/
  draws : Nat
  /-- what the module has sent, newest first (the model's own record) -/
  sent : List Out
  deriving DecidableEq, Repr

def State.reset : State :=
  { pending := [], cpu := Cpu.reset, work := Work.reset, host := HostSide.reset, errs := Errs.reset, pwr := Power.reset, mem := Mem.reset, trust := Trust.reset, media := Media.reset, dmem := [], undef := [], poison := [], draws := 0, sent := [] }

end Sys2Proof.Machine
end

