-- ==== Sys2Proof/Machine/Ops.lean ====
section
/-!
DEFINITION. The named operations every family is written over: cores, clusters, memory with poison, sync objects,
partitions and their grants.
-/
namespace Sys2Proof.Machine

/-- The outcome type of the model. -/
abbrev Res := Host.Outcome State Fault Refusal

/-! Accessors. -/

def State.core (s : State) (n : Nat) : Core := Tbl.get Core.reset s.cpu.cores n

def State.setCore (s : State) (n : Nat) (c : Core) : State :=
  { s with cpu := { s.cpu with cores := Tbl.set Core.reset s.cpu.cores n c } }

def State.cluster (s : State) (k : Nat) : Cluster := Tbl.get Cluster.reset s.cpu.clusters k

def State.setCluster (s : State) (k : Nat) (c : Cluster) : State :=
  { s with cpu := { s.cpu with clusters := Tbl.set Cluster.reset s.cpu.clusters k c } }

def State.setSync (s : State) (u : SyncUnit) : State := { s with cpu := { s.cpu with sync := u } }

def State.setPost (s : State) (u : PostUnit) : State := { s with cpu := { s.cpu with post := u } }

def State.part (s : State) (p : Nat) : Option Part := Tbl.find s.work.parts p

def State.setPart (s : State) (p : Nat) (x : Part) : State :=
  { s with work := { s.work with parts := Tbl.put s.work.parts p x } }

/-- The function a partition's work is charged to. -/
def State.partFn (s : State) (p : Nat) : Nat := match s.part p with
  | some x => x.fn
  | none => 0

/-- The current generation of a partition identifier (R557). -/
def State.gen (s : State) (p : Nat) : Nat := Tbl.get 0 s.work.gens p

def State.ctx (s : State) (n : Nat) : Ctx := Tbl.get Ctx.reset s.work.ctxs n

def State.setCtx (s : State) (n : Nat) (c : Ctx) : State :=
  { s with work := { s.work with ctxs := Tbl.set Ctx.reset s.work.ctxs n c } }

def State.emit (s : State) (o : Out) : State := { s with sent := o :: s.sent }

/-- Island index of a core, a cluster and a stack's controller (R678). -/
def coreIsland (n : Nat) : Nat := n / 64 * 84 + n / 8 % 8 * 9 + n % 8
def clusterIsland (k : Nat) : Nat := k / 8 * 84 + 72 + k % 8
def stackIsland (st : Nat) : Nat := st / 2 * 84 + 81 + st % 2

/-! Switched domains (Tables 1.5 and 1.6). -/

/-- A switched domain is on; domains are named by the index of their first island. -/
def State.domainOn (s : State) (i : Nat) : Bool := Tbl.get false s.pwr.on i

def State.setDomain (s : State) (i : Nat) (v : Bool) : State := { s with pwr := { s.pwr with on := Tbl.set false s.pwr.on i v } }

def State.coreOn (s : State) (n : Nat) : Bool := s.domainOn (coreIsland n)

/-! Memory with poison (R307, R312 to R317). -/

/-- First DPA past stacked memory (Table 4.7). -/
def stackedEnd : Nat := 0x2000000000

/-- The DPA of a cluster's store (Table 4.7). -/
def clusterBase (k : Nat) : Nat := 0x4000000000 + k * 0x1000000

/-- The DPA of a core's store (Table 4.7). -/
def coreBase (n : Nat) : Nat := 0x4010000000 + n * 0x200000

/-- Bytes of a core store and of a cluster store (R66, R109). -/
def coreStoreBytes : Nat := 0x200000
def clusterStoreBytes : Nat := 0x1000000

/-- The unit of poison at an address: a 64-byte line of stacked memory, a 64-bit word of a store (R312, R316). -/
def poisonUnit (a : Nat) : Nat := if a < stackedEnd then 64 else 8

/-- The stack a granule lies in (R296): `sliced` is the mode of its group. -/
def granulePlace (sliced : Bool) (a : Nat) : Nat × Nat × Nat :=
  let g := bits a 36 23
  let i := bits a 22 8
  if sliced then
    let ch := bits i 4 0 ^^^ bits i 9 5 ^^^ bits i 12 10 ^^^ bits g 4 0 ^^^ bits g 9 5 ^^^ bits g 13 10
    (bits i 14 13, ch, g * 65536 + bits i 12 5 * 256 + bits a 7 0)
  else
    let pc := bits i 6 0 ^^^ bits i 13 7 ^^^ bits i 14 14 ^^^ bits g 6 0 ^^^ bits g 13 7
    (bits pc 6 5, bits pc 4 0, g * 65536 + bits i 14 7 * 256 + bits a 7 0)

/-- The group of an address is in sliced mode (R297). -/
def State.slicedAt (s : State) (a : Nat) : Bool := Tbl.get false s.mem.sliced (a / 0x800000)

/-- The stack that holds an address (R296). -/
def State.stackOf (s : State) (a : Nat) : Nat := (granulePlace (s.slicedAt a) a).1

/-- The channel key of a stacked address, 32·stack + channel (R296). -/
def State.channelOf (s : State) (a : Nat) : Nat :=
  let g := granulePlace (s.slicedAt a) a
  32 * g.1 + g.2.1

/-- The 256-byte granules a range touches, by the address of each. -/
def granulesOf (a n : Nat) : List Nat := (rangeFrom (a / 256) ((a + n + 255) / 256 - a / 256)).map (· * 256)

/-- A stacked range touches a pseudo-channel that has failed and has no spare: its slice answers every request with poison (R703). -/
def State.deadHit (s : State) (a n : Nat) : Bool :=
  !s.errs.deadSlices.isEmpty && decide (a < stackedEnd) && n != 0 &&
    (granulesOf a n).any (fun g => Tbl.get false s.errs.deadSlices (s.channelOf g))

/-- A range touches a retired page, which stays poisoned (R703). -/
def State.retiredHit (s : State) (a n : Nat) : Bool :=
  n != 0 && s.errs.retiredPages.any (fun e => e.2 && decide (a < (e.1 + 1) * 0x200000) && decide (e.1 * 0x200000 < a + n))

/-- A range of device memory reads as poison: a unit of it is poisoned, or lies in a failed pseudo-channel or a retired page (R314, R316,
R317, R703). -/
def State.poisoned (s : State) (a n : Nat) : Bool :=
  s.poison.any (fun e => e.2 && decide (a / 8 ≤ e.1) && decide (e.1 * 8 < a + n)) || s.deadHit a n || s.retiredHit a n

/-- Read n bytes of device memory. -/
def State.readMem (s : State) (a n : Nat) : List Byte := Memory.readN s.undef s.dmem a n

/-- Mark every poison unit a range touches. -/
def State.setPoison (s : State) (a n : Nat) : State :=
  let g := poisonUnit a
  let lo := a / g * g / 8
  let hi := (a + n + g - 1) / g * g / 8
  { s with poison := (rangeFrom lo (hi - lo)).foldl (fun t k => Tbl.set false t k true) s.poison }

/-- Remove the poison of a range of whole units. -/
def State.clearPoison (s : State) (a n : Nat) : State :=
  { s with poison := s.poison.filter (fun e => !(decide (a / 8 ≤ e.1) && decide (e.1 * 8 < a + n))) }

/-- The part of a write that falls into poison unit q: a poisoned unit takes the write only when the write covers
the whole unit, which then loses its poison (R314). -/
def State.writeUnit (s : State) (g a : Nat) (bs : List Byte) (q : Nat) : State :=
  let lo := max a (q * g)
  let hi := min (a + bs.length) ((q + 1) * g)
  let data := (bs.drop (lo - a)).take (hi - lo)
  if s.poisoned (q * g) g then
    (if hi - lo = g then { s.clearPoison (q * g) g with dmem := Memory.writeN s.undef s.dmem lo data } else s)
  else { s with dmem := Memory.writeN s.undef s.dmem lo data }

/-- Write bytes to device memory (R307, R310, R314). -/
def State.writeMem (s : State) (a : Nat) (bs : List Byte) : State :=
  if s.poison.isEmpty then { s with dmem := Memory.writeN s.undef s.dmem a bs }
  else
    let g := poisonUnit a
    (rangeFrom (a / g) ((a + bs.length + g - 1) / g - a / g)).foldl (fun s q => s.writeUnit g a bs q) s

/-- Write bytes that carry poison: the bytes land and their units are poisoned (R315). -/
def State.writePoison (s : State) (a : Nat) (bs : List Byte) : State :=
  ({ s with dmem := Memory.writeN s.undef s.dmem a bs } : State).setPoison a bs.length

/-- Zero-fill a range, its poison with it (R70, R112, R671). -/
def State.zeroFill (s : State) (a n : Nat) : State :=
  { s.clearPoison a n with dmem := Memory.outside s.dmem a n, undef := s.undef.flatMap (fun f => f.cut a n) }

/-- The bytes of a range become undefined: free values until they are written (R191, R324, R354, R612). -/
def State.undefine (s : State) (a n : Nat) : State :=
  if n = 0 then s
  else
    { s with
      dmem := Memory.outside s.dmem a n, undef := { base := a, len := n, draw := s.draws } :: s.undef, draws := s.draws + 1 }

/-- The bytes of a range become padding of a tile whose zero point the move does not carry (R219, log entry 32). -/
def State.padRange (s : State) (a n : Nat) (k : Padding) : State :=
  if n = 0 then s
  else
    { s with
      dmem := Memory.outside s.dmem a n, undef := { base := a, len := n, draw := s.draws, pad := some k } :: s.undef,
      draws := s.draws + 1 }

/-- The padding in a byte that nothing has overwritten. -/
def State.padOf (s : State) (a : Nat) : Option Padding := if (Tbl.find s.dmem a).isNone then padAt s.undef a else none

/-- Bytes just written are padding where they came from padding and landed: a partial write to a poisoned unit drops them (R219, R314). -/
def State.markPads (s : State) (a : Nat) (pads : List (Option Padding)) : State :=
  ((rangeFrom a pads.length).zip pads).foldl (fun (s : State) e => match e.2 with
    | some k => if s.poisoned e.1 1 then s else s.padRange e.1 1 k
    | none => s) s

/-- Padding moves with the bytes it lies in: each byte at an address of `src` in the state before has gone to its place in `dst` (R219). -/
def State.carryPads (before : State) (src dst : List Nat) (s : State) : State :=
  if before.undef.all (fun f => f.pad.isNone) then s
  else (src.zip dst).foldl (fun (s : State) e => match before.padOf e.1 with
    | some k => if s.poisoned e.2 1 then s else s.padRange e.2 1 k
    | none => s) s

/-- What a range leaves of a gap. -/
def gapCut (r g : Nat × Nat) : List (Nat × Nat) :=
  [(g.1, min (g.1 + g.2) r.1 - g.1), (max g.1 (r.1 + r.2), g.1 + g.2 - max g.1 (r.1 + r.2))].filter (fun x => x.2 != 0)

/-- The gaps that ranges leave in the first n bytes. -/
def gapsOf (n : Nat) (rs : List (Nat × Nat)) : List (Nat × Nat) :=
  rs.foldl (fun gs r => if r.2 = 0 then gs else gs.flatMap (gapCut r)) [(0, n)]

/-- The bytes of a core store outside given ranges become undefined (R187, R354). -/
def State.keepRanges (s : State) (n : Nat) (rs : List (Nat × Nat)) : State :=
  (gapsOf coreStoreBytes rs).foldl (fun s g => s.undefine (coreBase n + g.1) g.2) s

/-! Core stores and registers. -/

def State.coreRead (s : State) (n off len : Nat) : List Byte := s.readMem (coreBase n + off) len
def State.coreWrite (s : State) (n off : Nat) (bs : List Byte) : State := s.writeMem (coreBase n + off) bs
def State.corePoisoned (s : State) (n off len : Nat) : Bool := s.poisoned (coreBase n + off) len

def Core.sreg (c : Core) (i : Nat) : Word := Tbl.get 0 c.s i
def Core.setSreg (c : Core) (i : Nat) (v : Word) : Core := { c with s := Tbl.set 0 c.s i v }
def Core.areg (c : Core) (i : Nat) : Addr48 := Tbl.get 0 c.a i
def Core.setAreg (c : Core) (i : Nat) (v : Addr48) : Core := { c with a := Tbl.set 0 c.a i v }
def Core.tdreg (c : Core) (i : Nat) : List Byte := Tbl.get (List.replicate 32 0) c.td i
def Core.setTdreg (c : Core) (i : Nat) (v : List Byte) : Core := { c with td := Tbl.set (List.replicate 32 0) c.td i v }

/-- Some engine of a core is in freeze mode: the core runs in compatibility mode, or a parity check has failed since its last
reset (R91, R103). -/
def Core.frozen (c : Core) : Bool := c.compat || !c.freeze.isEmpty

/-- The key of an accumulator word (R64). -/
def accKey (engine slot pos : Nat) : Nat := engine * 256 + slot * 16 + pos

/-- An accumulator word: as written, or 0, or a free value after a tile boundary (R65, R187). -/
def Core.accWord (c : Core) (key : Nat) : Word :=
  match Tbl.find c.acc key with
  | some w => w
  | none =>
    match c.accBase with
    | none => 0
    | some n => Config.freeLane n key

/-- A vector lane: as written, or 0, or a free value after a tile boundary (R99, R187). -/
def Core.lane (c : Core) (v lane : Nat) : Word :=
  match Tbl.find c.v (128 * v + lane) with
  | some w => w
  | none =>
    match c.vBase with
    | none => 0
    | some n => Config.freeLane n (128 * v + lane)

def Core.lanes (c : Core) (v : Nat) : List Word := (List.range 128).map (c.lane v)

/-- Write all 128 lanes of a vector register. -/
def Core.setLanes (c : Core) (v : Nat) (l : List Word) : Core :=
  { c with
    v := (List.range 128).foldl (fun t i => Tbl.put t (128 * v + i) (l.getD i 0)) c.v,
    vPad := c.vPad.filter (fun e => e.1 / 512 != v) }

/-- The bytes of a vector register that were loaded from padding are padding still (R219, R222, log entry 32). -/
def Core.setPads (c : Core) (v : Nat) (pads : List (Option Padding)) : Core :=
  { c with vPad := ((rangeFrom (512 * v) 512).zip pads).foldl (fun t e => match e.2 with
      | some k => Tbl.put t e.1 k
      | none => t) c.vPad }

/-- The padding in the bytes of a vector register. -/
def Core.pads (c : Core) (v : Nat) : List (Option Padding) := (rangeFrom (512 * v) 512).map (Tbl.find c.vPad)

/-- Note at a descriptor that one of its tiles aborted or one of its moves failed (R356). -/
def Ctx.noteStop (x : Ctx) (idx core : Nat) (st : Status) (detail0 : Nat) : Ctx :=
  { x with descs := x.descs.map (fun d => if d.idx = idx then { d with stops := d.stops ++ [(core, st, detail0)] } else d) }

/-- An SQ_TAIL value is accepted as the doorbell of an order of arrival (R344). -/
def Ctx.ring (c : Ctx) (v : Word) (order : Nat) : Ctx := { c with sqTail := v, bells := c.bells ++ [(v, order)] }

/-- Count a refusal against a refuser, saturating (R575). -/
def State.countRefusal (s : State) (r : Nat) : State :=
  let v := Tbl.get (0 : Word) s.pwr.refusals r
  { s with pwr := { s.pwr with refusals := Tbl.set 0 s.pwr.refusals r (if v = 0xFFFFFFFF then v else v + 1) } }

/-! Sync objects (R194 to R200). -/

def State.syncObj (s : State) (i : Nat) : Option SyncObj := Tbl.find s.cpu.sync.objs i

/-- A sync object is owned by a partition at its current generation (R199, R780). -/
def State.ownsSync (s : State) (p gen i : Nat) : Bool :=
  match s.syncObj i with
  | some o => o.part == p && o.gen == gen && !o.pf0 && gen == s.gen p
  | none => false

/-- A wait's condition against a value (R196). -/
def SyncWait.holds (w : SyncWait) (v : Word) : Bool :=
  if w.eq then v == w.target else decide (0 ≤ sext 32 (v - w.target).toNat)

/-- The value a sync object holds, 0 when it is not allocated. -/
def State.syncValue (s : State) (i : Nat) : Word :=
  match s.syncObj i with
  | some o => o.value
  | none => 0

def State.waitHolds (s : State) (w : SyncWait) : Bool := (s.syncObj w.sync).isSome && w.holds (s.syncValue w.sync)

/-- Release a signal towards IOD.FAB (R195); an amount of 0 is no signal. -/
def State.signal (s : State) (sync add part gen : Nat) : State :=
  if add = 0 then s
  else s.setSync { s.cpu.sync with
    flight := s.cpu.sync.flight ++ [{ sync := sync, add := add, part := part, gen := gen }]
    released := s.cpu.sync.released + 1 }

/-- The core domain of a core that waits in OFF powers up: its core store is zero-filled (R70, R585). -/
def State.modeUp (s : State) (n : Nat) : State :=
  if (s.core n).mode = 3 then (s.zeroFill (coreBase n) coreStoreBytes).setDomain (coreIsland n) true else s

/-! Partitions and their grants (R205, R335, R338). -/

/-- Add 1 to the yield object of a partition (R349). -/
def State.yieldSignal (s : State) (p : Nat) : State := match s.part p with
  | some x => s.signal x.yieldSync 1 p (s.gen p)
  | none => s

/-- A core that leaves its descriptor with a Minuet request open counts as yielded: the yield signal of its partition is added (R353,
R355), but none once a Clearing of the partition has begun (Table 8.4). -/
def State.yieldOpen (s : State) (n : Nat) : State := match (s.core n).work with
  | some w => if (s.core n).minuetReq && !((s.part w.part).elim false (·.clearing)) then s.yieldSignal w.part else s
  | none => s

def Part.ownsCore (x : Part) (n : Nat) : Bool := bit x.coreMask n

/-- The logical cores of a partition, ascending. -/
def Part.cores (x : Part) : List Nat := (List.range 128).filter (bit x.coreMask)

/-- The cores of a partition in one cluster. -/
def Part.coresIn (x : Part) (k : Nat) : List Nat := (rangeFrom (8 * k) 8).filter (bit x.coreMask)

def Part.ownsGranule (x : Part) (k j : Nat) : Bool := bit (x.granules.getD k 0) j

/-- The granules of a partition in a cluster, highest first. -/
def Part.granulesDesc (x : Part) (k : Nat) : List Nat := ((List.range 16).filter (bit (x.granules.getD k 0))).reverse

/-- The Minuet save area of a partition in a cluster (R338). -/
def Part.saveArea (x : Part) (k : Nat) : List Nat :=
  (x.granulesDesc k).take (cdiv ((x.coresIn k).length * x.save64k) 16)

def Part.ownsPage (x : Part) (pg : Nat) : Bool :=
  x.extents.any (fun e => decide (e.1 ≤ pg) && decide (pg < e.1 + e.2))

/-- Every 2 MiB page of a stacked range is granted to the partition (R205). -/
def Part.ownsStacked (x : Part) (a n : Nat) : Bool :=
  decide (a + n ≤ stackedEnd) &&
    (rangeFrom (a / 0x200000) ((a + n + 0x1FFFFF) / 0x200000 - a / 0x200000)).all x.ownsPage

/-- Every granule of a cluster-store range belongs to the partition and none is in its save area (R110, R338). -/
def Part.ownsGranules (x : Part) (k off n : Nat) : Bool :=
  decide (off + n ≤ clusterStoreBytes) &&
    (rangeFrom (off / 0x100000) ((off + n + 0xFFFFF) / 0x100000 - off / 0x100000)).all
      (fun j => x.ownsGranule k j && !(x.saveArea k).contains j)

end Sys2Proof.Machine
end

