-- ==== Sys2Proof/Machine/Operands.lean ====
section
/-!
DEFINITION. Operand forms: data types, tile descriptors and the places of a tile's parts (chapter 04, Tables 4.1
and 4.2, R171 to R179, R788), and the elements engines and the vector unit read.
-/
namespace Sys2Proof.Machine

/-- A row of Table 4.1: element bits, block bytes, the multiple of DIM_IN, the K group of tags (0 none) and the
aux plane (0 none or zero points only, 1 scale records, 2 codebooks). -/
structure TypeInfo where
  bits : Nat
  blockBytes : Nat
  mult : Nat
  kGroup : Nat
  aux : Nat
  deriving DecidableEq, Repr

/-- Table 4.1. -/
def typeInfo (code : Nat) : Option TypeInfo :=
  match code with
  | 0x01 => some ⟨8, 16, 4, 0, 0⟩
  | 0x02 => some ⟨8, 16, 4, 0, 0⟩
  | 0x03 => some ⟨4, 8, 8, 0, 0⟩
  | 0x08 => some ⟨8, 16, 4, 0, 0⟩
  | 0x09 => some ⟨8, 16, 4, 0, 0⟩
  | 0x0C => some ⟨8, 16, 32, 32, 1⟩
  | 0x0D => some ⟨6, 12, 32, 32, 1⟩
  | 0x0E => some ⟨4, 8, 32, 32, 1⟩
  | 0x10 => some ⟨16, 32, 4, 0, 0⟩
  | 0x11 => some ⟨16, 32, 4, 0, 0⟩
  | 0x12 => some ⟨32, 64, 4, 0, 0⟩
  | 0x13 => some ⟨32, 64, 4, 0, 0⟩
  | 0x18 => some ⟨2, 4, 64, 64, 2⟩
  | 0x19 => some ⟨3, 6, 64, 64, 2⟩
  | 0x1A => some ⟨4, 8, 64, 64, 2⟩
  | _ => none

/-- INT8, UINT8 and INT4. -/
def isIntType (t : Nat) : Bool := t == 1 || t == 2 || t == 3
def isMxType (t : Nat) : Bool := t == 0x0C || t == 0x0D || t == 0x0E
def isCodeType (t : Nat) : Bool := t == 0x18 || t == 0x19 || t == 0x1A

/-- The range of zero points of an integer type (R136). -/
def zpRange (t : Nat) : Int × Int :=
  if t = 2 then (0, 255) else if t = 1 then (-128, 127) else (-8, 7)

/-- A tile as its descriptor gives it (Table 4.2). -/
structure TDesc where
  base : Nat
  dimOut : Nat
  dimIn : Nat
  batch : Nat
  type : Nat
  form : Nat
  space : Nat
  zpMode : Nat
  subtype : Nat
  span : Nat
  tagBase : Nat
  zp : Nat
  aux : Nat
  pitch : Nat
  /-- a reserved bit of the descriptor is set -/
  reserved : Bool
  deriving DecidableEq, Repr

/-- The fields of a format word (Table 4.2, offset 0x10) put over given places and sizes. -/
def tdescOf (fmt tagBase base dimOut dimIn batch zp aux pitch : Nat) (reserved : Bool) : TDesc :=
  { base := base, dimOut := dimOut, dimIn := dimIn, batch := if batch = 0 then 1 else batch,
    type := bits fmt 5 0, form := bits fmt 7 6, space := bits fmt 9 8, zpMode := bits fmt 11 10,
    subtype := bits fmt 12 12, span := if bit fmt 13 then 64 else 16, tagBase := tagBase, zp := zp, aux := aux,
    pitch := pitch, reserved := reserved || bits fmt 15 14 != 0 }

/-- Parse a 32-byte tile descriptor (Table 4.2). -/
def parseTDesc (r : List Byte) : TDesc :=
  tdescOf (fld r 0x10 2) (fld r 0x12 2) (fld r 0 8) (fld r 8 2) (fld r 0xA 2) (fld r 0xC 2) (fld r 0x14 2)
    (fld r 0x18 4) (fld r 0x1C 4) (fld r 0xE 2 != 0 || fld r 0x16 2 != 0)

/-- The per-tile zero point as a signed number (Table 4.2: in the type's own encoding, sign-extended). -/
def TDesc.zpInt (d : TDesc) : Int := sext 16 d.zp

def TDesc.info (d : TDesc) : TypeInfo := (typeInfo d.type).getD ⟨8, 16, 4, 0, 0⟩

/-- Bytes of a row of a linear tile: PITCH, or packed (R788). -/
def TDesc.rowBytes (d : TDesc) : Nat :=
  if d.pitch = 0 then cdiv (d.dimIn * d.info.bits) 8 else d.pitch

/-- Bytes of the data part from the base (R788); a linear tile with a PITCH ends with its last row's elements (DESIGN CHOICE, log
entry 149). -/
def TDesc.dataBytes (d : TDesc) : Nat :=
  if d.form = 3 then
    (d.dimOut - 1) * d.rowBytes + cdiv (d.dimIn * d.info.bits) 8
  else (d.dimOut / 4) * (d.dimIn / 4) * d.info.blockBytes

/-- Offset of the tag plane: the first 64-byte boundary after the data (R788). -/
def TDesc.tagOff (d : TDesc) : Nat := roundUp d.dataBytes 64

/-- Bytes of the tag plane (R788). -/
def TDesc.tagBytes (d : TDesc) : Nat :=
  if d.info.kGroup = 0 then 0 else 2 * (d.dimOut / 4) * (d.dimIn / d.info.kGroup)

/-- The codebook stride of R174. -/
def TDesc.bookStride (d : TDesc) : Nat := if d.type = 0x18 then 16 else if d.type = 0x19 then 32 else 64

/-- The tile has an aux plane exactly in these cases (R178). -/
def TDesc.hasAux (d : TDesc) : Bool := d.info.aux != 0 || d.zpMode == 2

/-- Bytes of the aux plane (R788). -/
def TDesc.auxBytes (d : TDesc) : Nat :=
  if d.info.aux = 1 then 8 * (d.dimOut / 4) * (d.dimIn / 32)
  else if d.info.aux = 2 then d.bookStride * cdiv d.dimOut d.span * (d.dimIn / 64)
  else if d.zpMode = 2 then cdiv (d.dimOut * d.info.bits) 8
  else 0

/-- The footprint of one data tile (R788). -/
def TDesc.footprint (d : TDesc) : Nat :=
  let e1 := d.dataBytes
  let e2 := if d.tagBytes = 0 then 0 else d.tagOff + d.tagBytes
  let e3 := if d.hasAux then d.aux + d.auxBytes else 0
  roundUp (max e1 (max e2 e3)) 64

/-- The distance between the data tiles of a batch (R788). -/
def TDesc.stride (d : TDesc) : Nat := if d.form != 3 && d.pitch != 0 then d.pitch else d.footprint

/-- Two non-empty byte ranges overlap. -/
def overlaps (a n b m : Nat) : Bool := n != 0 && m != 0 && decide (a < b + m) && decide (b < a + n)

/-- The checks of R172, R173 (type), R174, R178 and R788 on a tile; true when the descriptor passes. `lo` is the least
DIM_IN (Table 4.2 gives 4 for a tile descriptor, Table 4.3 none for a linear source). A linear
tile's DIM_IN needs no rounding: the multiple of Table 4.1 belongs to the engine-ready layout (DEDUCED, log entry 6). The
footprint is held to the stride with BATCH 0 or 1 as well (DESIGN CHOICE, log entry 149). -/
def TDesc.okFrom (lo : Nat) (d : TDesc) : Bool :=
  match typeInfo d.type with
  | none => false
  | some ti =>
    !d.reserved && d.space != 3 && d.zpMode != 3 &&
    decide (4 ≤ d.dimOut) && decide (d.dimOut ≤ 65532) && decide (lo ≤ d.dimIn) && decide (d.dimIn ≤ 65532) &&
    d.dimOut % 4 == 0 && (d.form == 3 || d.dimIn % ti.mult == 0) &&
    d.base % 64 == 0 && d.aux % 64 == 0 &&
    (decide (d.batch ≤ 1) || d.stride % 64 == 0) &&
    (d.zpMode == 0 || isIntType d.type) &&
    (d.zpMode != 2 || d.form == 1) &&
    (d.zpMode != 1 || (decide ((zpRange d.type).1 ≤ d.zpInt) && decide (d.zpInt ≤ (zpRange d.type).2))) &&
    (d.hasAux == (d.aux != 0)) &&
    decide (d.footprint ≤ d.stride) &&
    !(d.hasAux && (overlaps d.aux d.auxBytes 0 d.dataBytes || overlaps d.aux d.auxBytes d.tagOff d.tagBytes))

/-- The checks on a tile descriptor (Table 4.2: DIM_IN from 4). -/
def TDesc.ok (d : TDesc) : Bool := d.okFrom 4

/-- Byte offset of the block of element (o, i) and the element's index in it (R171). -/
def TDesc.block (d : TDesc) (o i : Nat) : Nat := ((o / 4) * (d.dimIn / 4) + i / 4) * d.info.blockBytes
def elemIdx (o i : Nat) : Nat := (o % 4) * 4 + i % 4

/-- Element (o, i) of an engine-ready tile at an absolute base, as raw bits (R132, R161, R171); padding of a tile with one zero
point holds that zero point (R219). -/
def TDesc.elem (s : State) (at_ : Nat) (d : TDesc) (o i : Nat) : Nat :=
  if d.zpMode == 1 &&
      Padding.covers d.info.bits (elemIdx o i * d.info.bits % 8) (s.padOf (at_ + d.block o i + elemIdx o i * d.info.bits / 8)) then d.zp % 2 ^ d.info.bits
  else
    let blk := leNat (s.readMem (at_ + d.block o i) d.info.blockBytes)
    (blk >>> (elemIdx o i * d.info.bits)) % 2 ^ d.info.bits

/-- The signed integer an INT8, UINT8 or INT4 element encodes. -/
def intElem (t raw : Nat) : Int := if t = 2 then (raw : Int) else if t = 1 then sext 8 raw else sext 4 raw

/-- The value of a floating element of a storage type; `sub` is the MX subtype (Table 4.2). -/
def fpElem (t sub raw : Nat) : Num :=
  match t with
  | 0x08 => decodeFp fmtE4M3 raw
  | 0x09 => decodeFp fmtE5M2 raw
  | 0x0C => decodeFp (if sub = 0 then fmtE4M3 else fmtE5M2) raw
  | 0x0D => decodeFp (if sub = 0 then fmtE2M3 else fmtE3M2) raw
  | 0x0E => decodeFp fmtE2M1 raw
  | 0x10 => decodeFp fmtBF16 raw
  | 0x11 => decodeFp fmtFP16 raw
  | _ => decodeFp fmtFP32 raw

/-- Offset of the tag of outer row o and K group g in the tag plane. -/
def TDesc.tagAt (d : TDesc) (o g : Nat) : Nat := d.tagOff + 2 * ((o / 4) * (d.dimIn / d.info.kGroup) + g)

/-- Offset of the scale record of outer row o and K group g (R174). -/
def TDesc.scaleAt (d : TDesc) (o g : Nat) : Nat := d.aux + 8 * ((o / 4) * (d.dimIn / 32) + g)

/-- Offset of the codebook of outer row o and K group g (R174). -/
def TDesc.bookAt (d : TDesc) (o g : Nat) : Nat := d.aux + d.bookStride * ((o / d.span) * (d.dimIn / 64) + g)

/-- The raw E8M0 scale of outer row o and K group g. -/
def TDesc.scale (s : State) (at_ : Nat) (d : TDesc) (o g : Nat) : Nat :=
  leNat (s.readMem (at_ + d.scaleAt o g + o % 4) 1)

/-- The FP16 centroid a code selects (R159, R161). -/
def TDesc.centroid (s : State) (at_ : Nat) (d : TDesc) (o i raw : Nat) : Num :=
  decodeFp fmtFP16 (leNat (s.readMem (at_ + d.bookAt o (i / 64) + 2 * raw) 2))

/-- Data tag and scale or codebook tag of (o, g) both carry the expected tag of R175 (R149, R176). -/
def TDesc.tagsOk (s : State) (at_ : Nat) (d : TDesc) (o g : Nat) : Bool :=
  let want := (d.tagBase + g) % 65536
  let data := leNat (s.readMem (at_ + d.tagAt o g) 2)
  let aux :=
    if d.info.aux = 1 then leNat (s.readMem (at_ + d.scaleAt o g + 4) 2)
    else leNat (s.readMem (at_ + d.bookAt o g + 2 * 2 ^ d.info.bits) 2)
  data == want && aux == want

/-- The zero point of outer index o of an integer operand (R136, R178). -/
def TDesc.zpOf (s : State) (at_ : Nat) (d : TDesc) (o : Nat) : Int :=
  if d.zpMode = 1 then d.zpInt
  else if d.zpMode = 2 then
    let w := d.info.bits
    let byte := leNat (s.readMem (at_ + d.aux + o * w / 8) 1)
    intElem d.type ((byte >>> (o * w % 8)) % 2 ^ w)
  else 0

/-- Replace element idx of width w in the little-endian number of a block. -/
def putElem (blk w idx v : Nat) : Nat :=
  blk - ((blk >>> (idx * w)) % 2 ^ w) * 2 ^ (idx * w) + v * 2 ^ (idx * w)

/-- Write element (o, i) of an engine-ready tile. -/
def TDesc.setElem (s : State) (at_ : Nat) (d : TDesc) (o i v : Nat) : State :=
  let w := d.info.bits
  let p := at_ + d.block o i
  if w % 8 = 0 then s.writeMem (p + elemIdx o i * (w / 8)) (toLE (w / 8) v)
  else s.writeMem p (toLE d.info.blockBytes (putElem (leNat (s.readMem p d.info.blockBytes)) w (elemIdx o i) v))

end Sys2Proof.Machine
end

