-- ==== Sys2Proof/Machine/Hops.lean ====
section
/-!
DEFINITION. The transaction layer of a PCIe link as a flow-controlled hop: classes, escape slots, the order in which a hop forwards,
and the shares of the functions (R501, R551, R683 to R688).
-/
namespace Sys2Proof.Machine

/-- The link on which a function is presented (Table 11.1). -/
def State.linkOf (s : State) (f : Nat) : Nat := if s.host.split && decide (s.host.link1First ≤ f) then 1 else 0

def State.link (s : State) (l : Nat) : Link := if l = 0 then s.host.link0 else s.host.link1

def State.setLink (s : State) (l : Nat) (x : Link) : State :=
  if l = 0 then { s with host := { s.host with link0 := x } } else { s with host := { s.host with link1 := x } }

def State.hop (s : State) (l : Nat) : Hop := Tbl.get Hop.empty s.host.hops l

def State.setHop (s : State) (l : Nat) (h : Hop) : State := { s with host := { s.host with hops := Tbl.set Hop.empty s.host.hops l h } }

/-! Slots. -/

/-- The shared slots of a hop in use. -/
def Hop.sharedUsed (h : Hop) : Nat := (h.slots.filter (fun m => !m.escape)).length

/-- The escape slot of a class is free. -/
def Hop.escapeFree (h : Hop) (c : Nat) : Bool := !h.slots.any (fun m => m.escape && m.cls == c)

/-- A message takes a shared slot while one is free, else the escape slot of its class, else none (R683). -/
def Hop.slotFor (h : Hop) (shared : Nat) (m : HopMsg) : Option HopMsg :=
  if h.sharedUsed < shared then some { m with escape := false }
  else if h.escapeFree m.cls then some { m with escape := true }
  else none

/-- A message arrives at the end of the hop's arrivals: nothing is dropped for want of space (R684, R687). -/
def Hop.arrive (h : Hop) (m : HopMsg) : Hop := { h with ready := h.ready ++ [m] }

/-- Payload bytes forwarded for a function while requests contend (R551). -/
def Hop.usedBy (h : Hop) (f : Nat) : Nat := Tbl.get 0 h.used f

/-- A function is served before another: least used for its weight; weight 0 comes after every positive weight (R551). -/
def fairBefore (w used : Nat → Nat) (a b : Nat) : Bool :=
  if w a = 0 then w b == 0 && decide (used a ≤ used b)
  else w b == 0 || decide (used a * w b ≤ used b * w a)

/-- The arrival that takes the next free slot (DESIGN CHOICE in its form, log entry 169): of the classes that have room, each by its
first arrival, the one whose function is served first; a class without room holds up no other, and within a class the order is that of arrival
(R551, R684). -/
def Hop.nextArrival (h : Hop) (shared : Nat) (w : Nat → Nat) : Option HopMsg :=
  let firsts := h.ready.filter (fun m => (h.slotFor shared m).isSome &&
    h.ready.find? (fun x => x.cls == m.cls) == some m)
  firsts.foldl (fun best m =>
    match best with
    | none => some m
    | some b => if fairBefore w h.usedBy b.fn m.fn then some b else some m) none

/-- Arrivals take slots while one has room. -/
def Hop.acceptFuel (shared : Nat) (w : Nat → Nat) : Nat → Hop → Hop
  | 0, h => h
  | fuel + 1, h =>
    match h.nextArrival shared w with
    | none => h
    | some m =>
      match h.slotFor shared m with
      | none => h
      | some x => Hop.acceptFuel shared w fuel { h with slots := h.slots ++ [x], ready := h.ready.erase m }

/-! The order of forwarding. -/

/-- The first of a class in arrival order (R684). -/
def firstOf (l : List HopMsg) (c : Nat) : Option HopMsg := l.find? (fun m => m.cls == c)

/-- The class that goes next among given messages: the lowest when the hop can forward from escape slots only, else the next one in turn
(R686). -/
def nextClass (last : Nat) (escapes : Bool) (l : List HopMsg) : Option Nat :=
  let order := if escapes then List.range 7 else (List.range 7).map (fun i => (last + 1 + i) % 7)
  order.find? (fun c => (firstOf l c).isSome)

/-- The message a hop forwards next: of those that have waited 1,024 cycles, if there are any, else of all (R684, R686). -/
def Hop.pick (h : Hop) (now mhz : Nat) : Option HopMsg :=
  let aged := h.slots.filter (fun m => decide (1024 ≤ (now - m.since) * mhz * 5 / 192))
  let l := if aged.isEmpty then h.slots else aged
  (nextClass h.last (h.slots.all (fun m => m.escape)) l).bind (fun c => firstOf l c)

/-- Take a message out of its slot and charge its function. -/
def Hop.forward (h : Hop) (m : HopMsg) : Hop :=
  { h with slots := h.slots.erase m, last := m.cls, used := Tbl.set 0 h.used m.fn (h.usedBy m.fn + m.size) }

/-- The PCIe weight of a function (Table 12.4). -/
def State.pcieWeight (s : State) (f : Nat) : Nat := (Tbl.get (Fn.reset (f == 0)) s.host.fns f).wPcie

/-- Forward everything a hop holds, in its order. -/
def State.drainFuel (l : Nat) : Nat → State → State
  | 0, s => s
  | fuel + 1, s =>
    let h := Hop.acceptFuel (Config.hopShared l) s.pcieWeight (s.hop l).ready.length (s.hop l)
    match h.pick s.host.refTicks (Config.hopMHz l) with
    | none => s
    | some m => State.drainFuel l fuel ((s.setHop l (h.forward m)).emit m.out)

/-- A link that leaves Recovery forwards what waited at its hop; a retrain changes no order (R501, R688). -/
def State.drainHop (s : State) (l : Nat) : State :=
  State.drainFuel l ((s.hop l).slots.length + (s.hop l).ready.length) s

/-- Send a message of a function to its host: at once, or, while the link retrains, into the slots of the link's hop (R501, R551,
R683, R685). -/
def State.toHost (s : State) (f cls size : Nat) (o : Out) : State :=
  let l := s.linkOf f
  let h := s.hop l
  if (s.link l).retraining then
    let m : HopMsg := { cls := cls, fn := f, size := size, since := s.host.refTicks, escape := false, out := o }
    s.setHop l (Hop.acceptFuel (Config.hopShared l) s.pcieWeight 1 (h.arrive m))
  else (s.setHop l { h with used := Tbl.set 0 h.used f (h.usedBy f + size) }).emit o

end Sys2Proof.Machine
end

