-- ==== Sys2Proof/Machine/Report.lean ====
section
/-!
DEFINITION. What the module reports and how: time stamps, MSI-X messages, events, management replies, the error log
and the spare map (chapters 11, 12, 16, 17).
-/
namespace Sys2Proof.Machine

def State.fn (s : State) (f : Nat) : Fn := Tbl.get (Fn.reset (f == 0)) s.host.fns f

def State.setFn (s : State) (f : Nat) (x : Fn) : State :=
  { s with host := { s.host with fns := Tbl.set (Fn.reset (f == 0)) s.host.fns f x } }

/-- Nanoseconds since power-on: the crystal runs at 38.4 MHz (R44, R537). -/
def State.nowNs (s : State) : Nat := s.host.refTicks * 625 / 24

/-- The time stamp of an event as a function sees it (R537, R539). -/
def State.stampFor (s : State) (f : Nat) : Nat :=
  let l := s.linkOf f
  if (s.link l).ptm then (l + 1) * 2 ^ 62 + (s.nowNs + (s.link l).ptmOffset) % 2 ^ 62 else s.nowNs % 2 ^ 62

/-- MSI-X entries of a function (R512): without a stored record every function has 64; PF0 has the rest of 2,048. -/
def State.vectors (s : State) (f : Nat) : Nat :=
  if f = 0 then 2048 - (rangeFrom 1 31).foldl (fun acc g => acc + Tbl.get 64 s.host.vecCount g) 0
  else Tbl.get 64 s.host.vecCount f

/-- The MSI-X entry a context names (R516). -/
def Ctx.entry (c : Ctx) : Nat := bits c.vectorHi.toNat 4 0 * 64 + bits c.cfg.toNat 21 16

/-- The function that owns a context's group (R549). -/
def State.ctxFn (s : State) (n : Nat) : Nat := Tbl.get 0 s.host.groupOwner (n / 64)

/-- Send a message on a vector, or set its pending bit while it is masked; a message resets the pending counts of the
contexts that name the vector (R513, R536). -/
def State.sendMsg (s : State) (f vec : Nat) : State :=
  let x := s.fn f
  if Tbl.get true x.masked vec || !x.busMaster then s.setFn f { x with pba := Tbl.set false x.pba vec true }
  else
    let s := s.toHost f 0 4 (.msix f vec)
    (Tbl.keys s.work.ctxs).foldl (fun s n =>
      let c := s.ctx n
      if s.ctxFn n = f ∧ c.entry = vec then s.setCtx n { c with pending := 0 } else s) s

/-- Drop the oldest discardable event of a full store, if there is one (R717). -/
def dropOldest : List Event → List Event × Bool
  | [] => ([], false)
  | e :: es => if e.keep then ((e :: (dropOldest es).1), (dropOldest es).2) else (es, true)

/-- Write a log entry at a level (0 error to 3 debug) when LOG_LEVEL asks for it; TEXT_ID and the arguments are the firmware
catalogue's (R720). -/
def State.logWrite (s : State) (level source fn part : Nat) (code : Status) : State :=
  let r := s.host.logRing
  if r.level < level then s
  else
    let e := toLE 4 r.seq ++ toLE 4 (level + source * 4 + fn * 2 ^ 10 + part * 2 ^ 15) ++ toLE 8 (s.stampFor 0) ++
      toLE 4 code.num ++ (List.range 11).flatMap (fun i => toLE 4 (Config.logText code.num i).toNat)
    let full := decide (4096 ≤ diff32 r.tail.toNat r.head.toNat)
    { s with host := { s.host with logRing := { r with
      ring := Tbl.put r.ring (r.tail.toNat % 4096) e, tail := r.tail + 1, seq := (r.seq + 1) % 2 ^ 32,
      lost := if full then r.lost + 1 else r.lost } } }

/-- The firmware logs an event that it raises: an error at level 0, another at level 2 (R720; the levels are a DESIGN CHOICE, log entry 183). -/
def State.logEvent (s : State) (f : Nat) (code : Status) : State :=
  if s.pwr.fw.running then s.logWrite (if code.isError then 0 else 2) 178 f 0 code else s

/-- Hold an event for a function's event ring, and log it (R553, R717, R720). -/
def State.event (s : State) (f : Nat) (code : Status) (payload : List Byte) (keep : Bool := false) : State :=
  let s := s.logEvent f code
  let x := s.fn f
  let held := x.held ++ [{ code := code, payload := payload, keep := keep }]
  if 4096 < held.length then
    let r := dropOldest held
    s.setFn f { x with held := r.1, eventsLost := if r.2 then x.eventsLost + 1 else x.eventsLost }
  else s.setFn f { x with held := held }

/-- An event to a function and to PF0, once when they are the same (Table 12.5). -/
def State.eventBoth (s : State) (f : Nat) (code : Status) (payload : List Byte) : State :=
  if f = 0 then s.event 0 code payload else (s.event f code payload).event 0 code payload

/-! WCET_VOID (R361, R362). -/

/-- Conditions of R361, by number: 0 clock point or freeze mode, 1 a stack at 95 °C or more, 2 a retry, retrain or repair,
3 deferral by the ledger. -/
abbrev WcetCond := Nat

/-- WCET_VOID for one descriptor, once, to PF0 and the owner (R362). The event names the context, the descriptor's TAG and the
condition. -/
def State.voidDesc (s : State) (fn n : Nat) (cond : WcetCond) (d : Desc) : State :=
  if d.voided then s
  else
    let c := s.ctx n
    (s.setCtx n { c with descs := c.descs.map (fun e => if e.idx = d.idx then { e with voided := true } else e) }).eventBoth
      fn .wcetVoid (toLE 4 n ++ toLE 4 (fld d.raw 4 4) ++ toLE 4 cond)

/-- A condition failed while REAL_TIME descriptors of a partition run (R362). -/
def State.wcetVoid (s : State) (cond : WcetCond) (p : Nat) : State :=
  let fn := match s.part p with
    | some x => x.fn
    | none => 0
  (Tbl.keys s.work.ctxs).foldl (fun s n =>
    let c := s.ctx n
    if bit c.cfg.toNat 30 && bits c.cfg.toNat 29 24 == p then
      (c.descs.filter (fun d => d.phase == .running)).foldl (fun s d => s.voidDesc fn n cond d) s
    else s) s

/-- Work of a partition waits for a repair or a link that retrains, which is condition 2 of R361. -/
def State.waitsOn (s : State) (p : Nat) (trouble : Bool) : State := if trouble then s.wcetVoid 2 p else s

/-- A condition that touches every partition. -/
def State.wcetVoidAll (s : State) (cond : WcetCond) : State := (Tbl.keys s.work.parts).foldl (fun s p => s.wcetVoid cond p) s

/-! Replies. -/

/-- The 32-byte header of a reply or event (Table 17.4). -/
def msgHeader (op len tag status f detail : Nat) : List Byte :=
  toLE 2 op ++ toLE 2 len ++ toLE 4 tag ++ toLE 4 (status + f * 2 ^ 16) ++ toLE 8 detail ++ toLE 12 0

/-- Write one reply to a function's reply ring and send vector 0's message (R715, R716). -/
def State.putReply (s : State) (f : Nat) (bytes : List Byte) : State :=
  let x := s.fn f
  (s.setFn f { x with repRing := Tbl.put x.repRing (x.repTail.toNat % 512) bytes, repTail := x.repTail + 1 }).sendMsg f 0

/-- Write the known replies at the head of the open reservations: replies go out in the order the requests were taken
(R715). -/
def State.flushReplies (f : Nat) : List Owed → State → State
  | [], s => s.setFn f { s.fn f with owed := [] }
  | o :: os, s =>
    match o.reply with
    | some b => State.flushReplies f os (s.putReply f b)
    | none => s.setFn f { s.fn f with owed := o :: os }

/-- Answer the request of a number (R715). -/
def State.answer (s : State) (f num : Nat) (st : Status) (payload : List Byte := []) (detail : Nat := 0) : State :=
  let fill := fun (o : Owed) =>
    if o.num = num ∧ o.reply.isNone = true then
      { o with reply := some (msgHeader o.op payload.length o.tag st.num f detail ++ payload) } else o
  State.flushReplies f ((s.fn f).owed.map fill) s

/-- Answer the request just taken (R715). -/
def State.reply (s : State) (f op tag : Nat) (st : Status) (payload : List Byte := []) (detail : Nat := 0) : State :=
  let bytes := msgHeader op payload.length tag st.num f detail ++ payload
  let owed := (s.fn f).owed
  State.flushReplies f (owed.dropLast ++ (owed.getLast?.toList.map (fun o => { o with reply := some bytes }))) s

/-- A number is a power of two (R694). -/
def isPow2 (n : Nat) : Bool := n != 0 && 2 ^ Nat.log2 n == n

/-- Count an error of a kind from an island and write its error-log entry where R694 asks for one: class 0 corrected,
1 contained, 2 fatal, 3 record only. -/
def State.logError (s : State) (cls : Nat) (code : Status) (island detail : Nat) (prior : Bool := false) : State :=
  let e := s.errs
  let key := 256 * code.kind + island
  let count := Tbl.get 0 e.counts key + 1
  let e := { e with counts := Tbl.set 0 e.counts key count }
  if cls = 0 ∧ isPow2 count = false then { s with errs := e }
  else
    let entry : ErrEntry := {
      startNo := s.pwr.startNo, time := s.nowNs % 2 ^ 62, cls := cls, priorUe := prior, source := island, code := code,
      count := count, detail := detail }
    { s with errs := { e with
        log := (entry :: e.log).take 16384, seqNo := e.seqNo + 1,
        contained := e.contained + b2n (cls == 1), fatal := e.fatal + b2n (cls == 2) } }

/-- The severity that the host has set in PF0's AER capability for an uncorrectable internal error: fatal or not. No command writes it, so it
is free at every moment (R691, log entry 212). -/
def State.aerFatal (s : State) : Bool := Config.aerSeverity s.host.refTicks

/-- Report a contained error (Table 16.3): error log, event to PF0, AER; the island is no longer clean (R677). -/
def State.contained (s : State) (code : Status) (island detail : Nat) (prior : Bool := false) : State :=
  let s := (s.logError 1 code island detail prior).event 0 code (toLE 8 detail)
  ({ s with errs := { s.errs with dirty := Tbl.set false s.errs.dirty island true } } : State).emit (.aer true s.aerFatal)

/-- Report a corrected error (Table 16.3). -/
def State.corrected (s : State) (code : Status) (island detail : Nat) : State :=
  (s.logError 0 code island detail).emit (.aer false false)

/-- Write a spare-map record and its error-log entry; where a spare was brought in (kinds 0 to 7), PF0 receives SPARE_SWAPPED (R694, R704,
R706). -/
def State.spareRecord (s : State) (kind cause logical physical spare island : Nat) : State :=
  let r : SpareRec := {
    kind := kind, cause := cause, startNo := s.pwr.startNo, time := s.nowNs % 2 ^ 62, logical := logical,
    physical := physical, spare := spare }
  let idx := s.errs.spares.length
  let s := { s with errs := { s.errs with spares := s.errs.spares ++ [r] } }
  let s := s.logError 3 .spareSwapped island idx
  if kind < 8 then s.event 0 .spareSwapped (toLE 4 idx) else s

/-- SPARE_EXHAUSTED to PF0 and to the owner of each partition affected (R703). -/
def State.spareExhausted (s : State) (owners : List Nat) (island : Nat) : State :=
  let s := (s.logError 3 .spareExhausted island 0).event 0 .spareExhausted []
  (owners.filter (fun f => f != 0)).eraseDups.foldl (fun s f => s.event f .spareExhausted []) s

end Sys2Proof.Machine
end

