-- ==== Sys2Proof/Machine/Access.lean ====
section
/-!
DEFINITION. What an agent may reach in device memory and host memory, and how its bytes land there (R110, R115, R205 to
R207, R298, R309, R315, R331, R338, R374).
-/
namespace Sys2Proof.Machine

/-- A stack serves requests (R298). -/
def State.stackServes (s : State) (st : Nat) : Bool := Tbl.get false s.mem.stackOn st

/-- Every granule of a stacked range lies in a stack that serves requests (R298). -/
def State.stacksOn (s : State) (a n : Nat) : Bool :=
  (List.range 4).all s.stackServes || (granulesOf a n).all (fun g => s.stackServes (s.stackOf g))

/-- First DPA past the cluster stores and past the core stores (Table 4.7). -/
def clusterEnd : Nat := 0x4010000000
def coreEnd : Nat := 0x4020000000

/-- First DPA of the stores: everything below it is answered by the controller slices (Table 4.7, R309). -/
def storeBase : Nat := 0x4000000000

/-- A partition's stamp is old: its generation is not the current one of its identifier (R309). -/
def State.stale (s : State) (p gen : Nat) : Bool := gen != s.gen p

/-- Why the tile mover of cluster k, working for a partition, may not access a range of device memory (R110, R115, R205,
R298, R338); a stacked request with an old generation is not refused here (R309). -/
def State.reachErr (s : State) (part : Part) (p gen k : Nat) (write : Bool) (a n : Nat) : Option Status :=
  if n = 0 then none
  else if a < storeBase then
    if s.stale p gen then none
    else if !part.ownsStacked a n then some .eStoreRange
    else if !s.stacksOn a n then some .eStackOff
    else none
  else if 0x4000000000 ≤ a ∧ a < clusterEnd then
    let k' := (a - 0x4000000000) / 0x1000000
    let off := a - clusterBase k'
    if (if write then k' = k else k' / 8 = k / 8) ∧ part.ownsGranules k' off n = true then none else some .eStoreRange
  else if clusterEnd ≤ a ∧ a < coreEnd then
    let c := (a - clusterEnd) / 0x200000
    if c / 8 = k ∧ part.ownsCore c = true ∧ a - coreBase c + n ≤ coreStoreBytes then none else some .eStoreRange
  else some .eStoreRange

/-- Why a stacked range may not be accessed by an agent that works under a partition's key (R205, R298, R309). -/
def State.stackedErr (s : State) (part : Part) (p gen a n : Nat) : Option Status :=
  if n = 0 then none
  else if s.stale p gen then none
  else if !part.ownsStacked a n then some .eStoreRange
  else if !s.stacksOn a n then some .eStackOff
  else none

/-! Requests that a controller slice holds (R303, R317, R701). -/

/-- A pseudo-channel's swap is open, or a repair of one of its rows (R701). -/
def Mem.repairOpen (m : Mem) (key : Nat) : Bool := Tbl.get false m.swapPending key || !(Tbl.get [] m.rowRepair key).isEmpty

/-- Some swap or row repair is open. -/
def Mem.anyRepair (m : Mem) : Bool := m.swapPending.any (·.2) || !m.rowRepair.isEmpty

/-- The pseudo-channel of a granule is being swapped, or a row of it whose lines lie in its page is being repaired (R317, R326, R701). -/
def State.repairing (s : State) (a : Nat) : Bool :=
  Tbl.get false s.mem.swapPending (s.channelOf a) || (Tbl.get [] s.mem.rowRepair (s.channelOf a)).any (fun e => e.2 == a / 0x200000)

/-- A slice holds requests to a granule: its stack is at 105 °C or more, or the row or pseudo-channel is under repair. -/
def State.granuleHeld (s : State) (a : Nat) : Bool :=
  decide (105 ≤ Tbl.get 0 s.mem.temp (s.stackOf a)) || s.repairing a

/-- Some granule of a stacked range is being repaired (R317). -/
def State.memRepairing (s : State) (a n : Nat) : Bool :=
  s.mem.anyRepair && decide (a < stackedEnd) && n != 0 && (granulesOf a n).any s.repairing

/-- Some granule of a stacked range has to wait, and with it the work that needs it. -/
def State.memHeld (s : State) (a n : Nat) : Bool :=
  (s.mem.temp.any (fun e => decide (105 ≤ e.2)) || s.mem.anyRepair) && decide (a < stackedEnd) && n != 0 &&
    (granulesOf a n).any s.granuleHeld

/-! Accounting (R374, R375, R377). -/

/-- Add to accounting counter i of a partition and its function, and of a context when the work is a context's. -/
def State.account (s : State) (ctx : Option Nat) (p i n : Nat) : State :=
  if n = 0 then s
  else
    let add := fun (t : Tbl Nat) (key : Nat) => Tbl.set 0 t key ((Tbl.get 0 t key + n) % 2 ^ 64)
    let t := match ctx with
      | some c => add s.work.acct (8 * c + i)
      | none => s.work.acct
    let t := add t (0x8000 + 8 * p + i)
    let t := match s.part p with
      | some x => add t (0x8200 + 8 * x.fn + i)
      | none => t
    { s with work := { s.work with acct := t } }

/-- Add to accounting counter i of a function for work on its rings outside any partition (R375). -/
def State.accountFn (s : State) (f i n : Nat) : State :=
  let key := 0x8200 + 8 * f + i
  { s with work := { s.work with acct := Tbl.set 0 s.work.acct key ((Tbl.get 0 s.work.acct key + n) % 2 ^ 64) } }

/-- Bytes of a stacked range that lie in stacks of the other compute die (Table 8.12, D2D). -/
def State.remoteBytes (s : State) (die a n : Nat) : Nat :=
  (granulesOf a n).foldl (fun acc g =>
    if s.stackOf g / 2 = die then acc else acc + (min (a + n) (g + 256) - max a g)) 0

/-- Count a stacked access of an agent on a compute die, or of an IOD agent when die is 2: bytes read or written, and
the bytes that cross a UCIe link. -/
def State.accountStacked (s : State) (ctx : Option Nat) (p die : Nat) (write : Bool) (a n : Nat) : State :=
  (s.account ctx p (if write then 2 else 1) n).account ctx p 5 (s.remoteBytes die a n)

/-- The pieces of a run of bytes that fall into single granules: address and bytes. -/
def cutGranules (a : Nat) (bs : List Byte) : List (Nat × List Byte) :=
  (granulesOf a bs.length).map (fun g =>
    let lo := max a g
    (lo, (bs.drop (lo - a)).take (min (a + bs.length) (g + 256) - lo)))

/-- An IOD unit writes stacked memory for a partition; what its slices hold lands when they serve again (R303, R425, R701). -/
def State.sliceWrite (s : State) (p gen a : Nat) (bs : List Byte) : State :=
  if s.memHeld a bs.length then
    { s with mem := { s.mem with held := s.mem.held ++ (cutGranules a bs).map (fun e => {
        part := p, gen := gen, write := true, addr := e.1, len := e.2.length, data := e.2, ecc := 0, cls := 1 }) } }
  else (s.accountStacked none p 2 true a bs.length).writeMem a bs

/-! Host memory (R206, R207, R330, R331, R504, R536). -/

/-- A posted write of a function to host memory, in payloads of at most 256 bytes, charged against its PCIe share (R330, R331,
R551). -/
def State.hostWriteFuel (f : Nat) (poison : Bool) (attr : ReqAttr) : Nat → Nat → List Byte → State → State
  | 0, _, _, s => s
  | fuel + 1, a, bs, s =>
    if bs.isEmpty then s
    else State.hostWriteFuel f poison attr fuel (a + 256) (bs.drop 256) (s.toHost f attr.tc (min 256 bs.length) (.hostWrite f a (bs.take 256) poison attr))

/-- A posted write in a traffic class. Relaxed Ordering is set on data writes only, when the function's Device Control enables it;
No Snoop is never set (R504). -/
def State.hostWrite (s : State) (f a : Nat) (bs : List Byte) (poison : Bool := false) (tc : Nat := 1) (data : Bool := true) : State :=
  State.hostWriteFuel f poison { tc := tc, relaxed := data && (s.fn f).relaxed, noSnoop := false, tag10 := false }
    (cdiv bs.length 256) a bs s

/-- The largest read request of a function: the lesser of its Max_Read_Request_Size and 512 bytes (R331, R504). -/
def Fn.maxRead (x : Fn) : Nat := min 512 (128 * 2 ^ x.mrrs)

/-- A read of n bytes of host memory as requests of at most the largest size. -/
def State.hostReadFuel (f m : Nat) (attr : ReqAttr) : Nat → Nat → Nat → State → State
  | 0, _, _, s => s
  | fuel + 1, a, n, s =>
    if n = 0 then s else State.hostReadFuel f m attr fuel (a + m) (n - m) (s.toHost f attr.tc (min m n) (.hostRead f a (min m n) attr))

/-- The read requests a function makes for n bytes of host memory (R206, R331, R504). -/
def State.hostRead (s : State) (f a n : Nat) (tc : Nat := 2) : State :=
  State.hostReadFuel f (s.fn f).maxRead { tc := tc, relaxed := false, noSnoop := false, tag10 := (s.fn f).tag10 } n a n s

/-- The bytes the host answered. -/
def hostBytes : HostRead → List Byte
  | .data d => d
  | .refused => []

/-! Pieces: runs of bytes of a destination, with poison. -/

/-- A byte on its way to a destination: its value, whether it carries poison, what of it is padding of a tile whose zero point the move does
not carry (R219). -/
structure PByte where
  val : Byte
  poison : Bool
  pad : Option Padding
  deriving DecidableEq, Repr

/-- A run of bytes at an offset of a destination. -/
structure Piece where
  off : Nat
  data : List Byte
  poison : Bool
  pad : Option Padding := none
  deriving DecidableEq, Repr

/-- Join neighbouring pieces of one poison state into runs. -/
def joinPieces : List Piece → List Piece
  | [] => []
  | p :: ps =>
    match joinPieces ps with
    | [] => [p]
    | q :: qs =>
      if p.off + p.data.length = q.off ∧ p.poison = q.poison ∧ p.pad = q.pad then
        { p with data := p.data ++ q.data } :: qs
      else p :: q :: qs

/-- Bytes at an offset as runs. -/
def piecesOf (off : Nat) (bs : List PByte) : List Piece :=
  joinPieces ((List.range bs.length).zip bs |>.map (fun e => { off := off + e.1, data := [e.2.val], poison := e.2.poison, pad := e.2.pad }))

/-- Write one piece: poison falls on the units its bytes came to (R307, R310, R314, R315). -/
def State.writePiece (s : State) (base : Nat) (p : Piece) : State :=
  if p.poison then s.writePoison (base + p.off) p.data else s.writeMem (base + p.off) p.data

/-- Note the padding of a piece that has been written (R219). -/
def State.padPiece (s : State) (base : Nat) (p : Piece) : State :=
  if p.poison then s else s.markPads (base + p.off) (List.replicate p.data.length p.pad)

/-- Write pieces to device memory at a base: a run of padding beside a run of data is one write (R219, R314). -/
def State.writePieces (s : State) (base : Nat) (ps : List Piece) : State :=
  ps.foldl (fun s p => s.padPiece base p) ((joinPieces (ps.map (fun p => { p with pad := none }))).foldl (fun s p => s.writePiece base p) s)

/-- Bytes that pieces hold. -/
def pieceBytes (ps : List Piece) : Nat := ps.foldl (fun acc p => acc + p.data.length) 0

/-- The bytes of pieces as one run of n bytes, 0 between them. -/
def flattenPieces (n : Nat) (ps : List Piece) : List Byte :=
  ps.foldl (fun bs p => putBytes bs p.off p.data) (List.replicate n 0)

/-- One export record of a binding (R669, Table 15.14). -/
def exportRecord (b : Binding) (counter : Nat) (data : List Byte) : List Byte :=
  let head := toLE 4 b.number ++ toLE 4 0 ++ toLE 8 counter ++ toLE 4 data.length ++ List.replicate 12 0
  let sealed := gcmSeal b.key (toLE 4 b.number ++ toLE 8 counter) head data
  slice (head ++ sealed.drop data.length ++ List.replicate 16 0 ++ sealed.take data.length) 0 4096

/-- Some of n bytes at an offset carry poison. -/
def piecesBad (ps : List Piece) (off n : Nat) : Bool :=
  ps.any (fun q => q.poison && decide (q.off < off + n) && decide (off < q.off + q.data.length))

/-- Write a run of bytes as export records to an aligned place in host memory; a record carries poison when its data does (R315,
R669). -/
def State.exportFuel (f p : Nat) (ps : List Piece) : Nat → Nat → Nat → List Byte → State → State
  | 0, _, _, _, s => s
  | fuel + 1, a, off, bs, s =>
    match bs, Tbl.find s.trust.bindings p with
    | [], _ => s
    | _, none => s
    | bs, some b =>
      let s := s.hostWrite f a (exportRecord b b.counter (bs.take 4032)) (piecesBad ps off 4032) 3
      let s := { s with trust := { s.trust with
        bindings := Tbl.put s.trust.bindings p { b with counter := b.counter + 1 } } }
      State.exportFuel f p ps fuel (a + 4096) (off + 4032) (bs.drop 4032) s

/-- Why a partition may not write n bytes to an IOVA: it holds a weight slot and has no binding, or the write does not
fit the records (R667, R669). -/
def State.egressErr (s : State) (p a n : Nat) : Option Status :=
  if (Tbl.find s.trust.weightKeys p).isNone then none
  else if (Tbl.find s.trust.bindings p).isNone ∨ a % 4096 ≠ 0 ∨ n % 64 ≠ 0 then some .eWeightEgress
  else none

/-- Write a run of n bytes given as pieces to host memory under a partition: as export records when the partition holds
a weight slot, each counted with its 4,096 bytes, plainly otherwise (R206, R315, R330, R374, R667, R669). `d2d` tells that the bytes cross a UCIe link: those of an IOD unit do
not (Table 8.12). -/
def State.egress (s : State) (ctx : Option Nat) (f p a n : Nat) (ps : List Piece) (d2d : Bool := true) : State :=
  let bytes := if (Tbl.find s.trust.weightKeys p).isNone then pieceBytes ps else cdiv n 4032 * 4096
  let s := s.account ctx p 4 bytes
  let s := if d2d then s.account ctx p 5 bytes else s
  if (Tbl.find s.trust.weightKeys p).isNone then
    ps.foldl (fun s q => s.hostWrite f (a + q.off) q.data q.poison 3) s
  else s.exportFuel f p ps (cdiv n 4032) a 0 (flattenPieces n ps)

end Sys2Proof.Machine
end

