-- ==== Sys2Proof/Machine/Domains.lean ====
section
/-!
DEFINITION. Power domains, the pins of the safety latches, and what each power state powers (R8, R51, R52, R568, R570, R571,
R574, R734, R735, Tables 1.5, 1.6, 13.1 and 13.3).
-/
namespace Sys2Proof.Machine

/-- Domains of a compute die: MEMFAB and D2D (Table 1.5). -/
def memfabDomain (die : Nat) : Nat := 84 * die + 80
def d2dDomain (die : Nat) : Nat := 84 * die + 83

/-- Domains of the IOD that every state from Sprout up powers (Tables 1.6 and 13.1). -/
def iodDomains : List Nat := [179, 178, 168, 169, 180]

def aphyDomain (g : Nat) : Nat := 170 + g
def ispDomain (p : Nat) : Nat := 174 + p
def postDomain : Nat := 182

/-- The IOD's camera domains may be on: from Sprout up, and while Stage B brings the cameras up (R568, R611, R613). -/
def State.camerasUp (s : State) : Bool := decide (2 ≤ s.pwr.state) || s.pwr.bOpen || s.pwr.bFault

/-- A pipe's domain is on: while a context needs it, and for the motion watch in Seed (R568, R570). -/
def State.pipeOn (s : State) (p : Nat) : Bool :=
  (s.camerasUp && s.media.ctxs.any (fun e => !e.2.suspended && (e.2.on == p || e.2.pipe == p))) ||
    (s.pwr.state == 1 && s.pwr.watch.map (·.2) == some p)

/-- An A-PHY group's domain is on: while an enabled port or a context needs it, and for the motion watch in Seed (R568, R570). -/
def State.groupOn (s : State) (g : Nat) : Bool :=
  (s.camerasUp && ((rangeFrom (4 * g) 4).any (fun p => (s.media.port p).en) ||
    s.media.ctxs.any (fun e => !e.2.suspended && e.2.port / 4 == g))) ||
    (s.pwr.state == 1 && s.pwr.watch.map (·.1) == some g)

/-- The post engine's domain is on: on demand from Sprout up (R568). -/
def State.postOn (s : State) : Bool :=
  decide (2 ≤ s.pwr.state) && (s.cpu.post.run.isSome || !s.cpu.post.queue.isEmpty || !s.cpu.post.handed.isEmpty)

/-! PWR_CFG (Table 13.2). -/

def State.sproutDie (s : State) : Nat := bits s.pwr.cfg.toNat 0 0
def State.sproutCluster (s : State) : Nat := 8 * s.sproutDie + bits s.pwr.cfg.toNat 3 1
/-- Logical core 0 of the Sprout cluster (Table 13.1). -/
def State.gladeCore (s : State) : Nat := 8 * s.sproutCluster

/-- A power state powers a core (Table 13.1): 2 Sprout, 3 Thicket, 4 Canopy. -/
def State.stateCore (s : State) (t n : Nat) : Bool :=
  decide (t = 4) || (decide (t = 3) && n / 64 == s.sproutDie) || (decide (t = 2) && n == s.gladeCore)

/-- A power state powers a cluster. -/
def State.stateCluster (s : State) (t k : Nat) : Bool :=
  decide (t = 4) || (decide (t = 3) && k / 8 == s.sproutDie) || (decide (t = 2) && k == s.sproutCluster)

/-- A power state powers a compute die's MEMFAB and D2D domains. -/
def State.stateDie (s : State) (t d : Nat) : Bool := decide (t = 4) || (decide (2 ≤ t) && d == s.sproutDie)

/-- The first stack of a die (Table 13.1). -/
def firstStack (d : Nat) : Nat := 2 * d

/-- A power state keeps a stack active. -/
def State.stateStack (s : State) (t st : Nat) : Bool :=
  decide (t = 4) || (decide (t = 3) && st / 2 == s.sproutDie) || (decide (t = 2) && st == firstStack s.sproutDie)

/-! Core domains (R54, R70). -/

/-- What the controllers keep of a core whose domain turns off: CLK_CORE_MODE, the freeze and compatibility modes, which last to the next
reset and the next load, the parity counts and pending swaps (R54, R55, R65, R96, R106). -/
def Core.powerOff (c : Core) : Core :=
  { Core.reset with
    parity := c.parity, recent := c.recent, failed := c.failed, resetDue := c.resetDue, swapDue := c.swapDue, allow := c.allow, lastTile := c.lastTile,
    freeze := c.freeze, compat := c.compat }

/-- The self-test of a core's engines at its power-up: each one that fails is due to be swapped at the next core reset (Table 16.6). -/
def Core.selfTest (c : Core) (bad : List Nat) : Core :=
  let new := (bad.filter (fun e => decide (e < 64) && !c.swapDue.contains e)).eraseDups
  { c with swapDue := c.swapDue ++ new, failed := c.failed ++ new, resetDue := c.resetDue || !new.isEmpty }

/-- A core's domain powers up: its store is zero-filled (R70) and its engines are tested (Table 16.6); a core that waits in OFF stays off
(R585). -/
def State.coreUp (s : State) (n : Nat) : State :=
  if s.coreOn n || (s.core n).mode == 3 then s
  else
    let s := (s.zeroFill (coreBase n) coreStoreBytes).setDomain (coreIsland n) true
    s.setCore n ((s.core n).selfTest (Config.failedEngines n s.host.refTicks))

/-- Turn a core's domain off: its store is lost, and is zero-filled when it powers up (R54, R70). -/
def State.coreOff (s : State) (n : Nat) : State :=
  if s.coreOn n then
    ((s.setCore n (s.core n).powerOff).zeroFill (coreBase n) coreStoreBytes).setDomain (coreIsland n) false
  else s

/-! Clock points (R107, R587, R697): 0 is 320 MHz, 1 640, 2 960, 3 1,280. -/

/-- The highest clock point that wear permits an island (CAP of Table 18.9). -/
def State.wearCap (s : State) (i : Nat) : Nat := 3 - (Tbl.get Margin.reset s.errs.margin i).cap

/-- The partition that owns a core. -/
def State.coreOwner (s : State) (n : Nat) : Option Nat :=
  (Tbl.keys s.work.parts).find? (fun p => match s.part p with
    | some x => x.ownsCore n
    | none => false)

/-- The clock point of a core that does not wait: the lowest of its partition's MAX_CLOCK, the caps of its island and of its cluster's, and
the thermal guard's point; 320 MHz for a core of no partition (R107, R587). -/
def State.runPoint (s : State) (n : Nat) : Nat :=
  match s.coreOwner n with
  | none => 0
  | some p =>
    let m := match s.part p with
      | some x => x.maxClock
      | none => 0
    min (min m (Tbl.get 3 s.pwr.thermal.point n)) (min (s.wearCap (coreIsland n)) (s.wearCap (clusterIsland (n / 8))))

/-- The clock point in force at a core: 320 MHz while it waits in SLOW (R584, R587). -/
def State.corePoint (s : State) (n : Nat) : Nat := if (s.core n).mode = 2 then 0 else s.runPoint n

/-- The clock point in force at a cluster: the highest of its powered cores (R107). -/
def State.clusterPoint (s : State) (k : Nat) : Nat :=
  ((rangeFrom (8 * k) 8).filter s.coreOn).foldl (fun acc n => max acc (s.corePoint n)) 0

/-! Pins. -/

/-- Drive SAFE_STATE_N low; a cause that arises while it is low leaves CAUSE (R734). -/
def State.driveSafe (s : State) (cause : Nat) : State :=
  if s.pwr.safeLow then s else { s with pwr := { s.pwr with safeLow := true, safeCause := cause } }

/-- Drive FAULT_N low; CAUSE keeps the first cause (Table 18.6). -/
def State.driveFault (s : State) (cause : Nat) : State :=
  if s.pwr.faultLow then s else { s with pwr := { s.pwr with faultLow := true, faultCause := cause } }

/-! The start's own units (Table 14.1 step 4). -/

/-- The power manager, the thermal guard, the reference counter and the charger run: the start has passed step 3 (R607, R610). -/
def State.unitsRun (s : State) : Bool := s.pwr.aon && !s.pwr.aFault

/-! Tally (R679, R681). -/

/-- An audit epoch is open over a pool whose receiver is an island: TALLY_OPEN holds for its domain (R681). -/
def State.tallyOpen (s : State) (i : Nat) : Bool := s.errs.audits.any (fun pool => bits pool 20 13 == i)

/-! The firmware area (R709). -/

/-- The pages of the firmware area: one of each group, in the first stack of the Sprout die. -/
def areaPages (stack : Nat) : Option (Nat × Nat) → List Nat
  | some (g, n) => (rangeFrom g n).map (fun x => 4 * x + stack)
  | none => []

/-- A page lies in the firmware area of a load accepted since the start (R709). -/
def State.inFwArea (s : State) (pg : Nat) : Bool :=
  (s.pwr.fw.area.toList ++ s.pwr.fw.areas).any (fun a => (areaPages (firstStack s.sproutDie) (some a)).contains pg)

/-- A page is withheld from grants and aperture entries: it lies in a firmware area, or is retired (R703, R709). -/
def State.withheld (s : State) (pg : Nat) : Bool := s.inFwArea pg || Tbl.get false s.errs.retiredPages pg

end Sys2Proof.Machine
end

