-- ==== Sys2Proof/Machine/Isp.lean ====
section
/-!
DEFINITION. The arithmetic of an ISP pipe: profile, parameter block and output descriptor fields, stages 1 to 10, statistics and
output layouts (R401, R405, R408, R412 to R420, R427 to R430, R437 to R443).
-/
namespace Sys2Proof.Machine

/-! Camera profile (Table 9.4). -/

def profWidth (r : List Byte) : Nat := fldBits r 0 13 0
def profHeight (r : List Byte) : Nat := fldBits r 0 29 16
def profType (r : List Byte) : Nat := fldBits r 4 5 0
def profCfa (r : List Byte) : Nat := fldBits r 4 7 6
def profGear (r : List Byte) : Nat := fldBits r 4 10 8
def profDelay (r : List Byte) : Nat := fldBits r 4 14 12
def profEmb (r : List Byte) : Bool := bit (fld r 4 4) 15
def profAddr (r : List Byte) : Nat := fldBits r 4 26 20
def profReg16 (r : List Byte) : Bool := bit (fld r 4 4) 27
def profInit (r : List Byte) : Nat := fldBits r 8 31 16
def profEmbMap (r : List Byte) (i : Nat) : Nat := fld r (0xC + 2 * i) 2
def profSat (r : List Byte) : Nat := fldBits r 0x14 19 0
def profX0 (r : List Byte) (s : Nat) : Nat := fldBits r (0x20 + 12 * s) 19 0
def profY0 (r : List Byte) (s : Nat) : Nat := fldBits r (0x24 + 12 * s) 19 0
def profSlope (r : List Byte) (s : Nat) : Nat := fldBits r (0x28 + 12 * s) 19 0
def profExp (r : List Byte) (i : Nat) : Nat := fld r (0xE0 + 4 * i) 4
def profParams (r : List Byte) : List Byte := slice r 0x100 6272

/-- Bits and slot bytes of a pixel of a CSI-2 data type (Table 9.1, R408); RAW8 to RAW20. -/
def rawBits (dt : Nat) : Nat := if dt = 0x2F then 20 else 8 + 2 * (dt - 0x2A)
def rawBytes (dt : Nat) : Nat := if dt = 0x2A then 1 else if dt = 0x2F then 4 else 2

/-- Bytes of a raw line and of a raw frame (R408). -/
def rawPitch (r : List Byte) : Nat := roundUp (profWidth r * rawBytes (profType r)) 64
def rawFrame (r : List Byte) : Nat := profHeight r * rawPitch r

/-! Parameter block (Table 9.9). -/

def parBlack (b : List Byte) (c : Nat) : Nat := fldBits b (4 * c) 19 0
def parDpc (b : List Byte) : Nat := fldBits b 0x10 19 0
def parGain (b : List Byte) (c : Nat) : Nat := fld b (0x14 + 2 * c) 2
def parAlpha (b : List Byte) : Nat := fldBits b 0x1C 8 0
def parTnr (b : List Byte) : Nat := fldBits b 0x20 19 0
def parCcm (b : List Byte) (i j : Nat) : Int := sext 16 (fld b (0x24 + 2 * (3 * i + j)) 2)
def parCcmOff (b : List Byte) (i : Nat) : Int := sext 21 (fldBits b (0x38 + 4 * i) 20 0)
def parYuv (b : List Byte) (i j : Nat) : Int := sext 16 (fld b (0x44 + 2 * (3 * i + j)) 2)
def parYuvOff (b : List Byte) (i : Nat) : Int := sext 17 (fldBits b (0x58 + 4 * i) 16 0)
def parTone (b : List Byte) (ch i : Nat) : Nat := fld b (0x80 + 2 * (1024 * ch + i)) 2

/-! Output descriptor (Table 9.6). -/

structure OutDesc where
  base : Nat
  space : Nat
  enable : Bool
  format : Nat
  tap : Bool
  downX : Nat
  downY : Nat
  slots : Nat
  vtype : Nat
  slotBytes : Nat
  cropX : Nat
  cropY : Nat
  cropW : Nat
  cropH : Nat
  pitch : Nat
  frameSync : Nat
  releaseSync : Nat
  mirrorBase : Nat
  mirrorPart : Nat
  mirror : Bool
  mirrorFrame : Nat
  mirrorRelease : Nat
  deriving DecidableEq, Repr

def outDesc (raw : List Byte) (o : Nat) : OutDesc :=
  let b := 0x20 + 48 * o
  { base := fld raw b 8, space := fldBits raw (b + 8) 1 0, enable := bit (fld raw (b + 8) 4) 2,
    format := fldBits raw (b + 8) 6 3, tap := bit (fld raw (b + 8) 4) 7, downX := fldBits raw (b + 8) 9 8,
    downY := fldBits raw (b + 8) 11 10, slots := fldBits raw (b + 8) 15 12, vtype := fldBits raw (b + 8) 21 16,
    slotBytes := fld raw (b + 0xC) 4, cropX := fld raw (b + 0x10) 2, cropY := fld raw (b + 0x12) 2,
    cropW := fld raw (b + 0x14) 2, cropH := fld raw (b + 0x16) 2, pitch := fld raw (b + 0x18) 4,
    frameSync := fld raw (b + 0x1C) 2, releaseSync := fld raw (b + 0x1E) 2, mirrorBase := fld raw (b + 0x20) 8,
    mirrorPart := fldBits raw (b + 0x28) 5 0, mirror := bit (fld raw (b + 0x28) 4) 6, mirrorFrame := fld raw (b + 0x2C) 2,
    mirrorRelease := fld raw (b + 0x2E) 2 }

/-- Output size after crop and reduction (R427). -/
def OutDesc.width (d : OutDesc) : Nat := d.cropW / 2 ^ d.downX
def OutDesc.height (d : OutDesc) : Nat := d.cropH / 2 ^ d.downY

/-- Bytes of an element of a vision type. -/
def visionBytes (t : Nat) : Nat := if t = 0x11 then 2 else 1

/-- Bytes of image data from the start of the data area (Table 9.10). -/
def OutDesc.dataBytes (d : OutDesc) : Nat :=
  let w := d.width
  let h := d.height
  let rows := fun (n b : Nat) => if n = 0 then 0 else (n - 1) * d.pitch + b
  match d.format with
  | 0 => rows h (3 * w)
  | 1 => rows h (4 * w)
  | 2 => rows h (2 * w)
  | 3 => roundUp (h * d.pitch) 4096 + rows (h / 2) w
  | 4 => (cdiv w 128 * cdiv h 32 + cdiv w 128 * cdiv (h / 2) 16) * 4096
  | 5 => rows h (4 * w * visionBytes d.vtype)
  | _ => rows h (4 * roundUp w 4 * visionBytes d.vtype)

/-! Pixels. -/

/-- What a pipe sees of a frame: its size, the received pixels (none where filled, R412), the bank, the profile and the temporal
reference (none where noise reduction is off, R419). -/
structure IspView where
  w : Nat
  h : Nat
  px : Nat → Nat → Option Nat
  prof : List Byte
  bank : List Byte
  ref : Nat → Nat → Nat → Option Nat

/-- The index after mirroring about the first or last line or column (R418). -/
def mirrorIdx (n : Nat) (i : Int) : Nat := if i < 0 then (-i).toNat else if (n : Int) ≤ i then (2 * ((n : Int) - 1) - i).toNat else i.toNat

/-- The colour of a position: 0 R, 1 Gr, 2 Gb, 3 B (Table 9.4 CFA). -/
def cfaColour (cfa y x : Nat) : Nat := (y % 2 * 2 + x % 2) ^^^ cfa

def maxLin : Nat := 2 ^ 20 - 1

/-- Stage 1 (Table 9.8): the last segment with X0 at or below the value. -/
def decompand (prof : List Byte) (x : Nat) : Nat :=
  let s := ((List.range 16).filter (fun s => decide (profX0 prof s ≤ x))).getLastD 0
  min maxLin (profY0 prof s + ((x - profX0 prof s) * profSlope prof s + 2048) / 4096)

/-- Stage 2: black level; a filled pixel leaves it as 0 (R412). -/
def IspView.s2 (v : IspView) (y x : Nat) : Nat :=
  match v.px y x with
  | some r => decompand v.prof r - parBlack v.bank (cfaColour (profCfa v.prof) y x)
  | none => 0

/-- The eight neighbours of stage 3 (Table 9.8). -/
def dpcOffsets : List (Int × Int) := [(-2, 0), (2, 0), (0, -2), (0, 2), (-2, -2), (-2, 2), (2, -2), (2, 2)]

/-- Stage 3: defect correction. -/
def IspView.s3 (v : IspView) (y x : Nat) : Nat :=
  let n := dpcOffsets.map (fun d => v.s2 (mirrorIdx v.h (y + d.1)) (mirrorIdx v.w (x + d.2)))
  let hi := n.foldl max 0
  let lo := n.foldl min maxLin
  let c := v.s2 y x
  let t := parDpc v.bank
  if hi + t < c then hi else if c + t < lo then lo else c

/-- Stage 5: white balance. -/
def IspView.s5 (v : IspView) (y x : Nat) : Nat :=
  min maxLin ((v.s3 y x * parGain v.bank (cfaColour (profCfa v.prof) y x) + 2048) / 4096)

/-- Stage 5 at an offset, mirrored at the edges (R418). -/
def IspView.at5 (v : IspView) (y x : Nat) (dy dx : Int) : Nat := v.s5 (mirrorIdx v.h (y + dy)) (mirrorIdx v.w (x + dx))

def mean2 (a b : Nat) : Nat := (a + b + 1) / 2
def mean4 (a b c d : Nat) : Nat := (a + b + c + d + 2) / 4

/-- Stage 6: demosaic; the values of R, G, B. -/
def IspView.s6 (v : IspView) (y x : Nat) : List Nat :=
  let c := cfaColour (profCfa v.prof) y x
  let own := v.s5 y x
  let l := v.at5 y x 0 (-1)
  let r := v.at5 y x 0 1
  let u := v.at5 y x (-1) 0
  let d := v.at5 y x 1 0
  if c = 1 then [mean2 l r, own, mean2 u d]
  else if c = 2 then [mean2 u d, own, mean2 l r]
  else
    let dh := max l r - min l r
    let dv := max u d - min u d
    let g := if dh < dv then mean2 l r else if dv < dh then mean2 u d else mean4 l r u d
    let diag := mean4 (v.at5 y x (-1) (-1)) (v.at5 y x (-1) 1) (v.at5 y x 1 (-1)) (v.at5 y x 1 1)
    if c = 0 then [own, g, diag] else [diag, g, own]

/-- Stage 7: colour matrix. -/
def IspView.s7 (v : IspView) (y x : Nat) : List Nat :=
  let p := v.s6 y x
  (List.range 3).map (fun i =>
    let sum := (List.range 3).foldl (fun (acc : Int) j => acc + parCcm v.bank i j * ((p.getD j 0 : Nat) : Int)) 0
    (clampInt ((sum + 2048) / 4096 + parCcmOff v.bank i) 0 (maxLin : Int)).toNat)

/-- Stage 8: temporal noise reduction. -/
def IspView.s8 (v : IspView) (y x : Nat) : List Nat :=
  let p := v.s7 y x
  (List.range 3).map (fun ch =>
    let a := p.getD ch 0
    match v.ref ch y x with
    | none => a
    | some r =>
      if parTnr v.bank < max a r - min a r then a
      else ((r : Int) + (((a : Int) - r) * parAlpha v.bank + 128) / 256).toNat)

/-- Stage 9: a tone curve. -/
def toneCurve (bank : List Byte) (ch x : Nat) : Nat :=
  let i := x / 1024
  let t0 := parTone bank ch i
  let t1 := if i = 1023 then 65535 else parTone bank ch (i + 1)
  ((t0 : Int) + (((t1 : Int) - t0) * ((x % 1024 : Nat) : Int) + 512) / 1024).toNat

def IspView.s9 (v : IspView) (y x : Nat) : List Nat :=
  let p := v.s8 y x
  (List.range 3).map (fun ch => toneCurve v.bank ch (p.getD ch 0))

/-! Outputs (R427 to R430). -/

/-- A reduced output pixel of one channel (R427). -/
def OutDesc.box (d : OutDesc) (f : Nat → Nat → List Nat) (ch j i : Nat) : Nat :=
  let k := d.downX + d.downY
  let sum := (List.range (2 ^ d.downY)).foldl (fun acc dy => (List.range (2 ^ d.downX)).foldl (fun acc dx =>
    acc + (f (d.cropY + j * 2 ^ d.downY + dy) (d.cropX + i * 2 ^ d.downX + dx)).getD ch 0) acc) 0
  if k = 0 then sum else (sum + 2 ^ (k - 1)) / 2 ^ k

/-- A 16-bit value as 8 bits (R428). -/
def to8 (v : Nat) : Byte := BitVec.ofNat 8 (min 255 ((v + 128) / 256))

/-- A component of Y, Cb, Cr at 16 bits (R428). -/
def OutDesc.yuv (d : OutDesc) (v : IspView) (c j i : Nat) : Nat :=
  let sum := (List.range 3).foldl (fun (acc : Int) ch => acc + parYuv v.bank c ch * ((d.box v.s9 ch j i : Nat) : Int)) 0
  (clampInt ((sum + 8192) / 16384 + parYuvOff v.bank c) 0 65535).toNat

/-- A chroma sample of a 2×2 group (4:2:0). -/
def OutDesc.chroma (d : OutDesc) (v : IspView) (c j i : Nat) : Nat :=
  mean4 (d.yuv v c (2 * j) (2 * i)) (d.yuv v c (2 * j) (2 * i + 1)) (d.yuv v c (2 * j + 1) (2 * i)) (d.yuv v c (2 * j + 1) (2 * i + 1))

/-- The bytes of one vision element from the 32-bit float u (R429). -/
def visionElem (t vzp : Nat) (u : Word) : List Byte :=
  if t = 0x11 then toLE 2 (toFP16 u)
  else if t = 0x08 then toLE 1 (toE4M3 u)
  else
    let q := (f32ToInt32 u).1.toInt
    if t = 0x02 then toLE 1 (clampInt (q + (vzp : Int)) 0 255).toNat
    else toLE 1 (wrap 8 (clampInt (q + sext 8 vzp) (-128) 127))

/-- The fourth channel and the added pixels: the pad value of R219 (R429). -/
def visionPad (t vzp : Nat) : List Byte := if t = 0x11 then toLE 2 0 else if t = 0x08 then toLE 1 0 else toLE 1 vzp

/-- The four channels of a vision pixel (R429). -/
def OutDesc.vision (d : OutDesc) (raw : List Byte) (v : IspView) (j i : Nat) : List Byte :=
  let vzp := fldBits raw 0xF8 7 0
  (List.range 3).flatMap (fun ch =>
    let x := d.box (if d.tap then v.s7 else v.s9) ch j i
    let u := f32Mul (f32Sub (int32ToF32 (x : Int)) (BitVec.ofNat 32 (fld raw (0xE0 + 4 * ch) 4)))
      (BitVec.ofNat 32 (fld raw (0xEC + 4 * ch) 4))
    visionElem d.vtype vzp u) ++ visionPad d.vtype vzp

/-- The rows of a plane as runs of bytes at a pitch. -/
def planeRows (at_ pitch rows : Nat) (row : Nat → List Byte) : List (Nat × List Byte) :=
  (List.range rows).map (fun j => (at_ + j * pitch, row j))

/-- The rows of a plane of 4 KiB tiles of 128 bytes × n rows (Table 9.10, code 4); `row j` is n bytes of row j. -/
def tiledRows (at_ n w rows : Nat) (row : Nat → List Byte) : List (Nat × List Byte) :=
  (List.range rows).flatMap (fun j =>
    (List.range (cdiv w 128)).map (fun t =>
      (at_ + (j / n * cdiv w 128 + t) * 4096 + j % n * 128, ((row j).drop (128 * t)).take 128)))

/-- The image data of an output as runs of bytes from the data area's start (Table 9.10). -/
def OutDesc.image (d : OutDesc) (raw : List Byte) (v : IspView) : List (Nat × List Byte) :=
  let w := d.width
  let h := d.height
  let cols := fun (n : Nat) (f : Nat → List Byte) => (List.range n).flatMap f
  let rgb := fun (j i : Nat) => (List.range 3).map (fun ch => to8 (d.box v.s9 ch j i))
  let yRow := fun (j : Nat) => cols w (fun i => [to8 (d.yuv v 0 j i)])
  let cRow := fun (j : Nat) => cols (w / 2) (fun i => [to8 (d.chroma v 1 j i), to8 (d.chroma v 2 j i)])
  match d.format with
  | 0 => planeRows 0 d.pitch h (fun j => cols w (rgb j))
  | 1 => planeRows 0 d.pitch h (fun j => cols w (fun i => rgb j i ++ [0]))
  | 2 => planeRows 0 d.pitch h (fun j => cols (w / 2) (fun i =>
      let c := fun (k : Nat) => to8 (mean2 (d.yuv v k j (2 * i)) (d.yuv v k j (2 * i + 1)))
      [to8 (d.yuv v 0 j (2 * i)), c 1, to8 (d.yuv v 0 j (2 * i + 1)), c 2]))
  | 3 => planeRows 0 d.pitch h yRow ++ planeRows (roundUp (h * d.pitch) 4096) d.pitch (h / 2) cRow
  | 4 => tiledRows 0 32 w h yRow ++ tiledRows (cdiv w 128 * cdiv h 32 * 4096) 16 w (h / 2) cRow
  | 5 => planeRows 0 d.pitch h (fun j => cols w (d.vision raw v j))
  | _ => planeRows 0 d.pitch h (fun j => cols (roundUp w 4) (fun i =>
      if i < w then d.vision raw v j i
      else (List.range 4).flatMap (fun _ => visionPad d.vtype (fldBits raw 0xF8 7 0))))

/-! Dependence on filled pixels (R415). -/

/-- The places of stage 5 that stage 6 reads for a pixel. -/
def demosaicOffsets (c : Nat) : List (Int × Int) :=
  if c = 1 ∨ c = 2 then [(0, 0), (0, -1), (0, 1), (-1, 0), (1, 0)]
  else [(0, 0), (0, -1), (0, 1), (-1, 0), (1, 0), (-1, -1), (-1, 1), (1, -1), (1, 1)]

/-- A demosaiced pixel depends on a filled pixel. -/
def IspView.tainted (v : IspView) (y x : Nat) : Bool :=
  (demosaicOffsets (cfaColour (profCfa v.prof) y x)).any (fun a =>
    let y' := mirrorIdx v.h (y + a.1)
    let x' := mirrorIdx v.w (x + a.2)
    (v.px y' x').isNone ||
      dpcOffsets.any (fun b => (v.px (mirrorIdx v.h (y' + b.1)) (mirrorIdx v.w (x' + b.2))).isNone))

/-- An output row depends on a filled pixel; 4:2:0 chroma joins row pairs. -/
def OutDesc.rowTainted (d : OutDesc) (v : IspView) (j : Nat) : Bool :=
  let pair := d.format == 3 || d.format == 4
  let first := if pair then j / 2 * 2 else j
  let n := if pair then 2 else 1
  (rangeFrom (d.cropY + first * 2 ^ d.downY) (n * 2 ^ d.downY)).any (fun y => (rangeFrom d.cropX d.cropW).any (v.tainted y))

/-- VALID_ROWS (R415). -/
def OutDesc.validRows (d : OutDesc) (v : IspView) : Nat :=
  ((List.range d.height).takeWhile (fun j => !d.rowTainted v j)).length

/-! Statistics (R439 to R443). -/

/-- The four stage 3 values of a quad in the order R, Gr, Gb, B; none when one of its pixels is filled (R414). -/
def IspView.quad (v : IspView) (qy qx : Nat) : Option (List Nat) :=
  let at_ := fun (k : Nat) => (2 * qy + k / 2, 2 * qx + k % 2)
  let place := fun (c : Nat) => at_ (c ^^^ profCfa v.prof)
  if (List.range 4).any (fun k => (v.px (at_ k).1 (at_ k).2).isNone) then none
  else some ((List.range 4).map (fun c => v.s3 (place c).1 (place c).2))

/-- The zone column or row of a quad: floor(n·i / k) ≤ q < floor(n·(i + 1) / k). -/
def zoneOf (n k q : Nat) : Nat := ((List.range k).filter (fun i => decide (n * i / k ≤ q) && decide (q < n * (i + 1) / k))).headD 0

def addAt (t : Tbl Nat) (key n : Nat) : Tbl Nat := Tbl.set 0 t key (Tbl.get 0 t key + n)

/-- One quad into the accumulators (R440 to R443). -/
def CamStats.addQuad (a : CamStats) (v : IspView) (qy qx : Nat) : CamStats :=
  match v.quad qy qx with
  | none => a
  | some q =>
    let r := q.getD 0 0
    let gr := q.getD 1 0
    let gb := q.getD 2 0
    let b := q.getD 3 0
    let luma := (r + gr + gb + b + 2) / 4
    let zx := zoneOf (v.w / 2) 16 qx
    let z := 16 * zoneOf (v.h / 2) 12 qy + zx
    let wb := if q.all (fun x => decide (x ≤ profSat v.prof)) then
        addAt (addAt (addAt (addAt a.wb (4 * z) r) (4 * z + 1) (gr + gb)) (4 * z + 2) b) (4 * z + 3) 1
      else a.wb
    let focus := if qx + 1 < v.w / 2 ∧ zoneOf (v.w / 2) 16 (qx + 1) = zx then
        (match v.quad qy (qx + 1) with
          | some n =>
            let x := gr / 256
            let y := n.getD 1 0 / 256
            Tbl.set 0 a.focus z (satAdd (Tbl.get 0 a.focus z) (max x y - min x y) 0xFFFFFFFF)
          | none => a.focus)
      else a.focus
    { hist := addAt a.hist (luma / 4096) 1, wb := wb, focus := focus, luma := addAt (addAt a.luma (2 * z) luma) (2 * z + 1) 1 }

/-- The quads of lines a to a + n − 1. -/
def CamStats.addLines (a : CamStats) (v : IspView) (line n : Nat) : CamStats :=
  (rangeFrom (line / 2) (n / 2)).foldl (fun a qy => (List.range (v.w / 2)).foldl (fun a qx => a.addQuad v qy qx) a) a

/-- The mean luma of a zone, rounding down (R443). -/
def CamStats.mean (a : CamStats) (z : Nat) : Option Nat :=
  let n := Tbl.get 0 a.luma (2 * z + 1)
  if n = 0 then none else some (Tbl.get 0 a.luma (2 * z) / n)

/-- The zones that motion marks, against the references (R443). -/
def CamStats.marked (a : CamStats) (refs : Tbl Nat) (thresh : Nat) : List Nat :=
  (List.range 192).filter (fun z =>
    match a.mean z, Tbl.get 0 refs z with
    | some m, r + 1 => decide (16 * thresh < max m r - min m r)
    | _, _ => false)

/-- The references after a frame (R443). -/
def CamStats.newRefs (a : CamStats) (refs : Tbl Nat) (beta : Nat) : Tbl Nat :=
  (List.range 192).foldl (fun t z =>
    match a.mean z, Tbl.get 0 refs z with
    | some m, 0 => Tbl.set 0 t z (m + 1)
    | some m, r + 1 => Tbl.set 0 t z (((r : Int) + (((m : Int) - r) * beta + 128) / 256).toNat + 1)
    | none, _ => t) refs

/-- The zone mask as a number. -/
def zoneMask (zs : List Nat) : Nat := zs.foldl (fun acc z => acc ||| 2 ^ z) 0

/-- The statistics body (Table 9.14), from offset 0x40 of the slot. -/
def CamStats.body (a : CamStats) (marked : List Nat) : List Byte :=
  (List.range 256).flatMap (fun i => toLE 4 (Tbl.get 0 a.hist i)) ++
  (List.range 192).flatMap (fun z => toLE 8 (Tbl.get 0 a.wb (4 * z)) ++ toLE 8 (Tbl.get 0 a.wb (4 * z + 1)) ++
    toLE 8 (Tbl.get 0 a.wb (4 * z + 2)) ++ toLE 8 (Tbl.get 0 a.wb (4 * z + 3))) ++
  (List.range 192).flatMap (fun z => toLE 4 (Tbl.get 0 a.focus z)) ++
  toLE 24 (zoneMask marked) ++ toLE 4 marked.length

end Sys2Proof.Machine
end

