-- ==== Sys2Proof/Machine/Mgmt.lean ====
section
/-!
DEFINITION. Taking a management request and answering it (R616, R693, R713 to R718).
-/
namespace Sys2Proof.Machine

/-- Who may issue a message (Table 17.5). -/
inductive Issuer where
  | any
  | pf0
  /-- the owner; `ok` says whether the function owns what the message names -/
  | owner (ok : Bool)
  deriving DecidableEq, Repr

def Issuer.allows (i : Issuer) (f : Nat) : Bool :=
  match i with
  | .any => true
  | .pf0 => f == 0
  | .owner ok => ok

/-- A request of a function has been taken: it stands at REQ_HEAD, to which REQ_TAIL moves up where the host has not written it so, and its
reply has a reserved slot (R715, log entry 184). -/
def State.taken (s : State) (f op tag : Nat) : State :=
  let x := s.fn f
  s.setFn f { x with
    reqTail := if x.reqTail = x.reqHead then x.reqTail + 1 else x.reqTail, reqHead := x.reqHead + 1,
    owed := x.owed ++ [{ num := x.reqHead.toNat, op := op, tag := tag, reply := none }] }

/-- Take a request and answer it. A command of a message is the request that stands at REQ_HEAD: REQ_TAIL already covers it when the
host has written it so, and moves past it otherwise (R715, log entry 184). None is taken while written and reserved replies fill the
512 slots (R715); the fatal halt, a missing firmware, a broken format and a function without the right are answered in this order
(R693, R616, R718); `early` marks the messages answered before the firmware runs, `readOnly` those that read the error log and the
spare map, and `ok` the format of the request. -/
def State.request (s : State) (f op tag : Nat) (early readOnly : Bool) (who : Issuer) (ok : Bool)
    (k : State → State) : Res :=
  let x := s.fn f
  if diff32 x.repTail.toNat x.repHead.toNat + x.owed.length = 512 then .next s
  else
    let s := s.taken f op tag
    if s.errs.halted && !readOnly then .next (s.reply f op tag .eFatalHalt)
    else if !s.pwr.fw.running && !early then .next (s.reply f op tag .eFwAbsent)
    else if !ok then .next (s.reply f op tag .eMsgFormat)
    else if !who.allows f then .next (s.reply f op tag .eSecDenied)
    else .next (k s)

/-- A partition named in a message belongs to the function. -/
def State.ownsPart (s : State) (f p : Nat) : Bool :=
  match s.part p with
  | some x => x.fn == f && !x.clearing
  | none => false

end Sys2Proof.Machine
end

