-- ==== Sys2Proof/Machine/Sync.lean ====
section
/-!
DEFINITION. Sync objects: applying signals, waking waiters, and the management messages of R201 (R194 to R201).
-/
namespace Sys2Proof.Machine

/-- The core's WAIT on an object is met by its new value (R198). -/
def Core.wake (c : Core) (i : Nat) (v : Word) : Core :=
  match c.run with
  | .waiting w => if w.sync = i ∧ w.holds v then { c with run := .woken } else c
  | _ => c

/-- The wait set's entries on an object are evaluated against its new value (R785). -/
def WaitSet.see (w : WaitSet) (i : Nat) (v : Word) : WaitSet :=
  if w.entries.any (fun e => e.sync == i && e.holds v) then { w with met := true } else w

/-- The wait of a descriptor (Table 11.10), when WAIT_EN is set. -/
def descWait (raw : List Byte) : Option SyncWait :=
  if bit (fld raw 0xC 4) 16 then
    some { sync := fld raw 0xC 2, eq := bit (fld raw 0xC 4) 17, target := BitVec.ofNat 32 (fld raw 0x10 4) }
  else none

/-- A descriptor that has not started sees the new value of the object it waits on (R198, R527). -/
def Desc.see (d : Desc) (i : Nat) (v : Word) : Desc :=
  match descWait d.raw with
  | some w => if d.phase.unstarted = true ∧ w.sync = i ∧ w.holds v = true then { d with waitMet := true } else d
  | none => d

/-- Evaluate every waiter on an object against its new value (R198). -/
def State.evalWaiters (s : State) (i : Nat) (v : Word) : State :=
  let s := (Tbl.keys s.cpu.cores).foldl (fun s n => s.setCore n ((s.core n).wake i v)) s
  let s := (Tbl.keys s.cpu.clusters).foldl (fun s k =>
    let cl := s.cluster k
    s.setCluster k { cl with waitSets := cl.waitSets.map (fun w => w.see i v) }) s
  (Tbl.keys s.work.ctxs).foldl (fun s n =>
    let c := s.ctx n
    s.setCtx n { c with descs := c.descs.map (fun d => d.see i v) }) s

/-- Give an object a value and evaluate its waiters. -/
def State.putSyncValue (s : State) (i : Nat) (o : SyncObj) (v : Word) : State :=
  (s.setSync { s.cpu.sync with objs := Tbl.put s.cpu.sync.objs i { o with value := v } }).evalWaiters i v

/-- ESC_SYNC of a tier record (Table 13.12). -/
def tierEsc (r : List Byte) : Nat := fld r 2 2

/-- Set an object's value by a message or to begin again: an ESC_SYNC that falls so is seen at its new value, and rises from there (R599). -/
def State.resetSyncValue (s : State) (i : Nat) (o : SyncObj) (v : Word) : State :=
  let s := s.putSyncValue i o v
  { s with pwr := { s.pwr with escSeen := s.pwr.escSeen.map (fun e => match Tbl.find s.pwr.tiers e.1 with
      | some r => if tierEsc r = i ∧ sdiff32 v.toNat e.2.toNat < 0 then (e.1, v) else e
      | none => e) } }

/-- Count a dropped signal against the partition that released it (R200). -/
def State.dropSignal (s : State) (p : Nat) : State :=
  let s := s.setSync { s.cpu.sync with
    dropped := Tbl.set 0 s.cpu.sync.dropped p (Tbl.get 0 s.cpu.sync.dropped p + 1), applied := s.cpu.sync.applied + 1 }
  match Tbl.find s.work.clearings p with
  | some j => { s with work := { s.work with clearings := Tbl.put s.work.clearings p { j with signalsDropped := j.signalsDropped + 1 } } }
  | none => s

/-- Apply a signal to its object; one of an old generation is dropped and counted (R195, R198, R200). The firmware's own signals carry
partition 64. -/
def State.applySignal (s : State) (g : Signal) : State :=
  match s.syncObj g.sync with
  | some o =>
    if g.part == 64 || g.gen == s.gen g.part then
      (s.setSync { s.cpu.sync with applied := s.cpu.sync.applied + 1 }).putSyncValue g.sync o (o.value + BitVec.ofNat 32 g.add)
    else s.dropSignal g.part
  | none => s.dropSignal g.part

/-- SYNC_SIGNAL_APPLY: IOD.FAB applies the i-th released signal (R195, R198, R200). -/
def execSyncSignalApply (i : Nat) (s : State) : Res :=
  if s.errs.halted then .next s else
  match s.cpu.sync.flight[i]? with
  | none => .next s
  | some g => .next ((s.setSync { s.cpu.sync with flight := s.cpu.sync.flight.eraseIdx i }).applySignal g)

/-- A descriptor's DONE_SYNC is released and applied before its record is written (R529); an amount of 0 is no signal. -/
def State.applyDone (s : State) (sync add part gen : Nat) : State :=
  if add = 0 then s
  else (s.setSync { s.cpu.sync with released := s.cpu.sync.released + 1 }).applySignal { sync := sync, add := add, part := part, gen := gen }

/-- The lowest n free sync objects, as many as there are. -/
def State.freeSyncs (s : State) (n : Nat) : List Nat :=
  ((List.range (min 65536 (s.cpu.sync.objs.length + n))).filter (fun i => (s.syncObj i).isNone)).take n

/-- Number of free sync objects. -/
def State.freeSyncCount (s : State) : Nat := 65536 - s.cpu.sync.objs.length

/-- Allocate objects to a partition at its current generation, VALUE 0 (R201). -/
def State.allocSyncs (s : State) (f p : Nat) (pf0 : Bool) (l : List Nat) : State :=
  s.setSync { s.cpu.sync with objs := l.foldl (fun t i =>
    Tbl.put t i { value := 0, fn := f, part := p, gen := s.gen p, pf0 := pf0 }) s.cpu.sync.objs }

/-- The most 16-bit numbers that a message's payload of 480 bytes holds (R714). -/
def syncListMax : Nat := 240

/-- SYNC_ALLOC: allocate sync objects for a partition, all or none (R201). The reply lists their numbers; a count whose list the reply's
payload cannot hold is a wrong message (R714; DESIGN CHOICE, log entry 202). -/
def execSyncAlloc (f tag count p : Nat) (s : State) : Res :=
  s.request f 0x20 tag false false (.owner (s.ownsPart f p)) (decide (count ≤ syncListMax)) (fun s =>
    if s.freeSyncCount < count then s.reply f 0x20 tag .eSyncExhausted
    else
      let l := s.freeSyncs count
      (s.allocSyncs f p false l).reply f 0x20 tag .ok (l.flatMap (toLE 2)))

/-- A function owns every object of a list through one of its partitions. -/
def State.ownsSyncs (s : State) (f : Nat) (l : List Nat) : Bool :=
  l.all (fun i => match s.syncObj i with
    | some o => o.fn == f && !o.pf0
    | none => false)

/-- SYNC_FREE: free the listed sync objects (R201); a list longer than a payload is a wrong LENGTH (R714, R718). -/
def execSyncFree (f tag : Nat) (objs : List Nat) (s : State) : Res :=
  s.request f 0x21 tag false false (.owner (s.ownsSyncs f objs)) (decide (objs.length ≤ syncListMax)) (fun s =>
    (s.setSync { s.cpu.sync with objs := objs.foldl (fun t i => Tbl.del t i) s.cpu.sync.objs }).reply f 0x21 tag .ok)

/-- SYNC_SET: set a sync object's value; its waiters are evaluated (R198, R201). -/
def execSyncSet (f tag i value : Nat) (s : State) : Res :=
  s.request f 0x22 tag false false (.owner (s.ownsSyncs f [i])) true (fun s =>
    match s.syncObj i with
    | some o => (s.resetSyncValue i o (BitVec.ofNat 32 value)).reply f 0x22 tag .ok
    | none => s.reply f 0x22 tag .eSecDenied)

end Sys2Proof.Machine
end

