-- ==== Sys2Proof/Machine/Camera.lean ====
section
/-!
DEFINITION. Receiving frames and running them through an ISP pipe (R390, R394, R402, R403, R408 to R416, R419, R421 to R426, R431 to
R438, R448 to R455).
-/
namespace Sys2Proof.Machine

def State.setMedia (s : State) (m : Media) : State := { s with media := m }

def State.setPort (s : State) (p : Nat) (x : Port) : State := s.setMedia (s.media.setPort p x)

def State.setCam (s : State) (c : Nat) (x : CamCtx) : State := s.setMedia (s.media.setCam c x)

/-! Context record (Table 9.5). -/

def camStripe (r : List Byte) : Bool := bit (fld r 0 4) 14
def camMotion (r : List Byte) : Bool := bit (fld r 0 4) 15
def camRows8 (r : List Byte) : Nat := fldBits r 0 23 16
def camFsync (r : List Byte) : Option Nat := if bit (fld r 0 4) 26 then some (fldBits r 0 25 24) else none
def camRawSlots (r : List Byte) : Nat := fldBits r 4 11 8
def camRate (r : List Byte) : Nat := fld r 6 2
def camRawBase (r : List Byte) : Nat := fld r 8 8
def camSlotBytes (r : List Byte) : Nat := fld r 0x10 4
def camTnr (r : List Byte) : Nat := fld r 0x18 8
def camZoneThresh (r : List Byte) : Nat := fld r 0xFA 2
def camBeta (r : List Byte) : Nat := fld r 0xFC 1
def camZoneCount (r : List Byte) : Nat := fld r 0xFD 1
def camMotionFrames (r : List Byte) : Nat := fldBits r 0xFC 19 16

/-- A frame of a context runs in inline mode (R437). -/
def CamFrame.inline (f : CamFrame) (x : CamCtx) : Bool := x.dflt || f.watch.isSome

/-- Lines of a unit of a frame: 8 inline, the stripe height, or the whole frame (R431, R437). -/
def CamCtx.unit (x : CamCtx) (f : CamFrame) : Nat :=
  if f.inline x then 8 else if camStripe x.raw then 8 * camRows8 x.raw else profHeight x.profile

/-! The frame as the pipe sees it. -/

/-- A pixel of a received frame is filled (R412). -/
def pixelFilled (rows : Nat) (fs : List (Nat × Nat)) (y x : Nat) : Bool :=
  decide (rows ≤ y) || fs.any (fun e => e.1 == y && decide (e.2 ≤ x))

/-- Address of a line in the frame's raw slot (R408). -/
def CamCtx.lineAt (x : CamCtx) (f : CamFrame) (y : Nat) : Nat :=
  camRawBase x.raw + f.no % camRawSlots x.raw * camSlotBytes x.raw + y * rawPitch x.profile

/-- The view a pipe has of a frame. -/
def State.camView (s : State) (x : CamCtx) (f : CamFrame) : IspView :=
  let w := profWidth x.profile
  let b := rawBytes (profType x.profile)
  { w := w, h := profHeight x.profile, prof := x.profile, bank := f.bank
    px := fun y c =>
      if pixelFilled f.rows f.filled y c then none
      else if f.inline x then some ((Tbl.get [] f.ring y).getD c 0)
      else some (leNat (s.readMem (x.lineAt f y + c * b) b))
    ref := fun ch y c =>
      if f.tnrOff || pixelFilled x.prevRows x.prevFilled y c then none
      else some (leNat (s.readMem (camTnr x.raw + (y * w + c) * 8) 8) / 2 ^ (20 * ch) % 2 ^ 20) }

/-! Exposure identifiers (R451, R452). -/

/-- Write slot i has a place within the embedded data received (R452). -/
def expThere (prof emb : List Byte) (i : Nat) : Bool := decide (profEmbMap prof i + b2n (profReg16 prof) < emb.length)

/-- The echoed value of write slot i in the embedded data (R452). -/
def expEcho (prof emb : List Byte) (i : Nat) : Nat :=
  let o := profEmbMap prof i
  if profReg16 prof then fld emb o 1 * 256 + fld emb (o + 1) 1 else fld emb o 1

/-- A candidate matches the echo in every slot it uses that EMB_MAP gives an offset; beyond the data received there is no echo. -/
def expMatches (prof emb : List Byte) (writes : List Nat) : Bool :=
  let used := (List.range writes.length).filter (fun i => profEmbMap prof i != 0xFFFF)
  !used.isEmpty && used.all (fun i => expThere prof emb i &&
    expEcho prof emb i == (if profReg16 prof then bits (writes.getD i 0) 31 16 else bits (writes.getD i 0) 23 16))

/-- The request with the largest target, the last completed among equals. -/
def expLatest : List ExpReq → Option ExpReq
  | [] => none
  | e :: es => match expLatest es with
    | some x => if e.target < x.target then some x else some e
    | none => some e

/-- The request with the smallest target. -/
def expEarliest : List ExpReq → Option ExpReq
  | [] => none
  | e :: es => match expEarliest es with
    | some x => if x.target < e.target then some x else some e
    | none => some e

/-- EXP_ID and the flags EXP_REPORTED, EXP_MISPREDICT, EXP_UNMATCHED of a frame (R452). -/
def CamCtx.expId (x : CamCtx) (f : CamFrame) : Nat × Nat :=
  if !profEmb x.profile then (f.pred, 0)
  else
    let zero : ExpReq := { id := 0, target := 0, writes := (List.range 4).map (profExp x.profile) }
    let hits := ((x.reqs.take 16) ++ [zero]).filter (fun e => expMatches x.profile f.emb e.writes)
    match (expLatest (hits.filter (fun e => decide (e.target ≤ f.no)))).orElse (fun _ => expEarliest hits) with
    | some e => (e.id, 64 + (if e.id = f.pred then 0 else 128))
    | none => (f.pred, 256)

/-- Requests that can still matter: the 16 most recent, and of the older ones those whose target is still to come and the one in
force. -/
def pruneReqs (latest : Nat) (l : List ExpReq) : List ExpReq :=
  let old := l.drop 16
  l.take 16 ++ old.filter (fun e => decide (latest < e.target)) ++ (old.find? (fun e => decide (e.target ≤ latest))).toList

/-! Records and outputs. -/

/-- FLAGS of a frame record (Table 9.13). -/
def CamFrame.flags (f : CamFrame) (h expFlags : Nat) : Nat :=
  b2n (decide (f.rows < h) || f.lost) + b2n f.tooLong * 2 + b2n (f.short != 0) * 4 + b2n (f.long != 0) * 8 + b2n (f.bad != 0) * 16 +
    b2n f.feMissing * 32 + expFlags + b2n f.tnrOff * 512

/-- A frame record (Table 9.13). -/
def CamCtx.record (x : CamCtx) (c : Nat) (f : CamFrame) (valid skipped : Nat) : List Byte :=
  let e := x.expId f
  let flags := f.flags (profHeight x.profile) e.2
  toLE 2 (if flags % 64 = 0 then Status.ok.num else Status.okFrameDefect.num) ++ toLE 2 flags ++ toLE 4 f.no ++ toLE 2 e.1 ++
    toLE 2 f.pred ++ toLE 2 f.rows ++ toLE 2 valid ++ toLE 2 f.csiNo ++ toLE 2 skipped ++ toLE 2 (c % 16 + x.on * 16) ++ toLE 2 f.seq ++
    toLE 8 f.tFs ++ toLE 8 f.tFe ++ toLE 2 f.short ++ toLE 2 f.long ++ toLE 2 f.bad ++ toLE 18 0

/-- FRAMES_SKIPPED of an output (R424). -/
def CamCtx.skipped (x : CamCtx) (o : Nat) (f : CamFrame) : Nat := f.no - Tbl.get 0 x.recorded o

/-- A slot of a ring may be written: the m-th frame finds its slot released (R421). -/
def State.slotFree (s : State) (m slots release : Nat) : Bool :=
  decide (m < slots) || decide (0 ≤ sdiff32 (s.syncValue release).toNat (m + 1 - slots))

/-- The outputs that a frame's first unit decides to write (R421, R426). -/
def State.camGoes (s : State) (x : CamCtx) (f : CamFrame) : List Bool :=
  (List.range 4).map (fun o =>
    let d := outDesc x.raw o
    let m := Tbl.get 0 x.written o
    !f.inline x && d.enable && s.slotFree m d.slots d.releaseSync && (!(o == 2 && d.mirror) || s.slotFree m d.slots d.mirrorRelease))

/-- The bytes of an output from the slot's start: data runs first, the record last (R422, R423). -/
def State.camBytes (s : State) (x : CamCtx) (c : Nat) (f : CamFrame) (o : Nat) (marked : List Nat) : List (Nat × List Byte) × List Byte :=
  let v := s.camView x f
  if o = 3 then ([(64, f.stats.body marked)], x.record c f 0 (x.skipped o f))
  else
    let d := outDesc x.raw o
    ((d.image x.raw v).map (fun e => (4096 + e.1, e.2)), x.record c f (d.validRows v) (x.skipped o f))

/-- Write runs and then the record into a slot of device memory (R423, R425). -/
def State.putSlot (s : State) (p at_ : Nat) (runs : List (Nat × List Byte)) (rec : List Byte) : State :=
  let s := runs.foldl (fun s e => s.sliceWrite p (s.gen p) (at_ + e.1) e.2) s
  s.sliceWrite p (s.gen p) at_ rec

/-- Write an output of a frame, with its mirror, and advance the sync objects; an output whose data cannot be completed writes and
signals nothing (R423, R425, R426, R667). -/
def State.camOutput (s : State) (x : CamCtx) (c : Nat) (f : CamFrame) (marked : List Nat) (o : Nat) : State × CamCtx :=
  let d := outDesc x.raw o
  let m := Tbl.get 0 x.written o
  let size := if o = 3 then 8192 else 4096 + d.dataBytes
  let at_ := d.base + m % d.slots * d.slotBytes
  let mirror := o == 2 && d.mirror
  let mat := d.mirrorBase + m % d.slots * d.slotBytes
  let reach := fun (p g a : Nat) => match s.part p with
    | some y => (s.stackedErr y p g a size).isNone && !s.stale p g
    | none => false
  let ok := if d.space = 2 then (s.egressErr x.part at_ size).isNone else reach x.part x.gen at_
  if !ok || s.stale x.part x.gen || (mirror && !reach d.mirrorPart x.mirrorGen mat) then (s, x)
  else
    let (runs, rec) := s.camBytes x c f o marked
    let s := if d.space = 2 then
        let ps := runs.map (fun e => ({ off := e.1, data := e.2, poison := false } : Piece))
        let s := s.egress none x.fn x.part at_ size (joinPieces ps) false
        s.egress none x.fn x.part at_ 64 [{ off := 0, data := rec, poison := false }] false
      else s.putSlot x.part at_ runs rec
    let s := if mirror then s.putSlot d.mirrorPart mat runs rec else s
    let s := s.signal d.frameSync 1 x.part x.gen
    let s := if mirror then s.signal d.mirrorFrame 1 d.mirrorPart x.mirrorGen else s
    (s, { x with written := Tbl.set 0 x.written o (m + 1), recorded := Tbl.set 0 x.recorded o (f.no + 1) })

/-- The reference takes the frame's stage 8 values (Table 9.8, R419). -/
def State.writeRef (s : State) (x : CamCtx) (f : CamFrame) : State :=
  if camTnr x.raw = 0 then s
  else
    let v := s.camView x f
    let bytes := (List.range v.h).flatMap (fun y => (List.range v.w).flatMap (fun c =>
      let p := v.s8 y c
      toLE 8 (p.getD 0 0 + p.getD 1 0 * 2 ^ 20 + p.getD 2 0 * 2 ^ 40)))
    s.sliceWrite x.part x.gen (camTnr x.raw) bytes

/-- The pipe can read the frame's raw slot and reference: no stack is off and no line is poisoned (R298, R317). -/
def State.camReadable (s : State) (x : CamCtx) (f : CamFrame) : Bool :=
  let n := rawFrame x.profile
  let a := x.lineAt f 0
  let t := profWidth x.profile * profHeight x.profile * 8
  s.stacksOn a n && !s.poisoned a n && (camTnr x.raw == 0 || (s.stacksOn (camTnr x.raw) t && !(!f.tnrOff && s.poisoned (camTnr x.raw) t)))

/-- Bytes of stacked memory that the pipe reads for a frame: the lines of each stripe with the 3 halo lines above and below that exist,
and the reference (R419, R432, R433). -/
def State.frameReads (s : State) (x : CamCtx) (f : CamFrame) : State :=
  let h := profHeight x.profile
  let pitch := rawPitch x.profile
  let n := x.unit f
  let s := (List.range (cdiv h n)).foldl (fun (s : State) i =>
    let lo := n * i - (if camStripe x.raw then 3 else 0)
    let hi := min h (n * (i + 1) + (if camStripe x.raw then 3 else 0))
    s.accountStacked none x.part 2 false (x.lineAt f lo) ((hi - lo) * pitch)) s
  if f.tnrOff then s else s.accountStacked none x.part 2 false (camTnr x.raw) (profWidth x.profile * h * 8)

/-- A slice that does not serve for now holds a request of the frame: of its raw slot, its reference or an output (R303, R701). -/
def State.camHeld (s : State) (x : CamCtx) (f : CamFrame) : Bool :=
  !f.inline x && (s.memHeld (x.lineAt f 0) (rawFrame x.profile) ||
    (camTnr x.raw != 0 && s.memHeld (camTnr x.raw) (profWidth x.profile * profHeight x.profile * 8)) ||
    (List.range 4).any (fun o =>
      let d := outDesc x.raw o
      let at_ := Tbl.get 0 x.written o % d.slots * d.slotBytes
      let size := if o = 3 then 8192 else 4096 + d.dataBytes
      f.goes.getD o false &&
        ((d.space == 1 && s.memHeld (d.base + at_) size) || (o == 2 && d.mirror && s.memHeld (d.mirrorBase + at_) size))))

/-- The motion watch makes triggers of this context: in Seed the contexts on the watch pipe, above it those of the watch group, as the
fields of PWR_CFG stood at the last entry to Seed (R455, R570, Table 1.10). -/
def State.watches (s : State) (x : CamCtx) : Bool :=
  if s.pwr.state = 1 then x.watch.isSome
  else decide (2 ≤ s.pwr.state) && s.pwr.watch.map (·.1) == some (x.port / 4)

/-- A context that was asked to stop goes once the pipe has finished its frames (R404). -/
def State.camSettle (s : State) (c : Nat) : State :=
  match s.media.cam c with
  | some x => if x.stopAsked && !x.isOpen && x.frames.isEmpty then s.setMedia (s.media.delCam c) else s
  | none => s

/-- The pipe has finished the oldest frame of a context: outputs, records, reference, motion (R423, R443, R455). -/
def State.finishFrame (s : State) (c : Nat) : State :=
  match s.media.cam c with
  | none => s
  | some x =>
    match x.frames with
    | [] => s
    | f :: rest =>
      let motion := camMotion x.raw
      let marked := if motion then f.stats.marked x.refs (camZoneThresh x.raw) else []
      let moving := if motion && decide (camZoneCount x.raw ≤ marked.length) then x.moving + 1 else 0
      let s := if moving ≠ 0 ∧ moving = camMotionFrames x.raw ∧ s.watches x = true then
          s.setMedia { s.media with triggers := s.media.triggers ++
            [{ owner := x.fn, record := toLE 4 c ++ toLE 4 f.no ++ toLE 24 (zoneMask marked), phrase := false }] }
        else s
      let x' := { x with
        frames := rest, moving := moving,
        refs := if motion then f.stats.newRefs x.refs (camBeta x.raw) else x.refs }
      if f.inline x then
        let x' := if x.dflt then { x' with lastStats := x.record c f 0 0 ++ f.stats.body marked } else x'
        (s.setCam c x').camSettle c
      else if !s.camReadable x f then (s.setCam c { x' with prev := none }).camSettle c
      else
        let go := (List.range 4).filter (fun o => f.goes.getD o false)
        let s := s.frameReads x f
        let r := go.foldl (fun (a : State × CamCtx) o =>
          let b := a.1.camOutput x c f marked o
          (b.1, { a.2 with
            written := Tbl.set 0 a.2.written o (Tbl.get 0 b.2.written o),
            recorded := Tbl.set 0 a.2.recorded o (Tbl.get 0 b.2.recorded o) })) (s, x')
        let s := r.1.writeRef x f
        ((s.setCam c { r.2 with prev := some (f.no, f.seq), prevRows := f.rows, prevFilled := f.filled }).camSettle c)

/-- The frame at the front is through the pipe and closed, and no slice holds a request of it. -/
def State.finishDue (s : State) (c : Nat) : State :=
  match s.media.cam c with
  | some x =>
    match x.frames with
    | f :: _ => if f.closed && f.begun && decide (profHeight x.profile ≤ f.next) && !s.camHeld x f then s.finishFrame c else s
    | [] => s
  | none => s

/-! The receiver. -/

/-- The context whose frame is open on a port and virtual channel. -/
def Media.openCam (m : Media) (port vc : Nat) : Option (Nat × CamCtx) :=
  m.ctxs.find? (fun e => e.2.port == port && e.2.vc == vc && e.2.isOpen)

/-- The context that takes the next frame of a port and virtual channel: a started one before the default. -/
def Media.nextCam (m : Media) (port vc : Nat) : Option (Nat × CamCtx) :=
  m.ctxs.find? (fun e => e.2.port == port && e.2.vc == vc && !e.2.stopAsked && !e.2.suspended)

/-- A packet's virtual channel belongs to a context of the port (R390). -/
def Media.hasCam (m : Media) (port vc : Nat) (dt : Option Nat) : Bool :=
  m.ctxs.any (fun e => e.2.port == port && e.2.vc == vc && (match dt with
    | some t => profType e.2.profile == t
    | none => true))

/-- Count a packet of no context (R390). -/
def State.unmatchedPacket (s : State) (port : Nat) : State :=
  let x := s.media.port port
  s.setPort port { x with unmatched := satAdd x.unmatched 1 0xFFFF }

/-- Change the last frame of a context. -/
def CamCtx.mapLast (x : CamCtx) (g : CamFrame → CamFrame) : CamCtx :=
  { x with frames := x.frames.dropLast ++ (x.frames.getLast?.toList.map g) }

/-- Close the open frame of a context, early or by its frame end (R411, R412, R416). -/
def State.closeFrame (s : State) (c : Nat) (early : Bool) : State :=
  match s.media.cam c with
  | none => s
  | some x =>
    if !x.isOpen then s
    else
      let t := s.stampFor x.fn
      let y := if x.dropping then x else x.mapLast (fun f => { f with closed := true, tFe := t, feMissing := early })
      ((s.setCam c { y with isOpen := false, dropping := false }).finishDue c).camSettle c

/-- Close every open frame of a port (R394, R398, R416). -/
def State.closePort (s : State) (p : Nat) : State :=
  (Tbl.keys s.media.ctxs).foldl (fun s c => match s.media.cam c with
    | some x => if x.port = p then s.closeFrame c true else s
    | none => s) s

/-- The link of a port is up, so packets arrive. -/
def State.portUp (s : State) (p : Nat) : Bool := (s.media.port p).link == 3 && !s.errs.halted

/-- FRAME_START_PACKET: a frame start on a port and virtual channel closes any open frame, counts FRAME_NO, and opens a frame
unless the pipe has not finished the frame in its slot (R409 to R411, R416, R451, R455). A suspended context only counts it (R409,
R456). -/
def execFrameStartPacket (port vc csiNo : Nat) (s : State) : Res :=
  if !s.portUp port then .next s
  else
    let s := match s.media.openCam port vc with
      | some e => s.closeFrame e.1 true
      | none => s
    match s.media.nextCam port vc with
    | none => .next (match s.media.ctxs.find? (fun e => e.2.port == port && e.2.vc == vc && e.2.suspended) with
      | some (c, x) => s.setCam c { x with started := x.started + 1 }
      | none => s.unmatchedPacket port)
    | some (c, x) =>
      let x := if decide (2 ≤ s.pwr.state) then { x with watch := none } else x
      let n := x.started
      let x := { x with started := n + 1, isOpen := true, reqs := pruneReqs n x.reqs }
      if !(x.dflt || x.watch.isSome) && x.frames.any (fun f => f.no % camRawSlots x.raw == n % camRawSlots x.raw) then
        let p := s.media.pipe x.pipe
        .next (s.setMedia ((s.media.setCam c { x with dropping := true }).setPipe x.pipe
          { p with drops := satAdd p.drops 1 0xFFFFFFFF }))
      else
        let pred := match x.reqs.find? (fun e => decide (e.target ≤ n)) with
          | some e => e.id
          | none => 0
        let f : CamFrame :=
          { no := n, csiNo := csiNo, tick := s.host.refTicks, tFs := s.stampFor x.fn, tFe := 0, closed := false, rows := 0,
            short := 0, long := 0, bad := 0, tooLong := false, feMissing := false, filled := [], emb := [], pred := pred,
            ring := [], lost := false, ringBase := match x.frames.getLast? with
              | some g => g.ringBase + min g.rows (profHeight x.profile)
              | none => 0
            next := 0, begun := false, seq := 0, bank := [], tnrOff := true, goes := [], stats := CamStats.zero, watch := x.watch }
        .next (s.setCam c { x with dropping := false, frames := x.frames ++ [f] })

/-- The bytes of a line in the raw slot (R408). -/
def lineBytes (b : Nat) (px : List Nat) : List Byte := px.flatMap (toLE b)

/-- Line n of a context, counted over its frames, is written to the 32-line ring over line n − 32: a line of a frame that the pipe has not
read counts as missing (R437). -/
def CamFrame.ringLose (f : CamFrame) (n : Nat) : CamFrame :=
  if f.ringBase + 32 ≤ n ∧ n < f.ringBase + 32 + f.rows then
    let y := n - 32 - f.ringBase
    let f := { f with ring := Tbl.del f.ring y }
    if f.next ≤ y + 3 then { f with filled := (y, 0) :: f.filled, lost := true } else f
  else f

/-- The receiver writes a line of the open frame into the inline ring (R437). -/
def CamCtx.ringPut (x : CamCtx) (f : CamFrame) (y : Nat) (px : List Nat) : CamCtx :=
  let x := x.mapLast (fun _ => { f with ring := Tbl.put f.ring y px })
  { x with frames := x.frames.map (fun g => if g.inline x then g.ringLose (f.ringBase + y) else g) }

/-- Land a line of the open frame (R408, R412, R413). -/
def State.landLine (s : State) (c : Nat) (x : CamCtx) (f : CamFrame) (px : List Nat) (crcOk : Bool) : State :=
  let w := profWidth x.profile
  let y := f.rows
  if profHeight x.profile ≤ y then s.setCam c (x.mapLast (fun f => { f with tooLong := true }))
  else if !crcOk then s.setCam c (x.mapLast (fun f => { f with rows := y + 1, bad := f.bad + 1, filled := (y, 0) :: f.filled }))
  else
    let px := px.map (fun v => v % 2 ^ rawBits (profType x.profile))
    let n := px.length
    let g := { f with
      rows := y + 1, short := f.short + b2n (decide (n < w)), long := f.long + b2n (decide (w < n)),
      filled := if n < w then (y, n) :: f.filled else f.filled }
    if g.inline x then s.setCam c (x.ringPut g y (px.take w))
    else
      let bytes := lineBytes (rawBytes (profType x.profile)) (px.take w)
      let a := x.lineAt f y
      let ok := match s.part x.part with
        | some p => (s.stackedErr p x.part x.gen a bytes.length).isNone && !s.stale x.part x.gen
        | none => false
      if ok then (s.sliceWrite x.part x.gen a bytes).setCam c (x.mapLast (fun _ => g))
      else s.setCam c (x.mapLast (fun _ => { g with filled := (y, 0) :: f.filled }))

/-- A long packet of a virtual channel, and of a data type for image data: its port's error counters, then its effect `k` on the context
whose frame is open, unless that frame is dropped. `hdr` is 0 for a clean header, 1 for a corrected one, 2 for one that cannot be
corrected (R390). -/
def State.longPacket (s : State) (port vc : Nat) (dt : Option Nat) (hdr : Nat) (crcOk : Bool) (k : Nat → CamCtx → State → State) : Res :=
  if !s.portUp port then .next s
  else
    let p := s.media.port port
    if hdr = 2 then .next (s.setPort port { p with hdrEcc := satAdd p.hdrEcc 1 0xFFFF })
    else
      let s := s.setPort port { p with
        hdrCorrected := if hdr = 1 then satAdd p.hdrCorrected 1 0xFFFF else p.hdrCorrected,
        crcBad := if crcOk then p.crcBad else satAdd p.crcBad 1 0xFFFF }
      if !s.media.hasCam port vc dt then .next (s.unmatchedPacket port)
      else
        match s.media.openCam port vc with
        | some (c, x) => if x.dropping then .next s else .next (k c x s)
        | none => .next s

/-- LINE_PACKET: a long packet of image data. `hdr` is 0 for a clean header, 1 for a corrected one, 2 for one that cannot be
corrected; `crcOk` is false for a packet that fails its CRC or is not recovered (R390, R408, R412, R413, R437). -/
def execLinePacket (port vc dt hdr : Nat) (px : List Nat) (crcOk : Bool) (s : State) : Res :=
  s.longPacket port vc (some dt) hdr crcOk (fun c x s =>
    match x.frames.getLast? with
    | some f => if profType x.profile != dt then s else s.landLine c x f px crcOk
    | none => s)

/-- EMBEDDED_DATA_LINE: the receiver keeps the first 64 KiB of a frame's embedded lines; an embedded line with a bad header is discarded,
and one that fails its CRC or is not recovered is kept as it came and counts as a bad line (R390, R408, R412, R452; DESIGN CHOICE, log
entry 172). -/
def execEmbeddedDataLine (port vc : Nat) (e : EmbLine) (s : State) : Res :=
  s.longPacket port vc none e.hdr.val e.crcOk (fun c x s =>
    s.setCam c (x.mapLast (fun f => { f with emb := (f.emb ++ e.data).take 65536, bad := f.bad + b2n (!e.crcOk) })))

/-- FRAME_END_PACKET: the open frame closes and its missing lines are filled (R411, R412). -/
def execFrameEndPacket (port vc : Nat) (s : State) : Res :=
  if !s.portUp port then .next s
  else
    match s.media.openCam port vc with
    | some (c, _) => .next (s.closeFrame c false)
    | none => if s.media.hasCam port vc none then .next s else .next (s.unmatchedPacket port)

/-! The pipe. -/

/-- The next unit of a context's oldest frame, when it is ready (R431, R437). -/
def CamCtx.readyUnit (x : CamCtx) : Option (CamFrame × Nat) :=
  match x.frames with
  | f :: _ =>
    let h := profHeight x.profile
    let n := x.unit f
    if !x.suspended && decide (f.next < h) && (f.closed || ((f.inline x || camStripe x.raw) && decide (min (f.next + n + 3) h ≤ f.rows))) then
      some (f, min n (h - f.next))
    else none
  | [] => none

/-- The earlier of two candidate units: the earlier frame start, then the lower context number (R431). -/
def earlierUnit (a b : Nat × CamFrame × Nat) : Nat × CamFrame × Nat :=
  if b.2.1.tick < a.2.1.tick ∨ (b.2.1.tick = a.2.1.tick ∧ b.1 < a.1) then b else a

/-- The unit a pipe starts next (R431). -/
def State.nextUnit (s : State) (p : Nat) : Option (Nat × CamFrame × Nat) :=
  let us := s.media.ctxs.filterMap (fun e =>
    if e.2.on = p then (match e.2.readyUnit with
      | some u => some (e.1, u.1, u.2)
      | none => none)
    else none)
  match us with
  | [] => none
  | u :: rest => some (rest.foldl earlierUnit u)

/-- A frame's first unit puts a pending bank in force, settles noise reduction and decides the outputs (R419, R421, R454). -/
def State.beginFrame (s : State) (c : Nat) (x : CamCtx) (f : CamFrame) : State :=
  let x := match x.pend with
    | some (b, q, from_) => if 0 ≤ sdiff32 f.no from_ then { x with bank := b, seq := q, pend := none } else x
    | none => x
  let off := f.inline x || camTnr x.raw == 0 || f.no == 0 || x.prev != some (f.no - 1, x.seq)
  let f := { f with begun := true, seq := x.seq, bank := x.bank, tnrOff := off, goes := s.camGoes x f }
  s.setCam c { x with frames := f :: x.frames.drop 1 }

/-- ISP_UNIT_START: an idle pipe starts the ready unit with the earliest frame start; HOLD starts none (R431, R434, R454, R594). -/
def execIspUnitStart (p : Nat) (s : State) : Res :=
  let pipe := s.media.pipe p
  if s.errs.halted || s.pwr.ledger.hold || pipe.run.isSome || !s.pipeOn p then .next s
  else
    match s.nextUnit p with
    | none => .next s
    | some (c, f, n) =>
      match s.media.cam c with
      | none => .next s
      | some x =>
        let s := if f.begun then s else s.beginFrame c x f
        .next (s.setMedia (s.media.setPipe p { pipe with run := some { ctx := c, line := f.next, len := n }, held := some c }))

/-- ISP_UNIT_END: the running unit ends; its lines enter the statistics, and with the frame's last unit its outputs, records and
signals follow once the frame is closed (R414, R415, R417 to R444). A slice that does not serve holds the unit's end, and the end of a
frame that is due, until it serves again (R303, R701). -/
def execIspUnitEnd (p : Nat) (s : State) : Res :=
  let pipe := s.media.pipe p
  if s.errs.halted then .next s
  else
    match pipe.run with
    | none => .next ((Tbl.keys s.media.ctxs).foldl (fun s c => match s.media.cam c with
      | some x => if x.on = p then s.finishDue c else s
      | none => s) s)
    | some u =>
      let idle := s.setMedia (s.media.setPipe p { pipe with run := none })
      match s.media.cam u.ctx with
      | none => .next idle
      | some x =>
        match x.frames with
        | [] => .next idle
        | f :: rest =>
          if !f.inline x && s.memHeld (x.lineAt f 0) (rawFrame x.profile) then .next s
          else
          let s := idle
          let next := u.line + u.len
          let f := { f with
            next := next, stats := f.stats.addLines (s.camView x f) u.line u.len,
            ring := f.ring.filter (fun e => decide (next ≤ e.1 + 3)) }
          .next ((s.setCam u.ctx { x with frames := f :: rest }).finishDue u.ctx)

/-! The load of a pipe (R436, R742). -/

/-- The load of one context as a fraction over 1.6·10^11, numerator and denominator (R436). -/
def camLoad (raw prof : List Byte) : Nat × Nat :=
  let area := profWidth prof * profHeight prof
  if camStripe raw then
    let n := 8 * camRows8 raw
    (camRate raw * (area * (n + 6) + cdiv (profHeight prof) n * 3200 * n), n)
  else (camRate raw * (area + 3200), 1)

/-- The load of a pipe over the contexts that name it, as a fraction over 1.6·10^11 (R436). -/
def Media.pipeLoad (m : Media) (p : Nat) : Nat × Nat :=
  (m.ctxs.filter (fun e => !e.2.dflt && !e.2.stopAsked && e.2.pipe == p)).foldl (fun a e =>
    let b := camLoad e.2.raw e.2.profile
    (a.1 * b.2 + b.1 * a.2, a.2 * b.2)) (0, 1)

/-- Write LOAD of a pipe in 1/65,536 units (R742, Table 18.14). -/
def State.writeLoad (s : State) (p : Nat) : State :=
  let l := s.media.pipeLoad p
  s.setMedia (s.media.setPipe p { s.media.pipe p with load := min 0xFFFF (l.1 * 65536 / (l.2 * 160000000000)) })

end Sys2Proof.Machine
end

