-- ==== Sys2Proof/Machine/Flags.lean ====
section
/-!
DEFINITION. The sequencer's shared steps and the core flags (R80, R81, R140, R147, R167, R168, R191): fetching an
instruction word, moving past it, stopping issue, aborting a tile.
-/
namespace Sys2Proof.Machine

/-- The flags a tile's end adds to its descriptor (R168, R169). -/
def tileOutcome (sat nonfin : Bool) : Status :=
  if nonfin then .okAccNonfinite else if sat then .okAccSat else .ok

/-- Set the sticky flags of a core (R140, R147). -/
def Core.addFlags (c : Core) (sat nonfin : Bool) : Core :=
  { c with accSat := c.accSat || sat, accNonfin := c.accNonfin || nonfin }

/-- The instruction word at a position of the program, when the buffer holds it. -/
def Core.wordAt (c : Core) (pos : Nat) : Option Nat :=
  if (match c.prog with
      | some p => decide (p.codeBase ≤ pos)
      | none => false) then
    (c.code[pos - (match c.prog with
      | some p => p.codeBase
      | none => 0)]?).map BitVec.toNat
  else none

def opcodeOf (w : Nat) : Nat := bits w 63 56

/-- Instructions of the whole program. -/
def Core.codeEnd (c : Core) : Nat := match c.prog with
  | some p => p.codeWords
  | none => 0

/-- Note core-store ranges that the body of the open tile writes (R191). -/
def Core.note (c : Core) (l : List (Nat × Nat)) : Core := if c.tile.isSome then { c with wrote := l ++ c.wrote } else c

/-- The bytes an aborted body wrote are undefined (R191). -/
def State.undefineBody (s : State) (n : Nat) (l : List (Nat × Nat)) : State :=
  l.foldl (fun s r => s.undefine (coreBase n + r.1) r.2) s

/-- The wait sets of a core can abort nothing any more: the tile they were set in has closed (R785). -/
def Cluster.disarm (c : Cluster) (n : Nat) : Cluster :=
  { c with waitSets := c.waitSets.map (fun w => if w.core = n then { w with timeout := 0 } else w) }

/-- A core abandons the preamble it stands in: its resume point is that tile's TILE (R352). -/
def Core.abandon (c : Core) : Core :=
  match c.tile with
  | some t => { c with run := .running, tile := none, pc := t.pos, commitQ := [], loops := [], mode := 0 }
  | none => c

/-- The cluster controller forgets the wait sets of a core. -/
def State.dropWaits (s : State) (n : Nat) : State :=
  let cl := s.cluster (n / 8)
  s.setCluster (n / 8) { cl with waitSets := cl.waitSets.filter (fun y => !(y.core == n)) }

/-- Note a stop at the descriptor a core works for. -/
def State.noteStop (s : State) (n : Nat) (st : Status) : State :=
  match (s.core n).work with
  | some w => s.setCtx w.ctx ((s.ctx w.ctx).noteStop w.idx n st ((s.core n).lastTile + n * 2 ^ 16))
  | none => s

/-! What a tile releases (R189, R190). -/

/-- The words of a core's tile: from the last TILE up to the present one to the first COMMIT from there on. -/
def Core.tileWords (c : Core) : List Nat :=
  let op := fun (q : Nat) => match c.wordAt q with
    | some w => opcodeOf w
    | none => 0
  let first := ((List.range (c.pc + 1)).reverse.find? (fun q => op q == 1)).getD c.pc
  let last := ((rangeFrom c.pc (c.codeEnd - c.pc)).find? (fun q => op q == 2)).getD c.codeEnd
  (rangeFrom first (last - first)).filterMap c.wordAt

/-- The signal that a MOVE descriptor releases when its move ends. -/
def moveSignal (m : List Byte) : List (Nat × Nat) := if fld m 0x36 2 = 0 then [] else [(fld m 0x34 2, fld m 0x36 2)]

/-- The signal of an instruction word of a core's tile: object and amount. -/
def State.wordSignal (s : State) (n w : Nat) : List (Nat × Nat) :=
  if opcodeOf w = 4 then [(bits w 15 0, bits w 47 32)]
  else if opcodeOf w = 5 then moveSignal (s.readMem (coreBase n + 64 * bits w 14 0) 64)
  else []

/-- A list of words as it runs: each LOOP's body its count of times, at most 17, one more than the commit queue holds (R189, R781). -/
def unrolled : Nat → List Nat → List Nat
  | 0, l => l
  | _, [] => []
  | fuel + 1, w :: l =>
    if opcodeOf w = 8 then
      let len := bits w 39 24
      (List.replicate (min 17 (bits w 23 0)) (unrolled fuel (l.take len))).flatten ++ unrolled fuel (l.drop len)
    else w :: unrolled fuel l

/-- What the core's open tile releases. The words alone tell it where the tile has no BRANCH and no LOOP with its count in a register. -/
def State.tilePlan (s : State) (n : Nat) : TilePlan :=
  let c := s.core n
  let ws := c.tileWords
  { queued := c.commitQ.flatMap (fun e => match e with
      | .signal i v => [(i, v)]
      | .move m => moveSignal m)
    words := ws.flatMap (s.wordSignal n)
    whole := if ws.any (fun w => opcodeOf w == 9 || (opcodeOf w == 8 && bits w 53 49 != 0)) then none
      else some ((unrolled ws.length ws).flatMap (s.wordSignal n)) }

/-- A list of signals is one that a tile of a plan releases: the whole of it where the words tell it, and otherwise at most sixteen of its
words' signals, with those that stand in the commit queue first (R189; log entry 54). -/
def TilePlan.releases (x : TilePlan) (signals : List (Nat × Nat)) : Bool :=
  match x.whole with
  | some l => signals == l
  | none => x.queued.isPrefixOf signals && signals.all x.words.contains && decide (signals.length ≤ 16)

/-- Abort the open tile before commit with a status, or end the program with it outside a tile: the commit queue and
the flags are discarded, the bytes the body wrote are undefined, the core stops and its status is held for the cluster controller (R80, R125, R169, R191). -/
def State.abortTile (s : State) (n : Nat) (st : Status) : State :=
  let c := s.core n
  let plan := s.tilePlan n
  let s := ((s.noteStop n st).modeUp n).undefineBody n c.wrote
  let s := s.setCore n { c with
    run := .stopped st, commitQ := [], tile := none, loops := [], accSat := false, accNonfin := false, mode := 0,
    wrote := [], plan := plan }
  let k := n / 8
  let cl := s.cluster k
  s.setCluster k { cl with waitSets := cl.waitSets.filter (fun w => !(w.core == n)) }

/-- Stop issue under R80. -/
def State.stopIllegal (s : State) (n : Nat) : State := s.abortTile n .eSeqIllegal

/-- Where issue goes on from position pos: an open loop whose body ends there runs again or closes (R781). -/
def landing : List LoopFrame → Nat → Nat × List LoopFrame
  | [], pos => (pos, [])
  | f :: fs, pos =>
    if pos = f.start + f.len then
      if 1 < f.left then (f.start, { f with left := f.left - 1 } :: fs) else landing fs pos
    else (pos, f :: fs)

/-- Continue at a position; past the last instruction the program ends, or stops under R80 with a TILE open
(R188, R346). -/
def State.continueAt (s : State) (n : Nat) (c : Core) (pos : Nat) : State :=
  let (pos', loops) := landing c.loops pos
  let c := { c with pc := pos', loops := loops }
  if c.codeEnd ≤ pos' then
    if c.tile.isSome then (s.setCore n c).stopIllegal n
    else s.setCore n { c with run := .ended, loops := [] }
  else s.setCore n c

/-- Move past the instruction just issued. -/
def State.advance (s : State) (n : Nat) (c : Core) : State := s.continueAt n c (c.pc + 1)

/-- A core can issue: it runs, and the islands have not been halted (R692). -/
def State.issuing (s : State) (n : Nat) : Bool := (s.core n).run == .running && !s.errs.halted

/-- Issue the instruction at a core's position when it carries the opcode of the command; otherwise the command's
event does not occur and nothing changes (log entry 5). -/
def State.issue (s : State) (n op : Nat) (f : Core → Nat → State) : Res :=
  let c := s.core n
  if s.issuing n then
    match c.wordAt c.pc with
    | some w => if opcodeOf w = op then .next (f c w) else .next s
    | none => .next s
  else .next s

/-- Bits set outside the fields of an encoding (R25, R80). -/
def reservedSet (w mask : Nat) : Bool := (w &&& ((2 ^ 64 - 1) ^^^ mask)) != 0

/-- Issue an instruction of a tile's body or its COMMIT: the first of them begins the body (R188), which needs a WAIT on
every WAITSET proxy before it (R785); outside every tile it stops issue (R782). -/
def State.inTile (s : State) (n : Nat) (c : Core) (f : Core → State) : State :=
  match c.tile with
  | none => s.stopIllegal n
  | some t => if t.proxies.isEmpty then f { c with tile := some { t with inBody := true } } else s.stopIllegal n

/-- Issue a body instruction; the first of a tile waits while the window is on HOLD (R594). -/
def State.inBody (s : State) (n : Nat) (c : Core) (f : Core → State) : State :=
  match c.tile with
  | some t => if !t.inBody && s.pwr.ledger.hold then s else s.inTile n c f
  | none => s.inTile n c f

/-- A core stands at the first body instruction of a new tile while the window is on HOLD: it waits as in a preamble (R594). -/
def State.heldAtBody (s : State) (n : Nat) : Bool :=
  let c := s.core n
  s.pwr.ledger.hold && c.run == .running &&
    (match c.tile, c.wordAt c.pc with
    | some t, some w => !t.inBody && decide (4 ≤ opcodeOf w) && opcodeOf w != 7
    | _, _ => false)

/-- Issue an instruction that may stand outside tiles as well (R782). -/
def State.anyPlace (s : State) (n : Nat) (c : Core) (f : Core → State) : State :=
  match c.tile with
  | none => f c
  | some _ => s.inBody n c f

end Sys2Proof.Machine
end

