-- ==== Sys2Proof/Machine/Program.lean ====
section
/-!
DEFINITION. Window geometry and program loading (R183 to R186, R211, R214 to R218, R342, R348, R586, R786).
-/
namespace Sys2Proof.Machine

/-! Window geometry (Table 5.1). -/

/-- An output dimension (R216). -/
def outDim (inp padA padB dil k stride : Nat) : Nat :=
  let span := dil * (k - 1) + 1
  if inp + padA + padB < span then 0 else (inp + padA + padB - span) / stride + 1

/-- H_OUT and W_OUT of a geometry record. -/
def geomOut (r : List Byte) : Nat × Nat :=
  (outDim (fld r 0 2) (fld r 0x10 1) (fld r 0x11 1) (fld r 0xC 1) (fld r 8 1) (fld r 0xA 1),
   outDim (fld r 2 2) (fld r 0x12 1) (fld r 0x13 1) (fld r 0xD 1) (fld r 9 1) (fld r 0xB 1))

def inRange (x lo hi : Nat) : Bool := decide (lo ≤ x) && decide (x ≤ hi)

/-- A geometry record with H_OUT and W_OUT written, as the cluster controller keeps it (R217, R218). An output dimension above 65,535, which
padding beside H_IN or W_IN near 65,535 can give, is cut to its 16-bit field (DESIGN CHOICE, log entry 191). -/
def geomFilled (r : List Byte) : List Byte := putBytes r 0x1C (toLE 2 (geomOut r).1 ++ toLE 2 (geomOut r).2)

/-- DETAIL0 of OK_EMPTY: H_OUT and W_OUT of a record, each cut to its 16-bit field (R217; DESIGN CHOICE, log entry 191). -/
def geomDetail (r : List Byte) : Nat := (geomOut r).1 % 2 ^ 16 + (geomOut r).2 % 2 ^ 16 * 2 ^ 16

/-- The checks of R215 on one record. -/
def geomOk (r : List Byte) : Bool :=
  let cIn := fld r 4 2
  let cOut := fld r 6 2
  let grp := fld r 0xE 2
  let op := fldBits r 0x14 1 0
  inRange (fld r 0 2) 1 65535 && inRange (fld r 2 2) 1 65535 && inRange cIn 1 65535 && inRange cOut 1 65535 &&
  inRange (fld r 8 1) 1 31 && inRange (fld r 9 1) 1 31 && inRange (fld r 0xA 1) 1 16 && inRange (fld r 0xB 1) 1 16 &&
  inRange (fld r 0xC 1) 1 16 && inRange (fld r 0xD 1) 1 16 && inRange grp 1 65535 &&
  cIn % grp == 0 && cOut % grp == 0 && op != 3 && fldBits r 0x14 31 3 == 0 && fld r 0x18 4 == 0 &&
  (op == 0 || cIn == cOut)

/-! The image (Table 4.4). -/

/-- The end of the last part of an image, from its header and live table (R184). -/
def imageEnd (img : List Byte) : Nat :=
  let code := 0x40 + fld img 0xC 4
  let lt := fld img 0x18 4
  let n := fld img 0x1C 4
  let lists := (List.range n).map (fun i =>
    if fld img (lt + 8 * i) 4 = 0 then 0 else fld img (lt + 8 * i + 4) 4 + 8 * fld img (lt + 8 * i) 4)
  let geom := if fld img 0x28 1 = 0 then 0 else fld img 0x24 4 + 32 * fld img 0x28 1
  lists.foldl max (max code (max (if n = 0 then 0 else lt + 8 * n) geom))

/-- The range list of a live-table entry (R186). -/
def liveEntry (img : List Byte) (i : Nat) : List (Nat × Nat) :=
  let lt := fld img 0x18 4
  let off := fld img (lt + 8 * i + 4) 4
  (List.range (fld img (lt + 8 * i) 4)).map (fun j => (fld img (off + 8 * j) 4, fld img (off + 8 * j + 4) 4))

/-- A range obeys R186. -/
def liveRangeOk (r : Nat × Nat) : Bool :=
  r.1 % 64 == 0 && r.2 % 64 == 0 && decide (r.1 + r.2 ≤ coreStoreBytes)

/-- The checks of R184 on an image whose bytes up to its end are given. -/
def imageOk (img : List Byte) : Bool :=
  let codeBytes := fld img 0xC 4
  let feats := fld img 0x20 4
  let lt := fld img 0x18 4
  let n := fld img 0x1C 4
  let liveBytes := fld img 0x10 4
  let e := imageEnd img
  fld img 0 4 == 0x33435450 && fld img 4 2 == 0x0300 && fld img 6 2 == 0 && fldBits img 8 31 2 == 0 &&
  codeBytes % 8 == 0 && decide (liveBytes ≤ 262144) && decide (fld img 0x14 4 ≤ 8192) &&
  (decide (codeBytes ≤ 16384) || bit feats 2) && bits feats 31 8 == 0 && lt % 8 == 0 &&
  (n == 0 || decide (0x40 ≤ lt)) && fldBits img 0x28 31 8 == 0 && zeroBytes img 0x2C 16 &&
  (fld img 0x28 1 == 0 || decide (0x40 ≤ fld img 0x24 4)) &&
  (List.range n).all (fun i =>
    let l := liveEntry img i
    (l.isEmpty || decide (0x40 ≤ fld img (lt + 8 * i + 4) 4)) && l.all liveRangeOk &&
      decide (l.foldl (fun acc r => acc + r.2) 0 ≤ liveBytes)) &&
  fld img 0x3C 4 == crc32 ((img.take e).drop 0x40)

/-- The geometry records of an image. -/
def imageGeoms (img : List Byte) : List (List Byte) :=
  (List.range (fld img 0x28 1)).map (fun i => slice img (fld img 0x24 4 + 32 * i) 32)

/-- The instruction words of an image. -/
def imageCode (img : List Byte) : List Dword :=
  (List.range (fld img 0xC 4 / 8)).map (fun i => BitVec.ofNat 64 (fld img (0x40 + 8 * i) 8))

/-- The bytes of an image that a device-memory read of it covers, as its header and live table give them. -/
def State.imageSpan (s : State) (addr : Nat) : Nat :=
  let h := s.readMem addr 0x40
  let lt := if fld h 0x1C 4 = 0 then 0 else fld h 0x18 4 + 8 * fld h 0x1C 4
  let n1 := max 0x40 (max (0x40 + fld h 0xC 4) lt)
  max n1 (imageEnd (s.readMem addr n1))

/-- The read of an image has to wait for a repair, or for a link that retrains: condition 2 of R361 fails (R317, R361, R501). -/
def State.imageTroubled (s : State) (part : Part) (iova : Bool) (addr : Nat) : Bool :=
  if iova then (s.link (s.linkOf part.fn)).retraining else s.memRepairing addr 0x40 || s.memRepairing addr (s.imageSpan addr)

/-- The read of an image has to wait: for that, or for a stack at 105 °C or more (R303). -/
def State.imageHeld (s : State) (part : Part) (iova : Bool) (addr : Nat) : Bool :=
  s.imageTroubled part iova addr || (!iova && (s.memHeld addr 0x40 || s.memHeld addr (s.imageSpan addr)))

/-- The read requests of an image in host memory: its header, and, once the host has answered that, the rest (R206, R331). -/
def State.imageReads (s : State) (part : Part) (iova : Bool) (addr : Nat) (host : HostRead) : State :=
  if !iova then s
  else
    let d := hostBytes host
    if d.length < 0x40 then s.hostRead part.fn addr 0x40
    else (s.hostRead part.fn addr 0x40).hostRead part.fn (addr + 0x40) (imageEnd d - 0x40)

/-- Read an image at its address: from device memory as the tile mover of the core's cluster reaches it, or as the host
answers (R115, R184); under an old generation stacked memory answers with poison (R205, R309). An empty live table or range
list names no bytes. An image that both cannot be read and breaks its format fails as unreadable (DESIGN CHOICE, log entry 25). -/
def State.readImage (s : State) (part : Part) (p gen k : Nat) (iova : Bool) (addr : Nat) (host : HostRead) :
    Except Status (List Byte) :=
  if iova then
    match host with
    | .refused => .error .eIovaFault
    | .data d => if d.length < 0x40 ∨ d.length < imageEnd d then .error .eIovaFault else .ok d
  else
    let err := fun n => (s.reachErr part p gen k false addr n).orElse (fun _ =>
      if s.stale p gen ∧ addr < stackedEnd then some .eMemPoison else none)
    match err 0x40 with
    | some e => .error e
    | none =>
      let h := s.readMem addr 0x40
      let lt := if fld h 0x1C 4 = 0 then 0 else fld h 0x18 4 + 8 * fld h 0x1C 4
      let n1 := max 0x40 (max (0x40 + fld h 0xC 4) lt)
      let n2 := s.imageSpan addr
      match (err n1).orElse (fun _ => err n2) with
      | some e => .error e
      | none => if s.poisoned addr n2 then .error .eMemPoison else .ok (s.readMem addr n2)

/-- Count the bytes of an image that was read (R374, R375). -/
def State.countImage (s : State) (ctx p k : Nat) (iova : Bool) (addr n : Nat) : State :=
  if iova then (s.account (some ctx) p 3 n).account (some ctx) p 5 n
  else if addr < stackedEnd then s.accountStacked (some ctx) p (k / 8) false addr n
  else s

/-! Overlays (Table 4.8 bit 2): each starts at a TILE and holds at most 2,048 instructions. -/

def isTileWord (w : Dword) : Bool := opcodeOf w.toNat == 1

/-- The length of the overlay that starts at the head of a code list: the longest prefix of at most 2,048 words that
ends at a TILE, or all of it; where no TILE follows within 2,048 words the overlay ends inside the tile (DESIGN CHOICE, log entry 24). -/
def overlayLen (code : List Dword) : Nat :=
  if code.length ≤ 2048 then code.length
  else (((rangeFrom 1 2048).reverse).find? (fun e => match code[e]? with
    | some w => isTileWord w
    | none => false)).getD 2048

/-- The start of the overlay that holds a position. -/
def overlayStart (fuel : Nat) (code : List Dword) (base pos : Nat) : Nat :=
  match fuel with
  | 0 => base
  | fuel + 1 =>
    let l := overlayLen (code.drop base)
    if l = 0 ∨ pos < base + l then base else overlayStart fuel code (base + l) pos

/-! Loading. -/

def State.desc (s : State) (ctx idx : Nat) : Option Desc := (s.ctx ctx).descs.find? (fun d => d.idx == idx)

/-- Change a descriptor of a context. -/
def State.setDesc (s : State) (ctx idx : Nat) (f : Desc → Desc) : State :=
  let c := s.ctx ctx
  s.setCtx ctx { c with descs := c.descs.map (fun d => if d.idx = idx then f d else d) }

/-- The cores that work for a descriptor. -/
def State.descCores (s : State) (ctx idx : Nat) : List Nat :=
  (Tbl.keys s.cpu.cores).filter (fun n => match (s.core n).work with
    | some w => w.ctx == ctx && w.idx == idx
    | none => false)

/-- Free a core from its work, its program with it; a core that holds a resume block counts as yielded (R343, R349), and one with a
Minuet request open yields without a save (R353, R355). -/
def State.freeCore (s : State) (n : Nat) : State :=
  let c := s.core n
  ((s.yieldOpen n).modeUp n).setCore n { c with
    run := if c.resume.isSome then .yielded else .idle, work := none, prog := none, code := [], pc := 0, tile := none,
    commitQ := [], loops := [], minuetReq := false, mode := 0 }

/-- Halt a context with a status and tell its function (R358, R359, Table 18.17). -/
def State.haltCtx (s : State) (n : Nat) (st : Status) : State :=
  let c := s.ctx n
  let s := s.setCtx n { c with halted := true }
  let f := s.ctxFn n
  (s.event f .contextHalted (toLE 4 (n + st.num * 2 ^ 16))).sendMsg f c.entry

/-- A load fails: the descriptor runs on none of its cores, its record is due with the status and the context halts
(R786). -/
def State.failLoad (s : State) (ctx idx n : Nat) (st : Status) : State :=
  let s := (s.descCores ctx idx).foldl State.freeCore s
  let s := s.setDesc ctx idx (fun d => { d with
    phase := .ended, status := st, detail0 := 0xFFFF + n * 2 ^ 16, detail1 := 0 })
  s.haltCtx ctx st

/-- The descriptor ends without running: a geometry check failed, or an output dimension is zero (R215, R217). -/
def State.endUnrun (s : State) (ctx idx : Nat) (st : Status) (detail0 : Nat) : State :=
  let s := (s.descCores ctx idx).foldl State.freeCore s
  s.setDesc ctx idx (fun d => { d with phase := .ended, status := st, detail0 := detail0 })

/-- The deepest mode that the cluster firmware permits a core as it loads a program: its own choice, 1 at most for a REALTIME program
(R584, R586). -/
def allowFor (rt : Bool) : Nat := if rt then Config.unstatedField 3 % 2 else Config.unstatedField 4 % 4

/-- Put a checked image into a core: compatibility mode, ALLOW, s30 and s31, a0 and the first overlay (R106, R218,
R586, Table 11.11). -/
def Core.load (c : Core) (img : List Byte) (iova : Bool) (addr arg : Nat) : Core :=
  let code := imageCode img
  let geoms := imageGeoms img
  let rt := bit (fld img 8 4) 1
  let p : Program := {
    compat := bit (fld img 8 4) 0, realtime := rt, features := fld img 0x20 4, liveBytes := fld img 0x10 4,
    codeWords := code.length, codeBase := 0, live := (List.range (fld img 0x1C 4)).map (liveEntry img),
    iova := iova, imageBase := addr, words := code }
  let c := { c with
    run := .loaded, prog := some p, code := code.take (overlayLen code), pc := 0, loops := [], tile := none,
    commitQ := [], compat := p.compat, allow := allowFor rt, mode := 0 }
  let c := c.setAreg 0 (BitVec.ofNat 48 arg)
  match geoms.getLast? with
  | some g => (c.setSreg 30 (BitVec.ofNat 32 (geomOut g).1)).setSreg 31 (BitVec.ofNat 32 (geomOut g).2)
  | none => c

/-- A loaded core begins its program; a program without instructions ends at once (R346). -/
def Core.start (c : Core) : Core := { c with run := if c.codeEnd = 0 then .ended else .running }


/-- When every core of a descriptor is loaded, all of them begin (R345). -/
def State.startIfLoaded (s : State) (ctx idx : Nat) : State :=
  let cs := s.descCores ctx idx
  if cs.all (fun n => (s.core n).run == .loaded) then cs.foldl (fun s n => s.setCore n (s.core n).start) s else s

/-- The status of the checks that precede a load, in the order: format, unsupported feature, class, live size. Sparse weights and
collectives (bits 3 and 5) are given no form that a load could check (log entry 164). -/
def loadErr (img : List Byte) (part : Part) (realtimeCtx : Bool) : Option Status :=
  let rt := bit (fld img 8 4) 1
  if !imageOk img then some .eProgramFormat
  else if bits (fld img 0x20 4) 7 6 != 0 then some .ePtcUnsupported
  else if rt != realtimeCtx then some .eContextClass
  else if !rt && part.save64k != 0 && decide (part.save64k * 65536 < fld img 0x10 4) then some .eLiveSize
  else none

/-- The geometry check of R215 failed on some record, GEOM_OFFSET is not aligned, or the records run beyond the image. With
GEOM_COUNT 0 the offset names no record and is not looked at further (DESIGN CHOICE, log entry 203). -/
def geomErr (img : List Byte) : Bool :=
  fld img 0x24 4 % 32 != 0 || (fld img 0x28 1 != 0 && (decide (img.length < fld img 0x24 4 + 32 * fld img 0x28 1) ||
    !(imageGeoms img).all geomOk))

/-- The cluster controller keeps the geometry records it has checked, their output dimensions written (R217, R218). -/
def State.keepGeoms (s : State) (k : Nat) (rs : List (List Byte)) : State :=
  if rs.isEmpty then s else s.setCluster k { s.cluster k with geoms := rs.map geomFilled }

/-- A program that sets compatibility mode puts its core into freeze mode: condition 0 of R361 fails in the partition (R103, R361). -/
def State.noteCompat (s : State) (n p : Nat) : State := if (s.core n).compat then s.wcetVoid 0 p else s

/-- Load one core of a started compute descriptor (R103, R184, R215 to R218, R786); a read of the image that a slice or a retraining
link holds leaves the core unloaded (R303, R317, R501). -/
def State.loadCore (s : State) (n : Nat) (host : HostRead) : State :=
  let c := s.core n
  match c.work, c.run with
  | some w, .idle =>
    match s.desc w.ctx w.idx, s.part w.part with
    | some d, some part =>
      let iova := bit (fld d.raw 0 4) 11
      let addr := fld d.raw 0x20 8
      let rtCtx := bit (s.ctx w.ctx).cfg.toNat 30
      if s.imageHeld part iova addr then s.waitsOn w.part (s.imageTroubled part iova addr) else
      let s := s.imageReads part iova addr host
      match s.readImage part w.part w.gen (n / 8) iova addr host with
      | .error e => s.failLoad w.ctx w.idx n e
      | .ok img =>
        let s := s.countImage w.ctx w.part (n / 8) iova addr img.length
        match loadErr img part rtCtx with
        | some e => s.failLoad w.ctx w.idx n e
        | none =>
          if geomErr img then s.endUnrun w.ctx w.idx .eWindowGeometry 0
          else
            let s := s.keepGeoms (n / 8) (imageGeoms img)
            match (imageGeoms img).find? (fun g => (geomOut g).1 == 0 || (geomOut g).2 == 0) with
            | some g => s.endUnrun w.ctx w.idx .okEmpty (geomDetail g)
            | none =>
              ((s.setCore n (c.load img iova addr (fld d.raw 0x28 6))).noteCompat n w.part).startIfLoaded w.ctx w.idx
    | _, _ => s
  | _, _ => s

/-- PROGRAM_LOAD: the cluster controller checks a core-program image and loads it into a core that a started compute
descriptor holds (R184). -/
def execProgramLoad (n : Nat) (host : HostRead) (s : State) : Res :=
  if s.errs.halted then .next s else .next (s.loadCore n host)

/-- OVERLAY_LOAD: the cluster controller loads the overlay that holds the core's position, at a tile boundary (R211,
Table 4.8 bit 2). -/
def execOverlayLoad (n : Nat) (host : HostRead) (s : State) : Res :=
  if s.errs.halted then .next s else
  let c := s.core n
  match c.prog, c.work with
  | some p, some w =>
    if s.issuing n && c.tile.isNone && (c.wordAt c.pc).isNone && decide (c.pc < p.codeWords) && bit p.features 2 then
      match s.part w.part with
      | some part =>
        if s.imageHeld part p.iova p.imageBase then .next (s.waitsOn w.part (s.imageTroubled part p.iova p.imageBase)) else
        let s := s.imageReads part p.iova p.imageBase host
        match s.readImage part w.part w.gen (n / 8) p.iova p.imageBase host with
        | .error e => .next (s.abortTile n e)
        | .ok img =>
          let code := imageCode img
          let b := overlayStart 65536 code 0 c.pc
          let rest := code.drop b
          let s := s.countImage w.ctx w.part (n / 8) p.iova p.imageBase img.length
          .next (s.setCore n { c with prog := some { p with codeBase := b, words := code }, code := rest.take (overlayLen rest) })
      | none => .next s
    else .next s
  | _, _ => .next s

end Sys2Proof.Machine
end

