-- ==== Sys2Proof/Machine/Post.lean ====
section
/-!
DEFINITION. The post engine (R242 to R253, R780).
-/
namespace Sys2Proof.Machine

/-- Bytes of one input element (Table 5.6, IN_TYPE). -/
def postElt (r : List Byte) : Nat := match fldBits r 0x20 6 5 with
  | 0 => 4
  | 1 => 2
  | _ => 1

def postCand (r : List Byte) : Nat := fldBits r 0x18 16 0
def postClass (r : List Byte) : Nat := fldBits r 0x1C 10 0
def postRow (r : List Byte) : Nat := fld r 0x1E 2
def postDecode (r : List Byte) : Nat := fldBits r 0x20 1 0
def postObj (r : List Byte) : Bool := bit (fld r 0x20 4) 4
def postKeep (r : List Byte) : Nat := fldBits r 0x2C 12 0
def postTopK (r : List Byte) : Nat := let k := fldBits r 0x30 16 0; if k = 0 then 65536 else k
def postLevels (r : List Byte) : Nat := fldBits r 0x20 11 8

/-- The ranges a post descriptor names: input, auxiliary table, output. -/
def postRanges (r : List Byte) : List (Nat × Nat) :=
  [(fld r 0 8, postCand r * postRow r * postElt r),
   (fld r 0x10 8, if postDecode r = 1 then 32 * postCand r else if postDecode r = 2 then 16 * postLevels r else 0),
   (fld r 8 8, 64 + 32 * postKeep r)]

/-- The checks of R243, the grant and alignment of R242 among them. -/
def postOk (part : Part) (r : List Byte) : Bool :=
  let iou := BitVec.ofNat 32 (fld r 0x28 4)
  inRange (postCand r) 1 65536 && fldBits r 0x18 31 17 == 0 && inRange (postClass r) 1 1024 && fldBits r 0x1C 15 11 == 0 &&
  decide (4 + b2n (postObj r) + postClass r ≤ postRow r) && postDecode r != 3 && fldBits r 0x20 6 5 != 3 &&
  (postDecode r != 2 || inRange (postLevels r) 1 8) && fldBits r 0x20 31 12 == 0 &&
  !f32IsNan iou && !f32Lt iou 0 && !f32Lt 0x3F800000 iou && inRange (postKeep r) 1 4096 && fldBits r 0x2C 31 13 == 0 &&
  decide (fldBits r 0x30 16 0 ≤ 65536) && fldBits r 0x30 23 17 == 0 &&
  (postRanges r).all (fun e => e.2 == 0 || (e.1 % 64 == 0 && part.ownsStacked e.1 e.2))

/-- Element e of candidate row n as an FP32 word. -/
def postElem (s : State) (r : List Byte) (n e : Nat) : Word :=
  let z := postElt r
  let raw := leNat (s.readMem (fld r 0 8 + (n * postRow r + e) * z) z)
  match fldBits r 0x20 6 5 with
  | 0 => BitVec.ofNat 32 raw
  | 1 => toF32 (decodeFp fmtFP16 raw)
  | _ =>
    let q := sext 8 raw - sext 8 (fld r 0x33 1)
    toF32 ((Num.fin (decide (q < 0)) q.natAbs 0).mul (ofF32 (BitVec.ofNat 32 (fld r 0x34 4))))

def memWord (s : State) (a : Nat) : Word := BitVec.ofNat 32 (leNat (s.readMem a 4))

/-- A box: x1, y1, x2, y2. -/
structure Box where
  x1 : Word
  y1 : Word
  x2 : Word
  y2 : Word
  deriving DecidableEq, Repr

/-- FP32 one half. -/
def f32Half : Word := 0x3F000000

/-- The level of candidate n: the last entry with FIRST ≤ n (R245). -/
def postLevel (s : State) (r : List Byte) (n : Nat) : Option Nat :=
  ((List.range (postLevels r)).reverse.find? (fun l => decide ((memWord s (fld r 0x10 8 + 16 * l + 8)).toNat ≤ n))).map
    (fun l => fld r 0x10 8 + 16 * l)

/-- The decoded box of candidate n (R245). A candidate below every level's first, or on a level without columns, has no
stated box: free values (log entry 46). -/
def postBox (s : State) (r : List Byte) (n : Nat) : Box :=
  let v := fun i => postElem s r n i
  match postDecode r with
  | 0 => ⟨v 0, v 1, v 2, v 3⟩
  | 1 =>
    let a := fun i => memWord s (fld r 0x10 8 + 32 * n + 4 * i)
    let cx := f32Add (a 0) (f32Mul (f32Mul (v 0) (a 4)) (a 2))
    let cy := f32Add (a 1) (f32Mul (f32Mul (v 1) (a 5)) (a 3))
    let w := f32Mul (a 2) (f32Exp (f32Mul (v 2) (a 6)))
    let h := f32Mul (a 3) (f32Exp (f32Mul (v 3) (a 7)))
    let hw := f32Mul f32Half w
    let hh := f32Mul f32Half h
    ⟨f32Sub cx hw, f32Sub cy hh, f32Add cx hw, f32Add cy hh⟩
  | _ =>
    let free : Box := ⟨Config.freeLane s.draws (4 * n), Config.freeLane s.draws (4 * n + 1),
      Config.freeLane s.draws (4 * n + 2), Config.freeLane s.draws (4 * n + 3)⟩
    match postLevel s r n with
    | none => free
    | some l =>
      let gw := leNat (s.readMem l 2)
      if gw = 0 then free
      else
        let st := memWord s (l + 4)
        let m := n - (memWord s (l + 8)).toNat
        let cx := f32Mul (f32Add (int32ToF32 (m % gw : Nat)) f32Half) st
        let cy := f32Mul (f32Add (int32ToF32 (m / gw : Nat)) f32Half) st
        ⟨f32Sub cx (f32Mul (v 0) st), f32Sub cy (f32Mul (v 1) st), f32Add cx (f32Mul (v 2) st), f32Add cy (f32Mul (v 3) st)⟩

/-- Swap and clip a box (R245). -/
def postFinish (r : List Byte) (b : Box) : Box :=
  let b := if f32Lt b.x2 b.x1 then { b with x1 := b.x2, x2 := b.x1 } else b
  let b := if f32Lt b.y2 b.y1 then { b with y1 := b.y2, y2 := b.y1 } else b
  if bit (fld r 0x20 4) 7 then
    let cl := fun (x : Word) (m : Nat) => f32Min (f32Max x 0) (int32ToF32 (m : Nat))
    ⟨cl b.x1 (fld r 0x38 2), cl b.y1 (fld r 0x3A 2), cl b.x2 (fld r 0x38 2), cl b.y2 (fld r 0x3A 2)⟩
  else b

def f32Sigmoid (x : Word) : Word := f32Rcp (f32Add 0x3F800000 (f32Exp (x ^^^ 0x80000000)))

/-- The scores of candidate n by class (R246). -/
def postScores (s : State) (r : List Byte) (n : Nat) : List Word :=
  let sig := fun x => if bit (fld r 0x20 4) 3 then f32Sigmoid x else x
  let first := 4 + b2n (postObj r)
  (List.range (postClass r)).map (fun c =>
    let v := sig (postElem s r n (first + c))
    if postObj r then f32Mul v (sig (postElem s r n 4)) else v)

/-- A candidate, or (candidate, class) pair, that may be kept. -/
structure PostEntry where
  box : Box
  score : Word
  cand : Nat
  cls : Nat
  deriving DecidableEq, Repr

/-- The highest score and the lowest class that reaches it. -/
def bestClass : List (Nat × Word) → Option (Nat × Word)
  | [] => none
  | (c, w) :: t =>
    match bestClass t with
    | none => some (c, w)
    | some (c', w') => if f32Lt w w' then some (c', w') else some (c, w)

/-- The entries of candidate n, or none when it is invalid (R246, R247). -/
def postEntries (s : State) (r : List Byte) (n : Nat) : Option (List PostEntry) :=
  let b := postBox s r n
  let sc := postScores s r n
  if [b.x1, b.y1, b.x2, b.y2].any f32Nonfinite || sc.any f32Nonfinite then none
  else
    let b := postFinish r b
    let ranked := (List.range sc.length).zip sc
    if bit (fld r 0x20 4) 2 then some (ranked.map (fun e => { box := b, score := e.2, cand := n, cls := e.1 }))
    else some ((bestClass ranked).toList.map (fun e => { box := b, score := e.2, cand := n, cls := e.1 }))

/-- Rank order (R248): a goes before b. -/
def PostEntry.before (a b : PostEntry) : Bool :=
  f32Lt b.score a.score || (!f32Lt a.score b.score &&
    (decide (a.cand < b.cand) || (a.cand == b.cand && decide (a.cls ≤ b.cls))))

def insertEntry (e : PostEntry) : List PostEntry → List PostEntry
  | [] => [e]
  | x :: xs => if e.before x then e :: x :: xs else x :: insertEntry e xs

def rankEntries (l : List PostEntry) : List PostEntry := l.foldr insertEntry []

/-- Kept entry a suppresses entry b (R249). -/
def suppresses (iou : Word) (a b : Box) : Bool :=
  let area := fun (x : Box) => f32Mul (f32Sub x.x2 x.x1) (f32Sub x.y2 x.y1)
  let iw := f32Max 0 (f32Sub (f32Min a.x2 b.x2) (f32Max a.x1 b.x1))
  let ih := f32Max 0 (f32Sub (f32Min a.y2 b.y2) (f32Max a.y1 b.y1))
  let inter := f32Mul iw ih
  f32Lt (f32Mul iou (f32Sub (f32Add (area a) (area b)) inter)) inter

/-- Greedy suppression: kept entries in rank order, and the ranked entries left unexamined when MAX_KEEP is reached
(R249, R250). -/
def postGreedy (iou : Word) (classwise : Bool) (max : Nat) : List PostEntry → List PostEntry → List PostEntry × Nat
  | kept, [] => (kept.reverse, 0)
  | kept, e :: es =>
    if max ≤ kept.length then (kept.reverse, (e :: es).length)
    else if kept.any (fun a => (!classwise || a.cls == e.cls) && suppresses iou a.box e.box) then
      postGreedy iou classwise max kept es
    else postGreedy iou classwise max (e :: kept) es

/-- The result of a run: status, kept entries, N_ABOVE, N_DROPPED, N_INVALID. -/
structure PostResult where
  status : Status
  kept : List PostEntry
  above : Nat
  dropped : Nat
  invalid : Nat
  deriving DecidableEq, Repr

def postRun (s : State) (r : List Byte) : PostResult :=
  let es := (List.range (postCand r)).map (postEntries s r)
  let thr := BitVec.ofNat 32 (fld r 0x24 4)
  let pass := (es.flatMap (fun e => e.getD [])).filter (fun e => !f32IsNan thr && !f32Lt e.score thr)
  let ranked := rankEntries pass
  let top := ranked.take (postTopK r)
  let dropped := ranked.length - top.length
  let (kept, left) := postGreedy (BitVec.ofNat 32 (fld r 0x28 4)) (bit (fld r 0x20 4) 2) (postKeep r) [] top
  { status := if left ≠ 0 then .okPostKeepFull else if dropped ≠ 0 then .okPostCandClipped else .ok,
    kept := kept, above := pass.length, dropped := dropped, invalid := (es.filter (·.isNone)).length }

/-- Record of a kept entry (Table 5.7). -/
def PostEntry.bytes (e : PostEntry) : List Byte :=
  toLE 4 e.box.x1.toNat ++ toLE 4 e.box.y1.toNat ++ toLE 4 e.box.x2.toNat ++ toLE 4 e.box.y2.toNat ++
  toLE 4 e.score.toNat ++ toLE 4 e.cand ++ toLE 8 e.cls

/-- The output header (Table 5.7). -/
def PostResult.header (x : PostResult) : List Byte :=
  toLE 4 x.status.num ++ toLE 4 x.kept.length ++ toLE 4 x.above ++ toLE 4 x.dropped ++ toLE 4 x.invalid ++
  List.replicate 44 0

/-- End a descriptor's work with a status; its record is due. -/
def State.endDesc (s : State) (ctx idx : Nat) (st : Status) : State :=
  s.setDesc ctx idx (fun d => { d with phase := .ended, status := st })

/-- A post descriptor ends with a status and is counted (Table 18.15). -/
def State.endPost (s : State) (j : PostJob) (st : Status) : State :=
  let u := s.cpu.post
  (s.setPost { u with completed := satAdd u.completed 1 0xFFFFFFFF }).endDesc j.ctx j.idx st

/-- POST_DESCRIPTOR_QUEUE: the post engine checks the oldest descriptor handed to it and queues it, when fewer than 32 are
queued (R243, R244, R780). A descriptor that breaks both R243 and the owner check reports E_POST_DESC (DESIGN CHOICE, log entry 199). -/
def execPostDescriptorQueue (s : State) : Res :=
  if s.errs.halted then .next s else
  let u := s.cpu.post
  match u.handed with
  | [] => .next s
  | j :: js =>
    if 32 ≤ u.queue.length then .next s
    else
      let s := s.setPost { u with handed := js }
      match s.part j.part with
      | none => .next s
      | some part =>
        if !postOk part j.raw then .next (s.endPost j .ePostDesc)
        else if fld j.raw 0x3E 2 != 0 && !s.ownsSync j.part j.gen (fld j.raw 0x3C 2) then
          .next (s.endPost j .eSyncOwner)
        else .next (s.setPost { s.cpu.post with queue := s.cpu.post.queue ++ [j] })

/-- POST_DESCRIPTOR_START: the post engine takes the first queued descriptor of the next function in turn (R244). -/
def execPostDescriptorStart (s : State) : Res :=
  if s.errs.halted then .next s else
  let u := s.cpu.post
  match u.run with
  | some _ => .next s
  | none =>
    if s.pwr.ledger.hold then .next s else
    let turn := (List.range 32).map (fun i => (u.last + 1 + i) % 32)
    match turn.findSome? (fun f => u.queue.find? (fun j => j.fn == f)) with
    | none => .next s
    | some j => .next (s.setPost { u with run := some j, queue := u.queue.erase j, last := j.fn })

/-- POST_DESCRIPTOR_COMPLETE: the running descriptor's records and then its header are written and its sync object is
signalled (R251); poison in what it reads fails it with E_MEM_POISON, a stack that does not serve with E_STACK_OFF. It does not end
while a slice holds one of its requests (R303, R701). -/
def execPostDescriptorComplete (s : State) : Res :=
  if s.errs.halted then .next s else
  let u := s.cpu.post
  match u.run with
  | none => .next s
  | some j =>
    if (postRanges j.raw).any (fun e => s.memHeld e.1 e.2) then .next s else
    let s := s.setPost { u with run := none }
    match s.part j.part with
    | none => .next s
    | some part =>
      let r := j.raw
      match (postRanges r).findSome? (fun e => s.stackedErr part j.part j.gen e.1 e.2) with
      | some e => .next (s.endPost j e)
      | none =>
        let ins := (postRanges r).take 2
        if s.stale j.part j.gen || ins.any (fun e => e.2 != 0 && s.poisoned e.1 e.2) then
          .next (s.endPost j .eMemPoison)
        else
          let x := postRun s r
          let out := fld r 8 8
          let recs := x.kept.flatMap PostEntry.bytes
          let s := ins.foldl (fun s e => s.accountStacked (some j.ctx) j.part 2 false e.1 e.2) s
          let s := s.accountStacked (some j.ctx) j.part 2 true out (64 + recs.length)
          let s := ((s.writeMem (out + 64) recs).writeMem out x.header)
          let s := { s with draws := s.draws + 1 }
          .next ((s.signal (fld r 0x3C 2) (fld r 0x3E 2) j.part j.gen).endPost j x.status)

end Sys2Proof.Machine
end

