-- ==== Sys2Proof/Machine/MoveDesc.lean ====
section
/-!
DEFINITION. Move descriptors: their fields, their layout check and the bytes they name (R100, R102, R117, R172 to R174, R178, R182, R221,
R236, R779).
-/
namespace Sys2Proof.Machine

/-- A move descriptor as its 64 bytes give it (Table 4.3). -/
structure MoveDesc where
  src : TDesc
  dst : TDesc
  transpose : Bool
  /-- regrouping factor: 1 none, 2 or 4 -/
  s2d : Nat
  padFill : Bool
  decrypt : Bool
  mask : Nat
  padT : Nat
  padB : Nat
  padL : Nat
  padR : Nat
  sync : Nat
  add : Nat
  /-- a reserved bit or value is set -/
  reserved : Bool
  deriving DecidableEq, Repr

/-- Sizes of the regrouped tile: batch, outer and inner dimension (R236). BATCH counts pixel rows, DIM_OUT pixel
columns and DIM_IN channels (DEDUCED, log entry 31); the outer dimension is rounded up to a multiple of 4 and the inner
one to that of Table 4.1. -/
def s2dDims (b batch dimOut dimIn t bo l r mult : Nat) : Nat × Nat × Nat :=
  (cdiv (batch + t + bo) b, roundUp (cdiv (dimOut + l + r) b) 4, roundUp (dimIn * b * b) mult)

/-- Parse a move descriptor (Table 4.3). The destination's dimensions follow from the source's by R100 and R236. -/
def parseMove (r : List Byte) : MoveDesc :=
  let fl := fld r 0x2C 4
  let b := match bits fl 2 1 with
    | 1 => 2
    | 2 => 4
    | _ => 1
  let t := fld r 0x30 1
  let bo := fld r 0x31 1
  let l := fld r 0x32 1
  let rr := fld r 0x33 1
  let fmt := fld r 0x18 2
  let src := tdescOf fmt 0 (fld r 0 8) (fld r 0x10 2) (fld r 0x12 2) (fld r 0x14 2) 0 (fld r 0x24 4) (fld r 0x1C 4) false
  let fmt2 := fld r 0x1A 2
  let mult := if bits fmt2 7 6 = 3 then 1 else src.info.mult
  let (bt, o, i) := if b = 1 then (src.batch, src.dimOut, src.dimIn)
    else s2dDims b src.batch src.dimOut src.dimIn t bo l rr mult
  let tr := bit fl 0
  let dst := tdescOf fmt2 0 (fld r 8 8) (if tr then i else o) (if tr then o else i) bt 0 (fld r 0x28 4) (fld r 0x20 4) false
  { src := src, dst := dst, transpose := tr, s2d := b, padFill := bit fl 3, decrypt := bit fl 4, mask := bits fl 15 8,
    padT := t, padB := bo, padL := l, padR := rr, sync := fld r 0x34 2, add := fld r 0x36 2,
    reserved := bits fl 2 1 == 3 || bits fl 7 5 != 0 || bits fl 31 16 != 0 || fld r 0x16 2 != 0 || fld r 0x3D 3 != 0 }

/-- The layout check of a move: R102, R172 to R174, R178, R182, R779, R25. The manual gives no order among its failures: E_TRANSPOSE_TYPE
comes after the reserved bits and the agreement of the two types, and before every other rule of layout (DESIGN CHOICE, log entry 35). -/
def MoveDesc.err (m : MoveDesc) : Option Status :=
  let a := m.src
  let b := m.dst
  if m.reserved || a.reserved || b.reserved || (typeInfo a.type).isNone ||
      !(a.type == b.type && a.zpMode == b.zpMode && a.subtype == b.subtype && a.span == b.span) then some .eLayout
  else if m.transpose && a.info.kGroup != 0 then some .eTransposeType
  else if !(a.okFrom (if a.form = 3 then 1 else 4) && b.okFrom (if b.form = 3 then 1 else 4)) then some .eLayout
  else if a.space == 0 || ((b.space == 0) != (m.mask != 0)) then some .eLayout
  else none

/-- Bytes from the base to the end of a tile with its batch. -/
def TDesc.extent (d : TDesc) : Nat := (d.batch - 1) * d.stride + d.footprint

/-- The ranges of the source a move names: its rows or blocks and its planes, padding left out (R221). -/
def MoveDesc.named (m : MoveDesc) : List (Nat × Nat) :=
  let a := m.src
  let rows := if m.padFill && m.s2d == 1 then rangeFrom m.padT (a.dimOut - m.padT - m.padB) else List.range a.dimOut
  (List.range a.batch).flatMap (fun b =>
    let z := b * a.stride
    (if a.form = 3 then rows.map (fun o => (z + o * a.rowBytes, cdiv (a.dimIn * a.info.bits) 8))
     else [(z, a.dataBytes)]) ++ [(z + a.tagOff, a.tagBytes), (z + a.aux, a.auxBytes)])

end Sys2Proof.Machine
end

