-- ==== Sys2Proof/Machine/Stall.lean ====
section
/-!
DEFINITION. Memory stall accounting (R325 to R328, Table 7.5).
-/
namespace Sys2Proof.Machine

/-- The moves of a partition that are queued or in progress. -/
def State.movesOf (s : State) (p : Nat) : List MoveSlot :=
  (List.range 16).flatMap (fun k => ((s.cluster k).released ++ (s.cluster k).moves).filter (fun m => m.part == p))

/-- A partition stalls on memory (R325). -/
def State.stalling (s : State) (p : Nat) : Bool :=
  !(s.movesOf p).isEmpty && (Tbl.keys s.cpu.cores).any (fun n =>
    match (s.core n).work, (s.core n).run with
    | some w, .waiting _ => w.part == p
    | some w, .woken => w.part == p
    | _, _ => false)

/-- A move names host memory as source or destination (SPACE of Table 4.2). -/
def MoveSlot.host (m : MoveSlot) : Bool := fldBits m.raw 0x18 9 8 == 2 || fldBits m.raw 0x18 25 24 == 2

/-- The stacked granules that a move's requests go to: the bytes its source names, and its destination. -/
def MoveSlot.places (m : MoveSlot) : List Nat :=
  let d := parseMove m.raw
  let src := if d.src.space = 1 ∧ d.src.base < stackedEnd then
    d.named.flatMap (fun e => if e.2 = 0 then [] else granulesOf (d.src.base + e.1) e.2) else []
  let dst := if d.mask = 0 ∧ d.dst.space = 1 ∧ d.dst.base < stackedEnd then granulesOf d.dst.base d.dst.extent else []
  src ++ dst

/-- Causes of Table 7.5 in order of precedence, highest first. -/
def stallOrder : List Nat := [7, 6, 2, 4, 1, 3, 5]

/-- The one of two causes that stands higher in Table 7.5; 0 is none. -/
def worseCause (a b : Nat) : Nat := (stallOrder.find? (fun c => c == a || c == b)).getD 0

/-- A cause is active on a request of a partition's moves (Table 7.5). ECC_RETRY is noted when a slice
re-reads (R313), a refresh when one is issued (R302), the retrain of a UCIe link as it happens (R658, R702). No command tells when a
stack's PHY retrains: that is free (log entry 204). -/
def State.causeActive (s : State) (p : Nat) (ms : List MoveSlot) (places : List Nat) (c : Nat) : Bool :=
  let band := fun (lo hi : Int) => places.any (fun a =>
    let t := Tbl.get 0 s.mem.temp (s.stackOf a)
    decide (lo ≤ t) && decide (t < hi))
  match c with
  | 7 => s.mem.anyRepair && places.any s.repairing
  | 6 => (ms.any MoveSlot.host && (s.link (s.linkOf ((s.part p).elim 0 (·.fn)))).retraining) ||
    places.any (fun a => Config.phyRetrain (s.stackOf a) s.host.refTicks)
  | 4 => band 95 256
  | 1 => band 85 95
  | 3 => !places.isEmpty && Config.bankWait p s.host.refTicks
  | 5 => ms.any MoveSlot.host
  | _ => false

/-- The cause of a partition's stall that stands highest in Table 7.5 now, 0 when none is active (R326). -/
def State.stallCause (s : State) (p : Nat) : Nat :=
  let ms := s.movesOf p
  let places := ms.flatMap MoveSlot.places
  (stallOrder.find? (s.causeActive p ms places)).getD 0

/-- A move of a partition meets a link that retrains or a row, page or pseudo-channel under repair (Table 7.5, R361). -/
def State.troubled (s : State) (p : Nat) (m : MoveSlot) : Bool :=
  s.causeActive p [m] m.places 6 || s.causeActive p [m] m.places 7

/-- Note a cause at a partition's open stall interval. -/
def State.noteCause (s : State) (p c : Nat) : State :=
  if (Tbl.find s.work.stallFrom p).isNone then s
  else
    { s with work := { s.work with stallWorst := Tbl.set 0 s.work.stallWorst p (worseCause c (Tbl.get 0 s.work.stallWorst p)) } }

/-- A move of a partition crosses the UCIe link of a compute die: host memory lies behind the link of the mover's own die, and the other
die's stacks behind both links (Table 7.5, R326). -/
def State.crossesLink (s : State) (p link : Nat) : Bool :=
  (List.range 16).any (fun k => ((s.cluster k).released ++ (s.cluster k).moves).any (fun m => m.part == p &&
    ((k / 8 == link && m.host) || m.places.any (fun a => s.stackOf a / 2 != k / 8))))

/-- A UCIe link retrains: the open stall intervals of partitions with moves across it take note of the cause, and condition 2 of R361 fails
for them (R326, R361, R658, R702). -/
def State.noteRetrain (s : State) (link : Nat) : State :=
  (Tbl.keys s.work.parts).foldl (fun s p => if s.crossesLink p link then (s.wcetVoid 2 p).noteCause p 6 else s) s

/-- Condition 2 of R361 fails for the partitions whose moves meet an open repair or a retrain (R361, R362). -/
def State.voidTroubled (s : State) : State :=
  (Tbl.keys s.work.parts).foldl (fun s p => if (s.movesOf p).any (s.troubled p) then s.wcetVoid 2 p else s) s

/-- Add to a stall counter (R328). -/
def State.addStall (s : State) (p c n : Nat) : State :=
  { s with work := { s.work with stall := Tbl.set 0 s.work.stall (8 * p + c) ((Tbl.get 0 s.work.stall (8 * p + c) + n) % 2 ^ 64) } }

/-- The clock of an island at a clock point, in MHz. -/
def pointMHz (p : Nat) : Nat := 320 * (p + 1)

/-- Nanoseconds of an interval: its crystal periods as cycles of the observing island at that island's clock point, rounded down
once (R327). -/
def stallNs (mhz ticks : Nat) : Nat := ticks * mhz * 5 / 192 * 1000 / mhz

/-- The island that observes a partition's stall: the first cluster that holds a core of it stopped at a WAIT (DESIGN CHOICE, log
entry 168). -/
def State.stallCluster (s : State) (p : Nat) : Nat :=
  (((Tbl.keys s.cpu.cores).find? (fun n => match (s.core n).work, (s.core n).run with
    | some w, .waiting _ => w.part == p
    | some w, .woken => w.part == p
    | _, _ => false)).getD 0) / 8

/-- Open or close a partition's stall interval after an event; at its end the interval is charged, to the total and to the cause
that stood highest in it (R325 to R327). `before` is the state before the event. -/
def State.stallUpdate (before : State) (p : Nat) (s : State) : State :=
  match Tbl.find s.work.stallFrom p with
  | some t =>
    if s.stalling p then s.noteCause p (s.stallCause p)
    else
      let ns := stallNs (pointMHz (before.clusterPoint (before.stallCluster p))) (s.host.refTicks - t)
      let c := worseCause (before.stallCause p) (Tbl.get 0 s.work.stallWorst p)
      let s := { s with work := { s.work with stallFrom := Tbl.del s.work.stallFrom p, stallWorst := Tbl.del s.work.stallWorst p } }
      let s := s.addStall p 0 ns
      if c = 0 then s else s.addStall p c ns
  | none =>
    if s.stalling p then
      ({ s with work := { s.work with stallFrom := Tbl.put s.work.stallFrom p s.host.refTicks } } : State).noteCause p (s.stallCause p)
    else s

/-- Keep the stall interval of the partition a core works for. -/
def stallOf (n : Nat) (before s : State) : State :=
  match (before.core n).work with
  | some w => before.stallUpdate w.part s
  | none => s

/-- Keep the stall intervals of all partitions over an event that can touch several. -/
def State.stallAll (before s : State) : State :=
  (Tbl.keys before.work.parts).foldl (fun s p => before.stallUpdate p s) s

/-- One period of the 38.4 MHz crystal: the reference counter counts from step 4 of a start, and each open stall interval takes note of
the causes active in it (R44, R326, R607, R610). -/
def State.tick (s : State) : State :=
  if s.unitsRun then
    let s := (Tbl.keys s.work.stallFrom).foldl (fun s p => s.noteCause p (s.stallCause p)) s
    { s with host := { s.host with refTicks := s.host.refTicks + 1 } }
  else s

end Sys2Proof.Machine
end

