-- ==== Sys2Proof/Machine/Memory.lean ====
section
/-!
DEFINITION. Stacked memory's controller slices: granule requests, refresh, temperature, group modes and the clearing of
stall counters (R296 to R317, R328, R329, R738, R739).
-/
namespace Sys2Proof.Machine

/-! Granule requests. -/

/-- Answer a granule request; answers travel in TC0 (R301). -/
def State.granule (s : State) (st : Status) (data : List Byte) (poison : Bool) : State := s.emit (.granule st data poison 0)

/-- The traffic class of a granule request: TC1 for a write, TC2 for a read (R301). -/
def requestClass (write : Bool) : Nat := if write then 1 else 2

/-- The 2 MiB page of an address. -/
def pageOf (a : Nat) : Nat := a / 0x200000

/-- Count a read that a Clearing answers with poison, or a write it drops (R309, Table 12.10). -/
def State.countStale (s : State) (p : Nat) (write : Bool) : State :=
  match Tbl.find s.work.clearings p with
  | some j =>
    let j := if write then { j with writesDiscarded := j.writesDiscarded + 1 } else { j with readsPoisoned := j.readsPoisoned + 1 }
    { s with work := { s.work with clearings := Tbl.put s.work.clearings p j } }
  | none => s

/-- What the stack delivers for line i of a granule: 0 clean, 1 one correctable symbol per half-line, 2 uncorrectable and clean at a
re-read, 3 uncorrectable at both re-reads. `ecc` holds it in bits [2i+1:2i]. -/
def lineEcc (ecc a : Nat) : Nat := ecc / 4 ^ (a / 64 % 4) % 4

/-- The slice reads one line for a partition. A correction is written back and counted; a line whose re-reads both fail becomes poison
(R312, R313). -/
def State.readLine (p ecc : Nat) (s : State) (a : Nat) : State :=
  let e := lineEcc ecc a
  let s := if e = 1 then s.corrected (.unstated 0) (stackIsland (s.stackOf a)) a else s
  let s := if 2 ≤ e then (s.wcetVoid 2 p).noteCause p 2 else s
  if e = 3 then (s.setPoison a 1).contained .eMemPoison (stackIsland (s.stackOf a)) a else s

/-- The slice reads the lines that a range touches. What befalls another agent's granule comes as a request of that granule (DESIGN
CHOICE, log entry 167). -/
def State.readLines (s : State) (p a n ecc : Nat) : State :=
  if ecc = 0 then s
  else ((rangeFrom (a / 64) ((a + n + 63) / 64 - a / 64)).map (· * 64)).foldl (State.readLine p ecc) s

/-- Serve a read (R298, R309, R312, R313, R317). -/
def State.serveRead (s : State) (p a n ecc : Nat) (bar : Option Nat := none) : State :=
  let s := (s.accountStacked none p 2 false a n).readLines p a n ecc
  let bad := s.poisoned a n
  match bar with
  | some f => (s.account none p 4 n).emit (.barRead f (s.readMem a n) bad)
  | none => s.granule (if bad then .eMemPoison else .ok) (s.readMem a n) bad

/-- Serve a write: where it covers part of a line the slice reads the line first (R310, R312 to R314). -/
def State.serveWrite (s : State) (p a n : Nat) (data : List Byte) (ecc : Nat) : State :=
  let s := s.accountStacked none p 2 true a n
  let s := if a % 64 = 0 ∧ n % 64 = 0 then s else s.readLines p a n ecc
  (s.writeMem a (slice data 0 n)).granule .ok [] false

/-- Serve a request that its slice has admitted, or, when its stack or row has to wait, hold it; one that waits for a repair fails a
condition of R361 (R317, R362). -/
def State.serveGranule (s : State) (q : GranuleReq) : State :=
  if s.granuleHeld q.addr then
    ({ s with mem := { s.mem with held := s.mem.held ++ [q] } } : State).waitsOn q.part (s.repairing q.addr)
  else if q.write then s.serveWrite q.part q.addr q.len q.data q.ecc
  else s.serveRead q.part q.addr q.len q.ecc q.bar

/-- A controller slice looks up the owner and generation of a request and admits it, or answers it itself (R298, R309). -/
def State.lookupGranule (s : State) (q : GranuleReq) : State :=
  if s.stale q.part q.gen then (s.countStale q.part q.write).granule (if q.write then .ok else .eMemPoison) [] (!q.write)
  else
    match s.part q.part with
    | none => s.granule .eStoreRange [] false
    | some part =>
      match s.stackedErr part q.part q.gen q.addr q.len with
      | some e => s.granule e [] false
      | none => s.serveGranule q

/-- SLICE_REQUEST: a controller slice looks up the owner and generation of a request within one 256-byte granule and
serves, holds or refuses it (R298, R301, R303, R307 to R314, R317, R701). -/
def execSliceRequest (p gen : Nat) (write : Bool) (a n : Nat) (data : List Byte) (ecc : Nat) (s : State) : Res :=
  if n = 0 ∨ 256 < a % 256 + n ∨ s.errs.halted = true then .next s
  else .next (s.lookupGranule {
    part := p, gen := gen, write := write, addr := a, len := n, data := data, ecc := ecc, cls := requestClass write })

/-! Arbitration among requests that wait at a slice (R300, R301). -/

/-- The stacked-memory share of a partition, at least 1. -/
def State.memShareOf (s : State) (p : Nat) : Nat := max 1 ((s.part p).elim 0 (·.memShare))

/-- The request a slice serves next of those that wait there: of the partition that has had the fewest granules for its share, its
oldest; after a write of one partition, a read of another goes first (R300, R301). The form of the weighted round is the model's
(DESIGN CHOICE, log entry 166). -/
def nextGranule (share : Nat → Nat) (served : Tbl Nat) (last : Option Nat) (l : List GranuleReq) : Option GranuleReq :=
  let reads := l.filter (fun q => !q.write && last != none && last != some q.part)
  let l := if reads.isEmpty then l else reads
  l.foldl (fun best q =>
    match best with
    | none => some q
    | some b => if fairBefore share (fun p => Tbl.get 0 served p) b.part q.part then some b else some q) none

/-- Serve the requests that wait at a pseudo-channel, in turn. -/
def State.serveHeld (key : Nat) : Nat → Tbl Nat → Option Nat → State → State
  | 0, _, _, s => s
  | fuel + 1, served, last, s =>
    match nextGranule s.memShareOf served last (s.mem.held.filter (fun q => s.channelOf q.addr == key && !s.granuleHeld q.addr)) with
    | none => s
    | some q =>
      let s := { s with mem := { s.mem with held := s.mem.held.erase q } }
      State.serveHeld key fuel (Tbl.set 0 served q.part (Tbl.get 0 served q.part + 1)) (if q.write then some q.part else none) (s.lookupGranule q)

/-- The slices serve what no longer has to wait. -/
def State.releaseHeld (s : State) : State :=
  if s.mem.held.isEmpty then s
  else (List.range 128).foldl (fun s key => State.serveHeld key s.mem.held.length [] none s) s

/-! Refresh and temperature (Table 7.2). -/

/-- The refresh interval in nanoseconds and the issue rate in halves at the temperature a stack has reported; before its first report of a
start the interval is 1.95 µs (Tables 7.2 and 14.5). -/
def refreshBand : Option Int → Nat × Nat
  | none => (1950, 2)
  | some temp => if temp < 85 then (3900, 2) else if temp < 95 then (1950, 2) else if temp < 105 then (1950, 1) else (1950, 0)

/-- The refresh interval and issue rate in force at a stack (R302, R303). -/
def State.refreshOf (s : State) (stack : Nat) : Nat × Nat := refreshBand (Tbl.find s.mem.temp stack)

/-- A refresh of a pseudo-channel is issued: the open stall intervals of partitions with a move on it take note of the cause REFRESH
(R302, R326). -/
def State.noteRefresh (s : State) (key : Nat) : State :=
  (Tbl.keys s.work.stallFrom).foldl (fun s p =>
    if ((s.movesOf p).flatMap MoveSlot.places).any (fun a => s.channelOf a == key) then s.noteCause p 1 else s) s

/-- REFRESH_DUE: a pseudo-channel's refresh interval expires; the slice issues the refresh, or postpones it when asked
to, at most 8 intervals and never past a pending refresh-boundary swap (R302). -/
def execRefreshDue (stack ch : Nat) (postpone : Bool) (s : State) : Res :=
  if s.errs.halted then .next s else
  let key := 32 * stack + ch
  let n := Tbl.get 0 s.mem.postponed key
  if !s.stackServes stack then .next s
  else if postpone && decide (n < 8) && !s.mem.repairOpen key then
    .next { s with mem := { s.mem with postponed := Tbl.set 0 s.mem.postponed key (n + 1) } }
  else .next (({ s with mem := { s.mem with postponed := Tbl.set 0 s.mem.postponed key 0 } } : State).noteRefresh key)

/-- STACK_TEMPERATURE_REPORT: a stack reports its temperature, which sets the refresh interval and the issue rate
(R303); at 95 °C a condition of R361 fails, and below 105 °C the requests that were held are served. -/
def execStackTemperatureReport (stack : Nat) (temp : Int) (s : State) : Res :=
  let s0 := s
  let s := { s with mem := { s.mem with temp := Tbl.put s.mem.temp stack temp } }
  let s := if 95 ≤ temp then s.wcetVoidAll 1 else s
  .next (s0.stallAll s.releaseHeld)

/-! Stall counters and group modes. -/

/-- A write to a set-up register: dropped in the fatal halt and while the module is off or saved, ignored from a function that may not make
it (R626, R731, R732, R734). -/
def State.regWrite (s : State) (allowed : Bool) (k : State → State) : Res :=
  if s.errs.halted || !s.pwr.aon || !allowed then .next s else .next (k s)

/-- Clear the eight stall counters of a partition (R328); an open interval counts in full when it ends (R329). -/
def State.clearStall (s : State) (p : Nat) : State :=
  { s with work := { s.work with stall := s.work.stall.filter (fun e => !(e.1 / 8 == p)) } }

/-- MEM_STALL_CLEAR_ALL: a write with ALL set, open to PF0 only (R328, R739). -/
def execMemStallClearAll (f : Nat) (s : State) : Res :=
  s.regWrite (f == 0) (fun s => { s with work := { s.work with stall := [] } })

/-- A partition is a function's, be it in a Clearing or not (R547, R563). -/
def State.holdsPart (s : State) (f p : Nat) : Bool := match s.part p with
  | some x => x.fn == f
  | none => false

/-- MEM_STALL_CLEAR_PART: a write with ALL clear names one partition, its own for a function other than PF0 (R547, R563, R739). -/
def execMemStallClearPart (f p : Nat) (s : State) : Res :=
  s.regWrite (f == 0 || s.holdsPart f p) (fun s => s.clearStall p)

/-- A page is granted to a partition. -/
def State.pageGranted (s : State) (pg : Nat) : Bool := s.work.parts.any (fun e => e.2.ownsPage pg)

/-- Set a group's mode; where a line lies follows the mode (R296), so the group holds undefined data. -/
def State.setGroupMode (s : State) (g : Nat) (sliced : Bool) : State :=
  if Tbl.get false s.mem.sliced g = sliced then s
  else
    let s := s.undefine (g * 0x800000) 0x800000
    { s with mem := { s.mem with
        sliced := Tbl.set false s.mem.sliced g sliced, pageKey := (rangeFrom (4 * g) 4).foldl Tbl.del s.mem.pageKey } }

/-- GROUP_MODE: PF0 changes the mode of an 8 MiB group none of whose four pages is granted (R297, R738). -/
def execGroupMode (f tag g : Nat) (sliced : Bool) (s : State) : Res :=
  s.request f 0x12 tag false false .pf0 true (fun s =>
    if (rangeFrom (4 * g) 4).any s.pageGranted then s.reply f 0x12 tag .eGroupBusy
    else (s.setGroupMode g sliced).reply f 0x12 tag .ok)

end Sys2Proof.Machine
end

