-- ==== Sys2Proof/Machine/Records.lean ====
section
/-!
DEFINITION. Completion records and interrupt moderation (R519, R521, R528, R535, R536).
-/
namespace Sys2Proof.Machine

def Ctx.enabled (c : Ctx) : Bool := bit c.cfg.toNat 31
def Ctx.realtime (c : Ctx) : Bool := bit c.cfg.toNat 30
def Ctx.part (c : Ctx) : Nat := bits c.cfg.toNat 29 24
def Ctx.sqDpa (c : Ctx) : Bool := bit c.cfg.toNat 23
def Ctx.sqLog2 (c : Ctx) : Nat := bits c.cfg.toNat 4 0
def Ctx.cqLog2 (c : Ctx) : Nat := bits c.cfg.toNat 12 8
def Ctx.sqBase (c : Ctx) : Nat := c.sqLo.toNat + c.sqHi.toNat * 2 ^ 32
def Ctx.cqBase (c : Ctx) : Nat := c.cqLo.toNat + c.cqHi.toNat * 2 ^ 32

/-- A CQ slot can be reserved (R519). -/
def Ctx.cqFree (c : Ctx) : Bool :=
  decide (diff32 c.cqTail.toNat c.cqHead.toNat + c.descs.length + c.seqReserved < 2 ^ c.cqLog2)

/-- What a completion record says (Table 11.12). -/
structure Rec where
  status : Status
  sat : Bool
  nonfin : Bool
  unsolicited : Bool
  tag : Nat
  detail0 : Nat
  detail1 : Nat
  energy : Nat
  deriving DecidableEq, Repr

/-- The record's 32 bytes (Table 11.12). -/
def Rec.bytes (r : Rec) (phase : Bool) (sqHead time : Nat) : List Byte :=
  toLE 4 (r.status.num + b2n r.sat * 2 ^ 16 + b2n r.nonfin * 2 ^ 17 + b2n phase * 2 ^ 18 + b2n r.unsolicited * 2 ^ 19) ++
  toLE 4 r.tag ++ toLE 4 sqHead ++ toLE 4 r.detail0 ++ toLE 4 r.detail1 ++ toLE 4 r.energy ++ toLE 8 time

/-- Write a record at CQ_TAIL and send the message its moderation calls for (R521, R528, R529, R535). -/
def State.writeRecord (s : State) (n : Nat) (r : Rec) (irqNow : Bool) : State :=
  let c := s.ctx n
  let f := s.ctxFn n
  let i := c.cqTail.toNat
  let phase := (i / 2 ^ c.cqLog2) % 2 == 0
  let s := (s.hostWrite f (c.cqBase + i % 2 ^ c.cqLog2 * 32) (r.bytes phase c.sqHead.toNat (s.stampFor f)) false 0 false).account
    (some n) c.part 4 32
  let c := { c with cqTail := c.cqTail + 1, pending := c.pending + 1 }
  let s := s.setCtx n c
  let count := max 1 (bits c.mod.toNat 7 0)
  if irqNow || r.status.isError || decide (count ≤ c.pending) || bits c.mod.toNat 25 16 == 0 then s.sendMsg f c.entry else s

end Sys2Proof.Machine
end

