-- ==== Sys2Proof/Machine/Ledger.lean ====
section
/-!
DEFINITION. The energy ledger's arithmetic: sub-allowances, reservations, debits, the predictor (R376, R552, R591 to R597).
Amounts are in units of 1/1,024 µJ.
-/
namespace Sys2Proof.Machine

def State.setLedger (s : State) (l : Ledger) : State := { s with pwr := { s.pwr with ledger := l } }

/-- E_f of an allowance in µJ (R552). -/
def State.subAllowance (s : State) (a f : Nat) : Nat := a * (s.fn f).wEnergy / 256

/-- The sum of the sub-allowances (R552). -/
def State.subSum (s : State) (a : Nat) : Nat := (List.range 32).foldl (fun acc f => acc + s.subAllowance a f) 0

/-- A charge on avail_f takes it down to zero and puts the rest on C (R593). -/
def Ledger.charge (l : Ledger) (f d : Nat) : Ledger :=
  let x := min (Tbl.get 0 l.avail f) d
  { l with avail := Tbl.set 0 l.avail f (Tbl.get 0 l.avail f - x), pool := l.pool - ((d - x : Nat) : Int) }

/-- The part of a reservation that C bears (R592). -/
def Ledger.fromPool (l : Ledger) (f e : Nat) : Nat := e - min (Tbl.get 0 l.avail f) e

/-- The admission test of R592; nothing is admitted during HOLD (R594). -/
def Ledger.admits (l : Ledger) (f e : Nat) : Bool :=
  !l.hold && decide ((e : Int) ≤ ((Tbl.get 0 l.avail f : Nat) : Int) + max l.pool 0)

/-- Return the unused part of a reservation: to C up to the amount taken from C, the rest to avail_f (R593). -/
def Ledger.giveBack (l : Ledger) (f left fromC : Nat) : Ledger :=
  let c := min left fromC
  { l with pool := l.pool + (c : Int), avail := Tbl.set 0 l.avail f (Tbl.get 0 l.avail f + (left - c)) }

/-- Credit energy to an accounting key's ENERGY_UJ counter, carrying the fraction (R374, R376). -/
def State.creditKey (s : State) (key n : Nat) : State :=
  let l := s.pwr.ledger
  let t := Tbl.get 0 l.frac key + n
  let s := s.setLedger { l with frac := Tbl.set 0 l.frac key (t % 1024) }
  { s with work := { s.work with acct := Tbl.set 0 s.work.acct key ((Tbl.get 0 s.work.acct key + t / 1024) % 2 ^ 64) } }

/-- Credit energy to a context (when it is a context's), a partition and its function (R375, R376). -/
def State.credit (s : State) (ctx : Option Nat) (p n : Nat) : State :=
  let s := match ctx with
    | some c => s.creditKey (8 * c + 6) n
    | none => s
  let s := s.creditKey (0x8000 + 8 * p + 6) n
  match s.part p with
  | some x => s.creditKey (0x8200 + 8 * x.fn + 6) n
  | none => s

/-- What is left of the open reservations of escalations (R599). -/
def escalReserved (es : List Escal) : Nat := es.foldl (fun acc e => acc + if e.resOpen then e.resLeft else 0) 0

/-- What is left of the open reservations, of descriptors and escalations. -/
def State.openReserved (s : State) : Nat :=
  (Tbl.keys s.work.ctxs).foldl (fun acc n => acc + (s.ctx n).descs.foldl (fun a d => a + if d.resOpen then d.resLeft else 0) 0)
    (escalReserved s.pwr.escals)

/-- The key of the UNATTRIBUTED counter (R377). -/
def unattributedKey : Nat := 0x8300

/-- Charge a debit to a descriptor: to its open reservation first, then to avail_f and C (R593). -/
def State.debitDesc (s : State) (ctx idx n : Nat) : State :=
  let p := (s.ctx ctx).part
  let f := s.partFn p
  match s.desc ctx idx with
  | some x =>
    let own := if x.resOpen then min x.resLeft n else 0
    let s := s.setDesc ctx idx (fun y => { y with resLeft := y.resLeft - own, drawn := y.drawn + n })
    (s.setLedger (s.pwr.ledger.charge f (n - own))).credit (some ctx) p n
  | none => (s.setLedger (s.pwr.ledger.charge f n)).credit (some ctx) p n

/-- Charge a debit to a partition's function (R593). -/
def State.debitPart (s : State) (p n : Nat) : State := (s.setLedger (s.pwr.ledger.charge (s.partFn p) n)).credit none p n

/-- Charge a debit that nothing is answerable for: to C (R377, R593). -/
def State.debitNone (s : State) (n : Nat) : State :=
  (s.setLedger { s.pwr.ledger with pool := s.pwr.ledger.pool - (n : Int) }).creditKey unattributedKey n

/-- Bytes a partition has moved: its counters 1 to 4 (Table 8.12). -/
def State.moved (s : State) (p : Nat) : Nat := (rangeFrom 1 4).foldl (fun acc i => acc + Tbl.get 0 s.work.acct (0x8000 + 8 * p + i)) 0

/-- Bytes a partition has moved in the window (R376). -/
def State.movedNow (s : State) (p : Nat) : Nat := s.moved p - Tbl.get 0 s.pwr.ledger.movedAt p

/-- Charge a share of the energy of shared domains to a partition that has ended since it moved its bytes: to its function, and to its own
counter unless its identifier is in use again (R375, R376; log entry 171). -/
def State.debitGone (s : State) (p f n : Nat) : State :=
  let s := (s.setLedger (s.pwr.ledger.charge f n)).creditKey (0x8200 + 8 * f + 6) n
  s.creditKey (if (s.part p).isSome then unattributedKey else 0x8000 + 8 * p + 6) n

/-- Credit the energy of shared domains in proportion to the bytes that each partition moved in the window; what the division leaves,
and all of it when nothing moved, is unattributed (R376; the remainder's place is a DESIGN CHOICE, log entry 171). -/
def State.debitShared (s : State) (n : Nat) : State :=
  let l := s.pwr.ledger
  let ps := Tbl.keys s.work.parts
  let total := ps.foldl (fun acc p => acc + s.movedNow p) 0 + l.gone.foldl (fun acc e => acc + e.2.2) 0
  if total = 0 then (if n = 0 then s else s.debitNone n)
  else
    let live := ps.map (fun p => (p, n * s.movedNow p / total))
    let gone := l.gone.map (fun e => (e, n * e.2.2 / total))
    let s := live.foldl (fun s e => if e.2 = 0 then s else s.debitPart e.1 e.2) s
    let s := gone.foldl (fun s e => if e.2 = 0 then s else s.debitGone e.1.1 e.1.2.1 e.2) s
    let rest := n - live.foldl (fun acc e => acc + e.2) 0 - gone.foldl (fun acc e => acc + e.2) 0
    if rest = 0 then s else s.debitNone rest

/-- At a window's end the debits of the shared domains in it are charged and credited by the bytes of the whole window (R376). -/
def State.settleShared (s : State) : State :=
  let n := s.pwr.ledger.sharedDue
  (s.setLedger { s.pwr.ledger with sharedDue := 0 }).debitShared n

/-- A partition ends: the bytes it moved in the window still take their share (R376). -/
def State.keepMoved (s : State) (p : Nat) : State :=
  let n := s.movedNow p
  if n = 0 then s
  else
    let l := s.pwr.ledger
    s.setLedger { l with gone := l.gone ++ [(p, s.partFn p, n)], movedAt := Tbl.set 0 l.movedAt p (s.moved p) }

/-- Charge one debit of a meter and credit it; that of a shared domain waits for the window's end: a core's domain to the descriptor of the context running on it, or to the partition of
an idle core (R376, R593). -/
def State.debit (s : State) (d : Debit) : State :=
  let s := s.setLedger { s.pwr.ledger with debited := s.pwr.ledger.debited + d.amount }
  match d.who with
  | .desc ctx idx => s.debitDesc ctx idx d.amount
  | .part p => s.debitPart p d.amount
  | .core n =>
    match (s.core n).work, s.coreOwner n with
    | some w, _ => s.debitDesc w.ctx w.idx d.amount
    | none, some p => s.debitPart p d.amount
    | none, none => s.debitNone d.amount
  | .shared => s.setLedger { s.pwr.ledger with sharedDue := s.pwr.ledger.sharedDue + d.amount }
  | .none => s.debitNone d.amount

/-- Charge a list of debits. -/
def State.debits (s : State) (l : List Debit) : State := l.foldl State.debit s

/-- Close a descriptor's reservation and return what is left of it (R593). -/
def State.closeReservation (s : State) (ctx idx : Nat) : State :=
  match s.desc ctx idx with
  | some d =>
    if d.resOpen then
      let s := s.setLedger (s.pwr.ledger.giveBack (s.partFn (s.ctx ctx).part) d.resLeft d.resC)
      s.setDesc ctx idx (fun y => { y with resOpen := false, resLeft := 0, resC := 0 })
    else s
  | none => s

/-! The predictor (R597). -/

/-- The number of cores a COMPUTE descriptor names. -/
def descCoreCount (raw : List Byte) : Nat := ((List.range 128).filter (bit (fld raw 0x30 16))).length

/-- A kind's record. -/
def Ledger.kind (l : Ledger) (program cores : Nat) : Option Kind :=
  l.kinds.find? (fun k => k.program == program && k.cores == cores)

/-- A kind is seen: it comes first, with its history if it has one, and 1,024 are kept (R597). -/
def Ledger.seeKind (l : Ledger) (program cores : Nat) : Ledger :=
  let k := (l.kind program cores).getD { program := program, cores := cores, hist := [], born := l.births + 1 }
  { l with
    kinds := (k :: l.kinds.filter (fun x => !(x.program == program && x.cores == cores))).take 1024, births := max l.births k.born }

/-- The number of a kind, 0 when the predictor does not hold it. -/
def Ledger.kindNo (l : Ledger) (program cores : Nat) : Nat := match l.kind program cores with
  | some k => k.born
  | none => 0

/-- A measurement joins the last 64 of the kind it was begun under; it is dropped when that kind has been replaced (R597). -/
def Ledger.measure (l : Ledger) (program cores born measured stated : Nat) : Ledger :=
  { l with kinds := l.kinds.map (fun k =>
      if k.program = program ∧ k.cores = cores ∧ k.born = born then { k with hist := ((measured, stated) :: k.hist).take 64 } else k) }

/-- The scaled estimate in µJ from a kind's history, M in 1/1,024 µJ (R597). -/
def scaleEstimate (stated : Nat) (hist : List (Nat × Nat)) : Nat :=
  if hist.length < 64 then (if stated = 0 then 1 else stated)
  else
    let m := hist.foldl (fun acc x => acc + x.1) 0
    let t := hist.foldl (fun acc x => acc + x.2) 0
    if stated = 0 then cdiv m (64 * 1024)
    else if t = 0 then (if 0 < m then stated * 2 else cdiv stated 2)
    else if 2 * 105 * m < 100 * 1024 * t then cdiv stated 2
    else if 2 * 100 * 1024 * t < 105 * m then stated * 2
    else cdiv (stated * 105 * m) (100 * 1024 * t)

/-- The estimate e of a descriptor in µJ (R597): COMPUTE descriptors form kinds, the others stand as stated. -/
def Ledger.estimate (l : Ledger) (raw : List Byte) : Nat :=
  let stated := fld raw 8 4
  if fld raw 0 1 = 1 then
    scaleEstimate stated (match l.kind (fld raw 0x20 8) (descCoreCount raw) with
      | some k => k.hist
      | none => [])
  else if stated = 0 then 1 else stated

/-- An estimate in µJ that no window can hold (R596). -/
def State.oversize (s : State) (f e : Nat) : Bool :=
  let a := s.pwr.ledger.curA
  decide (s.subAllowance a f + (a - s.subSum a) < e)

/-- Reserve an admitted estimate for a descriptor (R592). -/
def State.reserve (s : State) (ctx idx f e : Nat) : State :=
  let l := s.pwr.ledger
  let s := s.setLedger (l.charge f e)
  s.setDesc ctx idx (fun d => { d with
    phase := .admitted, estimate := e, resLeft := e, resC := l.fromPool f e, resOpen := true, drawn := 0 })

end Sys2Proof.Machine
end

