-- ==== Sys2Proof/Machine/Power.lean ====
section
/-!
DEFINITION. The power manager's tests: what a pending request waits for, the refusers, and answering requests (R574 to R579,
Table 13.3).
-/
namespace Sys2Proof.Machine

/-- The target of a pending request or committed entry that is lower than the state in force. -/
def State.lowerTarget (s : State) : Option Nat :=
  match s.pwr.transit, s.pwr.pending with
  | some t, _ => if t.target < s.pwr.state then some t.target else none
  | none, some r => if r.target < s.pwr.state then some r.target else none
  | none, none => none

/-- A core takes no new descriptor: the state keeps its domain off, or the state asked for turns it off (R577). -/
def State.coreClosed (s : State) (n : Nat) : Bool :=
  !(s.coreOn n || (s.core n).mode == 3) || (match s.lowerTarget with
    | some t => !s.stateCore t n
    | none => false)

/-- A core runs a descriptor: it works for one, or holds a pre-empted one. -/
def Core.busy (c : Core) : Bool := c.work.isSome || c.resume.isSome

/-- Descriptors run on cores that a target turns off, or a unit of IOD.MGMT works on one while the target turns IOD.MGMT off
(R577). -/
def State.busyBelow (s : State) (t : Nat) : Bool :=
  (Tbl.keys s.cpu.cores).any (fun n => (s.core n).busy && !s.stateCore t n) ||
  (decide (t < 2) && (Tbl.keys s.work.ctxs).any (fun n => (s.ctx n).descs.any (fun d => d.phase == .running || d.phase == .ended)))

/-- A target turns off a core of a partition, or IOD.MGMT. -/
def State.partBelow (s : State) (t p : Nat) : Bool :=
  (decide (t < 2) && decide (2 ≤ s.pwr.state)) || (match s.part p with
    | some x => x.cores.any (fun n => s.coreOn n && !s.stateCore t n)
    | none => false)

/-- A stack is to leave the active state on entry to a target. -/
def State.stackLeaves (s : State) (t st : Nat) : Bool := Tbl.get false s.mem.stackOn st && !s.stateStack t st

/-- A non-posted request of the module is outstanding on a link: a descriptor is being fetched, or a queued move reads host
memory. -/
def State.linkBusy (s : State) : Bool :=
  (Tbl.keys s.work.ctxs).any (fun n => (s.ctx n).descs.any (fun d => d.phase == .fetching && !(s.ctx n).sqDpa)) ||
  (List.range 16).any (fun k => (s.cluster k).moves.any (fun m => fldBits m.raw 0x18 9 8 == 2))

/-- The A-PHY group and ISP pipe that a stay in a target keeps on for the motion watch (R570). -/
def State.watchOf (s : State) (t : Nat) : Option (Nat × Nat) :=
  if t = 1 ∧ bit s.pwr.cfg.toNat 16 = true then some (bits s.pwr.cfg.toNat 5 4, bits s.pwr.cfg.toNat 7 6) else none

/-- A target turns off the domain that holds an island (Tables 1.5, 1.6 and 13.1). -/
def State.islandLeaves (s : State) (t i : Nat) : Bool :=
  let d := i / 84
  let j := i % 84
  if 183 ≤ i then false
  else if 168 ≤ i then
    let of := fun (w : Option (Nat × Nat)) => w.any (fun w => i == aphyDomain w.1 || i == ispDomain w.2)
    decide (t < 2) && (decide (2 ≤ s.pwr.state) || (decide (s.pwr.state = 1) && of s.pwr.watch)) && !of (s.watchOf t)
  else if j < 72 then
    let n := 64 * d + 8 * (j / 9) + j % 9
    j % 9 != 8 && s.coreOn n && !s.stateCore t n
  else if j < 80 then s.domainOn (clusterIsland (8 * d + (j - 72))) && !s.stateCluster t (8 * d + (j - 72))
  else s.domainOn (memfabDomain d) && !s.stateDie t d

/-- Refuser r refuses entry to a target from the state in force (Table 13.3). -/
def State.refuses (s : State) (t r : Nat) : Bool :=
  match r with
  | 0 => decide (t = 0) && s.media.phraseOpen
  | 1 => decide (t < 2) && s.media.frameOpen (s.watchOf t)
  | 2 => (Tbl.keys s.cpu.cores).any (fun n => (s.core n).minuetReq)
  | 3 => (Tbl.keys s.work.serving).any (fun p => s.partBelow t p && (match Tbl.find s.work.serving p with
      | some v => !v.lists.isEmpty
      | none => false))
  | 4 => s.errs.audits.any (fun pool => s.islandLeaves t (bits pool 20 13))
  | 5 => (List.range 4).any (fun st => s.stackLeaves t st &&
      (List.range 32).any (fun ch => Tbl.get 0 s.mem.postponed (32 * st + ch) != 0 || s.mem.repairOpen (32 * st + ch)))
  | 6 => decide (t < 2) && decide (2 ≤ s.pwr.state) && s.linkBusy
  | 7 => decide (t < 2) && s.pwr.armed && decide (s.pwr.bankV < 147)
  | 8 => decide (0 < t) && (List.range 4).any (fun st => s.stackLeaves t st && decide (95 ≤ Tbl.get 0 s.mem.temp st))
  | _ => false

/-- A target keeps off what steps 7 and 8 of a partition's Clearing need: IOD.MGMT, one of its cores, a cluster with granules of it, or a stack
with pages of it (Table 12.9). -/
def State.scrubBelow (s : State) (t p : Nat) : Bool :=
  decide (t < 2) || (match s.part p with
    | some x => x.cores.any (fun n => !s.stateCore t n) || (List.range 16).any (fun k => x.granules.getD k 0 != 0 && !s.stateCluster t k) ||
        (List.range 4).any (fun st => s.stackLeaves t st &&
          x.extents.any (fun e => (rangeFrom e.1 e.2).any (fun pg => s.stackOf (pg * 0x200000) == st)))
    | none => false)

/-- A Clearing is in progress, so a state that turns off a domain its steps 7 and 8 need must wait (R566, Table 12.11). -/
def State.clearingHolds (s : State) (t : Nat) : Bool :=
  (Tbl.keys s.work.clearings).any (fun p => s.scrubBelow t p)

def State.setPwr (s : State) (p : Power) : State := { s with pwr := p }

/-- The refusers that hold against a target, lowest index first (R574, R736). -/
def State.holders (s : State) (t : Nat) : List Nat := (List.range 9).filter (s.refuses t)

/-- Count a held request once against each refuser that holds it back (R575). -/
def State.countHolders (s : State) (r : StateReq) : State × StateReq :=
  let new := (s.holders r.target).filter (fun i => !r.counted.contains i)
  (new.foldl State.countRefusal s, { r with counted := r.counted ++ new })

/-- Look at the pending request again (R577, R578): while descriptors run on what it turns off, or a Clearing needs it, it
waits; then the refusers are asked, and when none holds the entry is committed. -/
def State.checkPending (s : State) : State :=
  match s.pwr.pending with
  | none => s
  | some r =>
    if s.busyBelow r.target || s.clearingHolds r.target then s
    else
      let (s, r) := s.countHolders r
      if (s.holders r.target).isEmpty then
        s.setPwr { s.pwr with pending := none, transit := some { target := r.target, req := some r } }
      else s.setPwr { s.pwr with pending := some r }

/-- Answer a state request (R576 to R579). -/
def State.answerReq (s : State) (r : StateReq) (st : Status) (detail : Nat := 0) : State := s.answer 0 r.owed st [] detail

/-- Answer the request of an entry or rise, if it has one. -/
def State.answerOpt (s : State) (r : Option StateReq) (st : Status) (detail : Nat := 0) : State :=
  match r with
  | some x => s.answerReq x st detail
  | none => s

end Sys2Proof.Machine
end

