-- ==== Sys2Proof/Machine/Serving.lean ====
section
/-!
DEFINITION. Language-model serving: attention records, free lists, serving records, the sequence table and the step
builder (R255 to R265, R268, R270, R282 to R292, R363 to R373, R522).
-/
namespace Sys2Proof.Machine

/-! Attention records (Table 6.1). -/

def attnLayers (r : List Byte) : Nat := fld r 0xC 2
def attnHeads (r : List Byte) : Nat := fld r 0xE 2
def attnGroup (r : List Byte) : Nat := fld r 0x10 1
def attnDim (r : List Byte) : Nat := 16 * fldBits r 0x10 12 8
def attnPool (r : List Byte) : Nat := fld r 8 4

/-- PAGE_BYTES (R257). -/
def attnPageBytes (r : List Byte) : Nat :=
  1024 * cdiv ((if fldBits r 0x10 17 16 = 0 then 128 else 64) * attnDim r + 512) 1024

/-- DPA of a pool's free list (R263). -/
def attnListBase (r : List Byte) : Nat := fld r 0 8 + attnPool r * attnLayers r * attnHeads r * attnPageBytes r

/-- Bytes of a page's key data, and of its value data (Table 6.2). -/
def attnDataBytes (r : List Byte) : Nat := (if fldBits r 0x10 17 16 = 0 then 64 else 32) * attnDim r

/-- The address of the page of an identifier, a layer and a key-value head (R257). -/
def pageDpa (r : List Byte) (id layer head : Nat) : Nat :=
  fld r 0 8 + ((id * attnLayers r + layer) * attnHeads r + head) * attnPageBytes r

/-- The areas of a page (Table 6.2). -/
inductive PageArea where
  | keyData | valueData | keyScales | valueScales | keyTags | valueTags | keyScaleTags | valueScaleTags
  deriving DecidableEq, Repr

/-- Where an area of a page begins (Table 6.2). -/
def PageArea.off (r : List Byte) : PageArea → Nat
  | .keyData => 0
  | .valueData => attnDataBytes r
  | .keyScales => 2 * attnDataBytes r
  | .valueScales => 2 * attnDataBytes r + 0x80
  | .keyTags => 2 * attnDataBytes r + 0x100
  | .valueTags => 2 * attnDataBytes r + 0x120
  | .keyScaleTags => 2 * attnDataBytes r + 0x140
  | .valueScaleTags => 2 * attnDataBytes r + 0x160

/-- Bytes of an area of a page (Table 6.2). -/
def PageArea.bytes (r : List Byte) : PageArea → Nat
  | .keyData => attnDataBytes r
  | .valueData => attnDataBytes r
  | .keyScales => 128
  | .valueScales => 128
  | _ => 32

/-- The areas that hold tags. -/
def tagAreas : List PageArea := [.keyTags, .valueTags, .keyScaleTags, .valueScaleTags]

/-- The tag of position group g of a sequence's n-th page, from its TAG_SEED (R259). -/
def expectedTag (seed n g : Nat) : Nat := (seed + 16 * n + g) % 65536

/-- The four tags of position group g of a page (Table 6.2, R260). -/
def State.groupTags (s : State) (r : List Byte) (dpa g : Nat) : List Nat :=
  tagAreas.map (fun x => leNat (s.readMem (dpa + x.off r + 2 * g) 2))

/-- Some position group below a KV length holds a tag other than the expected one in a page of an attention item, for any layer (R259,
R260). -/
def State.itemSkew (s : State) (r : List Byte) (x : AttnItem) (kv : Nat) : Bool :=
  ((List.range x.ids.length).zip x.ids).any (fun e =>
    let n := x.first + e.1
    (List.range (attnLayers r)).any (fun layer =>
      (List.range 16).any (fun g => decide (64 * n + 4 * g < kv) &&
        (s.groupTags r (pageDpa r e.2 layer x.head) g).any (fun t => t != expectedTag x.seed n g))))

/-- The checks of R256. -/
def attnOk (part : Part) (r : List Byte) : Bool :=
  fld r 0 8 % 1024 == 0 && inRange (attnPool r) 1 0x80000000 && inRange (attnLayers r) 1 1024 &&
  inRange (attnHeads r) 1 256 && inRange (attnGroup r) 1 64 && inRange (fldBits r 0x10 12 8) 1 16 &&
  fldBits r 0x10 15 13 == 0 && decide (fldBits r 0x10 17 16 ≤ 1) && decide (fldBits r 0x10 19 18 ≤ 2) &&
  fldBits r 0x10 31 20 == 0 && (fldBits r 0x10 19 18 != 1 || inRange (fld r 0x14 4) 1 131072) && zeroBytes r 0x20 32 &&
  part.ownsStacked (fld r 0 8) (attnPool r * (attnLayers r * attnHeads r * attnPageBytes r + 4))

/-- ATTN_REGISTER: check and register an attention record; its free list begins empty (R256, R257, R263). A registration is known by its
POOL_BASE, so a second one of a POOL_BASE replaces the first with an empty list; PAGE_BYTES stands in the record that the reply
returns, and stacked memory is not written (DESIGN CHOICE, log entry 185). -/
def execAttnRegister (f tag p : Nat) (raw : List Byte) (s : State) : Res :=
  s.request f 0x40 tag false false (.owner (s.ownsPart f p)) true (fun s =>
    match s.part p with
    | none => s.reply f 0x40 tag .eAttnConfig
    | some part =>
      let r := slice raw 0 64
      if !attnOk part r then s.reply f 0x40 tag .eAttnConfig
      else
        let r := putBytes r 0x1C (toLE 4 (attnPageBytes r))
        let s := { s with work := { s.work with
          attn := Tbl.put s.work.attn (fld r 0 8) { raw := r, part := p, head := 0, len := 0 } } }
        s.reply f 0x40 tag .ok r)

/-! Model slots and pools. -/

def State.serving (s : State) (p : Nat) : Serving := Tbl.get Serving.empty s.work.serving p

def State.setServing (s : State) (p : Nat) (x : Serving) : State :=
  { s with work := { s.work with serving := Tbl.set Serving.empty s.work.serving p x } }

def State.seq (s : State) (i : Nat) : SeqEntry := Tbl.get SeqEntry.free s.work.seqs i

def State.setSeq (s : State) (i : Nat) (e : SeqEntry) : State :=
  { s with work := { s.work with seqs := Tbl.set SeqEntry.free s.work.seqs i e } }

/-- The step builder or the firmware cannot read a range of stacked memory: its stack does not serve, or a line of it is poison (R298, R317). -/
def State.unreadable (s : State) (a n : Nat) : Option Status :=
  if !s.stacksOn a n then some .eStackOff else if s.poisoned a n then some .eMemPoison else none

/-- A stacked range can be read by the step builder or the firmware. -/
def State.readable (s : State) (a n : Nat) : Bool := (s.unreadable a n).isNone

/-- The registration behind a model slot: the pool that the first 8 bytes of the attention record in stacked memory name (Table 8.8;
DESIGN CHOICE, log entry 185); none while they cannot be read. -/
def State.modelAttn (s : State) (p slot : Nat) : Option AttnReg :=
  match Tbl.find (s.serving p).models slot with
  | none => none
  | some m =>
    match Tbl.find s.work.attn (leNat (s.readMem (fld m 0 8) 8)) with
    | some a => if a.part = p ∧ s.readable (fld m 0 8) 8 = true then some a else none
    | none => none

def State.setAttn (s : State) (a : AttnReg) : State :=
  { s with work := { s.work with attn := Tbl.put s.work.attn (fld a.raw 0 8) a } }

/-- The step builder or the firmware writes stacked memory for a partition: nothing lands in a stack that does not serve, and what a
slice holds lands when it serves again (R298, R303, R375). -/
def State.partWrite (s : State) (p a : Nat) (bs : List Byte) : State :=
  if s.stacksOn a bs.length then s.sliceWrite p (s.gen p) a bs else s

/-- Count a read of stacked memory that the step builder or the firmware makes for a partition (R375). -/
def State.partRead (s : State) (p a n : Nat) : State := s.accountStacked none p 2 false a n

/-- Append identifiers at the tail of a pool's free list (R263). -/
def State.freeListAppend (s : State) (a : AttnReg) (ids : List Nat) : State :=
  let n := attnPool a.raw
  let s := (ids.zip (List.range ids.length)).foldl (fun s e =>
    s.partWrite a.part (attnListBase a.raw + 4 * ((a.head + a.len + e.2) % n)) (toLE 4 e.1)) s
  s.setAttn { a with len := a.len + ids.length }

/-- The first n identifiers of a pool's free list. -/
def State.freeListHead (s : State) (a : AttnReg) (n : Nat) : List Nat :=
  (List.range n).map (fun i => leNat (s.readMem (attnListBase a.raw + 4 * ((a.head + i) % attnPool a.raw)) 4))

/-- KV_PAGES: append consecutive page identifiers to a pool's free list, or nothing (R263). -/
def execKvPages (f tag p slot first count : Nat) (s : State) : Res :=
  s.request f 0x47 tag false false (.owner (s.ownsPart f p)) true (fun s =>
    match s.modelAttn p slot with
    | none => s.reply f 0x47 tag .eKvRange
    | some a =>
      if attnPool a.raw < first + count ∨ attnPool a.raw < a.len + count then s.reply f 0x47 tag .eKvRange
      else (s.freeListAppend a (rangeFrom first count)).reply f 0x47 tag .ok)

/-- The checks of R363 on a serving record. -/
def State.servingOk (s : State) (p : Nat) (part : Part) (r : List Byte) : Bool :=
  let c := s.ctx (fldBits r 0 11 0)
  fldBits r 0 31 13 == 0 && inRange (fldBits r 4 11 0) 1 2048 && fldBits r 4 15 12 == 0 && inRange (fld r 6 2) 1 65535 &&
  inRange (fld r 8 4) 1 1048576 && fld r 0xC 4 == 0 && fld r 0x10 8 % 64 == 0 && fld r 0x1C 4 == 0 &&
  part.ownsStacked (fld r 0x10 8) (fld r 0x18 4) && c.part == p && c.sqDpa

/-- SERVE_REGISTER: register a partition's serving record (R363); the step number restarts at 0 (Table 8.11). -/
def execServeRegister (f tag p : Nat) (raw : List Byte) (s : State) : Res :=
  s.request f 0x43 tag false false (.owner (s.ownsPart f p)) true (fun s =>
    match s.part p with
    | none => s.reply f 0x43 tag .ePartConfig
    | some part =>
      let r := slice raw 0 32
      if !s.servingOk p part r then s.reply f 0x43 tag .ePartConfig
      else (s.setServing p { s.serving p with raw := some r, stepNo := 0 }).reply f 0x43 tag .ok)

/-- MODEL_SLOT: register a model slot of a serving partition (R363). -/
def execModelSlot (f tag p slot : Nat) (raw : List Byte) (s : State) : Res :=
  s.request f 0x44 tag false false (.owner (s.ownsPart f p)) true (fun s =>
    match s.part p with
    | none => s.reply f 0x44 tag .ePartConfig
    | some part =>
      let r := slice raw 0 32
      if part.ownsStacked (fld r 0 8) 64 && part.ownsStacked (fld r 8 8) 320 && zeroBytes r 0x18 8 then
        let v := s.serving p
        (s.setServing p { v with models := Tbl.put v.models slot r }).reply f 0x44 tag .ok
      else s.reply f 0x44 tag .ePartConfig)

/-! The sequence table (Table 8.9). -/

def seqState (r : List Byte) : Nat := fldBits r 0 2 0
def seqPart (r : List Byte) : Nat := fldBits r 0 13 8
def seqModel (r : List Byte) : Nat := fldBits r 0 19 16
def seqCtx (r : List Byte) : Nat := fldBits r 4 11 0
def seqKv (r : List Byte) : Nat := fld r 0x10 4
def seqPending (r : List Byte) : Nat := fld r 0x14 4

/-- Format of a written entry: a LIMIT outside 1 to 131,072 breaks it, but in a FREE entry (DESIGN CHOICE, log entry 190). -/
def seqOk (r : List Byte) : Bool :=
  decide (seqState r ≤ 4) && fldBits r 0 7 3 == 0 && fldBits r 0 15 14 == 0 && fldBits r 0 31 20 == 0 &&
  fldBits r 4 15 12 == 0 && fld r 0x1C 4 == 0 && fld r 0x2C 4 == 0 &&
  (seqState r == 0 || inRange (fld r 0x18 4) 1 131072)

/-- The host's write over an entry: KV_LEN and STEPS stay the module's own; they begin at 0 when the entry was or becomes
FREE (DESIGN CHOICE, log entry 51). -/
def SeqEntry.write (e : SeqEntry) (r : List Byte) : SeqEntry :=
  let fresh := seqState e.raw == 0 || seqState r == 0
  let kv := if fresh then 0 else seqKv e.raw
  let st := if fresh then 0 else fld e.raw 0x28 4
  { e with
    raw := putBytes (putBytes r 0x10 (toLE 4 kv)) 0x28 (toLE 4 st), pendingRaw := [],
    tokensSince := if fresh then 0 else e.tokensSince, holdouts := if fresh then 0 else e.holdouts }

/-- A partition may access a range of stacked memory: the range is granted to it (R205). -/
def State.grants (s : State) (p a n : Nat) : Bool := match s.part p with
  | some x => x.ownsStacked a n
  | none => false

/-- Return the page identifiers a sequence holds to its pool's free list (R289); a KV record or page table that is not granted or cannot be
read returns none (R205, R298, R317, log entry 192). -/
def State.returnPages (s : State) (r : List Byte) : State :=
  match s.modelAttn (seqPart r) (seqModel r) with
  | none => s
  | some a =>
    let kr := fld r 8 8
    let k := s.readMem kr 32
    let held := min 2048 (fld k 0x10 4)
    if !s.grants a.part kr 32 || !s.readable kr 32 || !s.grants a.part (fld k 0 8) (4 * held) || !s.readable (fld k 0 8) (4 * held) then s else
    let ids := (List.range held).map (fun i => leNat (s.readMem (fld k 0 8 + 4 * i) 4))
    let s := (s.partRead a.part kr 32).partRead a.part (fld k 0 8) (4 * ids.length)
    let s := s.freeListAppend a ids
    let s := s.partWrite a.part (fld k 0 8) (List.replicate (4 * ids.length) 0xFF)
    s.partWrite a.part (kr + 0x10) (toLE 4 0)

/-- A sequence takes part in its partition's open step, whose lists stay until the last of them is done (R289). -/
def State.inStep (s : State) (p i : Nat) : Bool := (s.serving p).lists.any (fun l => l.entries.any (fun e => e.seq == i))

/-- Apply a host write to an entry; the pages of a sequence the host ends are returned, after the step's records when the
sequence takes part in one (R289). -/
def State.applySeq (s : State) (i : Nat) (r : List Byte) : State :=
  let e := s.seq i
  let ends := seqState r == 0 || seqState r == 4
  let s := if ends && seqState e.raw != 0 then s.returnPages e.raw else s
  let v := s.serving (seqPart e.raw)
  let s := if seqState e.raw == 0 || seqState r == 0
    then s.setServing (seqPart e.raw) { v with reported := Tbl.set false v.reported i false } else s
  s.setSeq i ((s.seq i).write r)

/-- The KV record or the page table of a sequence is held by a slice (R303, R317). -/
def State.seqHeld (s : State) (r : List Byte) : Bool :=
  s.memHeld (fld r 8 8) 32 || s.memHeld (fld (s.readMem (fld r 8 8) 32) 0 8) 8192

/-- SEQ_WRITE: the host writes a sequence-table entry, effective from the next step of its partition (R364, R372). One that ends a
sequence waits while a slice holds its KV record or page table (R303, R317). -/
def execSeqWrite (f tag i : Nat) (raw : List Byte) (s : State) : Res :=
  let r := slice raw 0 48
  let old := (s.seq i).raw
  let mine := s.ownsPart f (seqPart r) && (seqState old == 0 || s.ownsPart f (seqPart old))
  if mine && seqState old != 0 && (seqState r == 0 || seqState r == 4) && s.seqHeld old then .next s else
  s.request f 0x45 tag false false (.owner mine) (seqOk r && decide (i < 2048)) (fun s =>
    let s := if s.inStep (seqPart old) i then s.setSeq i { s.seq i with pendingRaw := (s.seq i).pendingRaw ++ [r] } else s.applySeq i r
    s.reply f 0x45 tag .ok)

/-! Forming a step (R366 to R368). -/

/-- A sequence picked for a step. -/
structure Pick where
  seq : Nat
  raw : List Byte
  qLen : Nat
  kvLen : Nat
  deriving DecidableEq, Repr

/-- The length bucket (Table 8.10). -/
def lengthBucket (kv : Nat) : Nat :=
  if kv ≤ 1024 then 0 else if kv ≤ 4096 then 1 else if kv ≤ 16384 then 2 else if kv ≤ 65536 then 3 else 4

/-- Query lengths by the pseudocode of R366: decode entries first, then prefill. -/
def pickLens (chunk budget : Nat) (l : List (Nat × List Byte)) : List Pick :=
  let dec := (l.filter (fun e => seqPending e.2 == 1)).take budget
  let budget := budget - dec.length
  let pre := ((l.filter (fun e => decide (1 < seqPending e.2))).foldl (fun (acc : List Pick × Nat) e =>
    let q := min (seqPending e.2) (min chunk acc.2)
    (acc.1 ++ [{ seq := e.1, raw := e.2, qLen := q, kvLen := seqKv e.2 + q }], acc.2 - q)) ([], budget)).1
  let all := dec.map (fun e => ({ seq := e.1, raw := e.2, qLen := 1, kvLen := seqKv e.2 + 1 } : Pick)) ++
    pre.filter (fun p => p.qLen != 0)
  (l.filterMap (fun e => all.find? (fun p => p.seq == e.1)))

/-- Report a hold-out in the sequence's ring: SEQ_FAULTED at every step (R292), the other codes once until the sequence has next run
(R370). A report that finds no free completion slot is dropped (DESIGN CHOICE, log entry 189); the tokens of DETAIL1 count from this
record on (Table 11.13). -/
def State.holdOut (s : State) (p i : Nat) (st : Status) : State :=
  let v := s.serving p
  let e := s.seq i
  let n := seqCtx e.raw
  let once := st != .seqFaulted
  if (once && Tbl.get false v.reported i) || !(s.ctx n).active || !(s.ctx n).cqFree then s
  else
    let s := if once then s.setServing p { v with reported := Tbl.put v.reported i true } else s
    let s := s.setSeq i { e with tokensSince := 0 }
    s.writeRecord n { status := st, sat := false, nonfin := false, unsolicited := true, tag := i, detail0 := seqKv e.raw,
                      detail1 := e.tokensSince, energy := 0 } false

/-- Allocate the pages a sequence needs (R262, R265), or the status that holds it out. A KV record or page table that is not granted fails
with E_STORE_RANGE (R205); an identifier at or above POOL_PAGES gives E_KV_RANGE (R265), in the free list too (DESIGN CHOICE, log entry
186); what lies in a stack that does not serve, or reads as poison, gives that status (R298, R317, log entry 192). What was read before
counts all the same (R375). -/
def State.allocPages (s : State) (part : Part) (p : Nat) (x : Pick) : State × Option Status :=
  match s.modelAttn p (seqModel x.raw) with
  | none => (s, some .eKvRange)
  | some a =>
    let s := s.partRead p (fld (((Tbl.find (s.serving p).models (seqModel x.raw)).getD [])) 0 8) 64
    let kr := fld x.raw 8 8
    match if part.ownsStacked kr 32 then s.unreadable kr 32 else some .eStoreRange with
    | some st => (s, some st)
    | none =>
      let k := s.readMem kr 32
      let s := s.partRead p kr 32
      let held := fld k 0x10 4
      let need := cdiv x.kvLen 64
      let tbl := fld k 0 8
      let used := 4 * max need (min 2048 held)
      match if part.ownsStacked tbl used then s.unreadable tbl used else some .eStoreRange with
      | some st => (s, some st)
      | none =>
        let bad := (List.range (min 2048 held)).any (fun i => decide (attnPool a.raw ≤ leNat (s.readMem (tbl + 4 * i) 4)))
        let s := s.partRead p tbl (4 * min 2048 held)
        if bad then (s, some .eKvRange)
        else if need ≤ held then (s, none)
        else if fldBits k 8 11 0 < need ∨ a.len < need - held then (s, some .kvPagesExhausted)
        else
          let n := need - held
          let ids := s.freeListHead a n
          match s.unreadable (attnListBase a.raw) (4 * attnPool a.raw) with
          | some st => (s, some st)
          | none =>
            let s := s.partRead p (attnListBase a.raw) (4 * n)
            if ids.any (fun id => decide (attnPool a.raw ≤ id)) then (s, some .eKvRange) else
            let s := s.setAttn { a with head := (a.head + n) % attnPool a.raw, len := a.len - n }
            let s := s.partWrite p (tbl + 4 * held) (ids.flatMap (toLE 4))
            (s.partWrite p (kr + 0x10) (toLE 4 need), none)

/-- Reserve a CQ slot and the pages of one picked sequence, or hold it out (R262, R265, R522). -/
def State.admitSeq (part : Part) (p : Nat) (acc : State × List Pick) (x : Pick) : State × List Pick :=
  let (s, l) := acc
  let n := seqCtx x.raw
  let c := s.ctx n
  if !(c.active && c.cqFree && s.ctxFn n == part.fn) then
    let e := s.seq x.seq
    (s.setSeq x.seq { e with holdouts := e.holdouts + 1 }, l)
  else
    match s.allocPages part p x with
    | (s, some st) => (s.holdOut p x.seq st, l)
    | (s, none) => (s.setCtx n { s.ctx n with seqReserved := (s.ctx n).seqReserved + 1 }, l ++ [x])

/-! Attention items (R282 to R287). -/

/-- A chunk of an attention item. -/
structure Chunk where
  seq : Nat
  head : Nat
  idx : Nat
  die : Nat
  first : Nat
  pages : Nat
  cost : Nat
  deriving DecidableEq, Repr

/-- Cost of a page range (R284): positions below KV_LEN times row groups. -/
def chunkCost (kv rows first pages : Nat) : Nat := (min kv (64 * (first + pages)) - 64 * first) * cdiv rows 64

/-- A sequence lies by head (Table 6.4); the reserved LAYOUT 3 is taken as automatic (DESIGN CHOICE, log entry 187). -/
def byHead (layout heads kv : Nat) : Bool := layout == 1 || (layout != 2 && decide (16 ≤ heads) && decide (kv ≤ 32768))

/-- The parts of an item by die: die, first page, pages (Table 6.4). `one` names the partition's only die. -/
def itemParts (one : Option Nat) (heads kv head layout : Nat) : List (Nat × Nat × Nat) :=
  let p := cdiv kv 64
  match one with
  | some d => [(d, 0, p)]
  | none =>
    if byHead layout heads kv then [(head % 2, 0, p)]
    else [(0, 0, cdiv p 2), (1, cdiv p 2, p - cdiv p 2)].filter (fun e => e.2.2 != 0)

/-- Cut a page range into chunks of at most c pages: first page and pages of each; none when c is 0, as with DETERMINISTIC = 1 and
CHUNK_PAGES = 0 (DESIGN CHOICE, log entry 188). -/
def cutPages (c first pages : Nat) : List (Nat × Nat) :=
  if c = 0 then [] else (List.range (cdiv pages c)).map (fun i => (first + i * c, min c (pages - i * c)))

/-- The chunks of one item; `target` gives t of R284 per die. -/
def itemChunks (one : Option Nat) (target : Nat → Nat) (heads rows : Nat) (x : Pick) (k : List Byte) (head : Nat) : List Chunk :=
  let kv := x.kvLen
  let det := bit (fld k 0xC 4) 2
  let layout := fldBits k 0xC 1 0
  let cuts : List (Nat × Nat × Nat) :=
    if det then
      let l := cutPages (fldBits k 0xC 15 8) 0 (cdiv kv 64)
      ((List.range l.length).zip l).map (fun e =>
        let die := match one with
          | some d => d
          | none => if byHead layout heads kv then head % 2 else if e.1 < cdiv l.length 2 then 0 else 1
        (die, e.2.1, e.2.2))
    else
      (itemParts one heads kv head layout).flatMap (fun e =>
        let cost := chunkCost kv rows e.2.1 e.2.2
        let t := max 1 (target e.1)
        let n := max 1 (min e.2.2 (cdiv cost t))
        (cutPages (cdiv e.2.2 n) e.2.1 e.2.2).map (fun c => (e.1, c.1, c.2)))
  ((List.range cuts.length).zip cuts).map (fun e =>
    { seq := x.seq, head := head, idx := e.1, die := e.2.1, first := e.2.2.1, pages := e.2.2.2,
      cost := chunkCost kv rows e.2.2.1 e.2.2.2 })

/-- Order of R286: descending cost, then sequence, head and chunk. -/
def Chunk.before (a b : Chunk) : Bool :=
  decide (b.cost < a.cost) || (a.cost == b.cost && (decide (a.seq < b.seq) || (a.seq == b.seq &&
    (decide (a.head < b.head) || (a.head == b.head && decide (a.idx ≤ b.idx))))))

def insertChunk (c : Chunk) : List Chunk → List Chunk
  | [] => [c]
  | x :: xs => if c.before x then c :: x :: xs else x :: insertChunk c xs

/-- The core with the least load, lowest number on ties (R286). -/
def leastLoaded (loads : Tbl Nat) : List Nat → Option Nat
  | [] => none
  | n :: ns =>
    match leastLoaded loads ns with
    | none => some n
    | some m => if Tbl.get 0 loads n ≤ Tbl.get 0 loads m then some n else some m

/-- Assign chunks to cores (R286): the core of each chunk, key seq·2^20 + head·2^12 + idx. -/
def assignChunks (cores : Nat → List Nat) (l : List Chunk) : Tbl Nat :=
  ((l.foldr insertChunk []).foldl (fun (acc : Tbl Nat × Tbl Nat) c =>
    match leastLoaded acc.2 (cores c.die) with
    | none => acc
    | some n => (Tbl.put acc.1 (c.seq * 2 ^ 20 + c.head * 2 ^ 12 + c.idx) n,
                 Tbl.put acc.2 n (Tbl.get 0 acc.2 n + c.cost))) ([], [])).1

/-- Chunks of a whole work list. -/
def listChunks (s : State) (part : Part) (attn : List Byte) (l : List Pick) : List Chunk :=
  let cs := part.cores
  let dieCores := fun d => cs.filter (fun n => n / 64 == d)
  let one := if (dieCores 1).isEmpty then some 0 else if (dieCores 0).isEmpty then some 1 else none
  let heads := attnHeads attn
  let rows := fun (x : Pick) => x.qLen * attnGroup attn
  let krec := fun (x : Pick) => s.readMem (fld x.raw 8 8) 32
  let all := fun (target : Nat → Nat) => l.flatMap (fun x =>
    (List.range heads).flatMap (itemChunks one target heads (rows x) x (krec x)))
  let whole := all (fun _ => 2 ^ 64)
  let w := fun d => (whole.filter (fun c => c.die == d)).foldl (fun acc c => acc + c.cost) 0
  all (fun d => cdiv (w d) (max 1 (dieCores d).length))

/-- The 16-byte attention item (Table 6.5). -/
def itemBytes (c : Chunk) (core n pDpa : Nat) : List Byte :=
  toLE 4 (c.seq + c.head * 2 ^ 16 + core * 2 ^ 24) ++ toLE 2 c.first ++ toLE 2 c.pages ++ toLE 4 (c.idx + n * 2 ^ 12) ++
  toLE 4 (pDpa / 64)

/-- A work list as the step builder writes it: its bytes, the DPA of its result words, its size in the area, and its items. -/
structure ListImage where
  body : List Byte
  results : Nat
  size : Nat
  items : List AttnItem
  deriving DecidableEq, Repr

/-- An attention item as it stands at the start of a step: the page identifiers of a chunk and its sequence's tags (R259, R288). -/
def State.attnItem (s : State) (l : List Pick) (c : Chunk) (core n out bytes : Nat) : AttnItem :=
  let k := match l.find? (fun x => x.seq == c.seq) with
    | some x => s.readMem (fld x.raw 8 8) 32
    | none => []
  { core := core, seq := c.seq, head := c.head, first := c.first,
    ids := (List.range c.pages).map (fun i => leNat (s.readMem (fld k 0 8 + 4 * (c.first + i)) 4)),
    seed := fldBits k 8 31 16, nChunks := n, out := out, bytes := bytes }

/-- A work list at a base (Tables 8.11 and 6.5, R270). The order of its tables in the area is the model's (DESIGN CHOICE, log entry
52). -/
def workListImage (s : State) (part : Part) (attn : List Byte) (step model bucket base : Nat) (l : List Pick) : ListImage :=
  let chunks := listChunks s part attn l
  let cores := assignChunks (fun d => part.cores.filter (fun n => n / 64 == d)) chunks
  let lenOff := 0x40
  let itemOff := roundUp (lenOff + 8 * l.length) 16
  let resOff := itemOff + 16 * chunks.length
  let partOff := roundUp (resOff + 8 * l.length) 64
  let recBytes := fun (seq : Nat) => match l.find? (fun x => x.seq == seq) with
    | some x => x.qLen * attnGroup attn * (64 + 4 * attnDim attn)
    | none => 0
  let nOf := fun (c : Chunk) => (chunks.filter (fun d => d.seq == c.seq && d.head == c.head)).length
  let items := chunks.foldl (fun (acc : List (List Byte × AttnItem) × Nat × Nat) c =>
    let n := nOf c
    let core := Tbl.get 0 cores (c.seq * 2 ^ 20 + c.head * 2 ^ 12 + c.idx)
    if n = 1 then (acc.1 ++ [(itemBytes c core 1 0, s.attnItem l c core 1 0 0)], acc.2)
    else
      let start := if c.idx = 0 then acc.2.2 else acc.2.1
      (acc.1 ++ [(itemBytes c core n (base + start), s.attnItem l c core n (base + start + c.idx * recBytes c.seq) (recBytes c.seq))],
       start, if c.idx = 0 then start + n * recBytes c.seq else acc.2.2))
    ([], partOff, partOff)
  let head := toLE 4 step ++ toLE 4 (model + bucket * 16) ++ toLE 4 l.length ++ toLE 4 chunks.length ++ toLE 4 lenOff ++
    toLE 4 itemOff ++ toLE 4 resOff ++ List.replicate 36 0
  let lens := l.flatMap (fun x => toLE 2 x.seq ++ toLE 2 x.qLen ++ toLE 4 x.kvLen)
  { body := slice (head ++ lens) 0 itemOff ++ items.1.flatMap (·.1) ++ List.replicate (8 * l.length) 0, results := base + resOff,
    size := roundUp items.2.2 64, items := items.1.map (·.2) }

/-! Work lists into the STEP_CONTEXT's ring (R368). -/

/-- Split a list into runs of at most n. -/
def splitRuns {α : Type} (n : Nat) : Nat → List α → List (List α)
  | 0, _ => []
  | fuel + 1, l => if l.isEmpty then [] else l.take n :: splitRuns n fuel (l.drop n)

/-- The groups of a step in order of model, bucket and first sequence (R366). -/
def stepLists (maxBatch : Nat) (l : List Pick) : List (Nat × Nat × List Pick) :=
  (List.range 16).flatMap (fun m => (List.range 5).flatMap (fun b =>
    (splitRuns maxBatch l.length (l.filter (fun x => seqModel x.raw == m && lengthBucket x.kvLen == b))).map (fun r => (m, b, r))))

/-- The descriptor of a work list: the bucket's template with pointer, core mask and estimate, never deferrable (R368). -/
def stepDescriptor (s : State) (part : Part) (m : List Byte) (bucket base : Nat) (l : List Pick) : List Byte :=
  let t := s.readMem (fld m 8 8 + 64 * bucket) 64
  let est := fld m 0x10 4 + fld m 0x14 4 * l.foldl (fun acc x => acc + x.qLen) 0
  let t := putBytes t 1 (toLE 1 (fld t 1 1 - fld t 1 1 % 2))
  putBytes (putBytes (putBytes t 8 (toLE 4 est)) 0x28 (toLE 6 base)) 0x30 (toLE 16 part.coreMask)

/-- Release the CQ slots of sequences that do not run after all. -/
def State.releaseSlots (s : State) (l : List Pick) : State :=
  l.foldl (fun s x => s.setCtx (seqCtx x.raw) { s.ctx (seqCtx x.raw) with seqReserved := (s.ctx (seqCtx x.raw)).seqReserved - 1 }) s

/-- Write one work list and its descriptor; a list that finds no room in the area or the ring (DESIGN CHOICE, log entry 53), or whose
template cannot be read (DESIGN CHOICE, log entry 192), is left out of the step. The accumulator holds the state and the bytes of the
area used so far. -/
def State.writeList (part : Part) (p : Nat) (r : List Byte) (acc : State × Nat) (e : Nat × Nat × List Pick) : State × Nat :=
  let (s, used) := acc
  let (m, b, l) := e
  let v := s.serving p
  let n := fldBits r 0 11 0
  let c := s.ctx n
  match Tbl.find v.models m, s.modelAttn p m with
  | some mr, some a =>
    let base := fld r 0x10 8 + used
    let i := workListImage s part a.raw v.stepNo m b base l
    if fld r 0x18 4 < used + i.size ∨ 2 ^ c.sqLog2 ≤ diff32 c.sqTail.toNat c.sqHead.toNat ∨ s.readable (fld mr 8 8 + 64 * b) 64 = false
    then (s.releaseSlots l, used)
    else
      let d := stepDescriptor s part mr b base l
      let idx := c.sqTail.toNat
      let s := ((s.partRead p (fld mr 8 8 + 64 * b) 64).partWrite p base i.body).partWrite p (c.sqBase + idx % 2 ^ c.sqLog2 * 64) d
      let s := { s with work := { s.work with doorbells := s.work.doorbells + 1 } }
      let s := s.setCtx n ((s.ctx n).ring (c.sqTail + 1) s.work.doorbells)
      let w : WorkList := {
        model := m, bucket := b, base := base, resultDpa := i.results,
        entries := l.map (fun x => { seq := x.seq, qLen := x.qLen, kvLen := x.kvLen }),
        ctx := n, idx := idx, attn := a.raw, items := i.items, skewed := [], weightSkew := false, done := none, updated := false }
      (s.setServing p { s.serving p with lists := (s.serving p).lists ++ [w] }, used + i.size)
  | _, _ => (s.releaseSlots l, used)

/-- The entries of a partition, ascending. -/
def State.seqsOf (s : State) (p : Nat) : List Nat := (Tbl.keys s.work.seqs).filter (fun i => seqPart (s.seq i).raw == p)

/-- The host writes that wait for the end of a partition's step, those of one entry in their order (R289, R372). -/
def State.pendingSeqs (s : State) (p : Nat) : List (Nat × List Byte) :=
  (Tbl.keys s.work.seqs).flatMap (fun i => if seqPart (s.seq i).raw = p then (s.seq i).pendingRaw.map (fun w => (i, w)) else [])

/-- Apply the host's writes that waited for the end of a partition's step (R289, R372). -/
def State.applyPending (s : State) (p : Nat) : State := (s.pendingSeqs p).foldl (fun s e => s.applySeq e.1 e.2) s

/-- The entries of a partition that are ready for a step: ACTIVE with tokens pending, in a registered model slot (R366). -/
def State.readySeqs (s : State) (p : Nat) : List (Nat × List Byte) :=
  ((s.seqsOf p).filter (fun i => seqState (s.seq i).raw == 1 && seqPending (s.seq i).raw != 0 &&
    (s.modelAttn p (seqModel (s.seq i).raw)).isSome)).map (fun i => (i, (s.seq i).raw))

/-- A slice holds what the step builder must read to form a step: an attention record, a template, a KV record, a page table or a free
list (R288, R303, R317). -/
def State.stepHeld (s : State) (p : Nat) : Bool :=
  (s.readySeqs p).any (fun e => s.seqHeld e.2 ||
    match Tbl.find (s.serving p).models (seqModel e.2), s.modelAttn p (seqModel e.2) with
    | some m, some a => s.memHeld (fld m 0 8) 64 || s.memHeld (fld m 8 8) 320 || s.memHeld (attnListBase a.raw) (4 * attnPool a.raw)
    | _, _ => false)

/-- Form a step of a partition; with no entry ready none starts (R262, R265, R288, R292, R366, R368, R372). A FAULTED entry with
Q_PENDING = 0 is not reported, and a host write that has waited since before the fault replaces FAULTED at the step's end (DESIGN
CHOICE, log entry 189). -/
def State.formStep (s : State) (p : Nat) (part : Part) (r : List Byte) : State :=
  if (s.readySeqs p).isEmpty then s
  else
    let ready := s.readySeqs p
    let s := ((s.seqsOf p).filter (fun i => seqState (s.seq i).raw == 3 && seqPending (s.seq i).raw != 0)).foldl
      (fun s i => s.holdOut p i .seqFaulted) s
    let (s, l) := (pickLens (fld r 6 2) (fld r 8 4) ready).foldl (State.admitSeq part p) (s, [])
    ((stepLists (fldBits r 4 11 0) l).foldl (State.writeList part p r) (s, 0)).1

/-- A step of the partition may start: it serves, no step is open, its STEP_CONTEXT runs, and no slice holds what the step builder
reads. -/
def State.stepRecord (s : State) (p : Nat) : Option (Part × List Byte) :=
  match s.part p, (s.serving p).raw with
  | some part, some r =>
    if (s.serving p).lists.isEmpty && !(s.serving p).models.isEmpty && (s.ctx (fldBits r 0 11 0)).active && s.pwr.fw.running &&
        !part.clearing && !s.errs.halted && !s.stepHeld p then some (part, r) else none
  | _, _ => none

/-- STEP_START: the step builder forms the next step of a partition in STEP_MODE 0 (R366, R372). -/
def execStepStart (p : Nat) (s : State) : Res :=
  match s.stepRecord p with
  | some (part, r) => if bit (fld r 0 4) 12 then .next s else .next (s.formStep p part r)
  | none => .next s

/-- STEP: a step message starts a step of a partition in STEP_MODE 1 (R372); it waits while a slice holds what the step builder reads
(R303, R317). -/
def execStep (f tag p : Nat) (s : State) : Res :=
  if s.ownsPart f p && s.stepHeld p then .next s else
  s.request f 0x46 tag false false (.owner (s.ownsPart f p)) true (fun s =>
    let s := match s.stepRecord p with
      | some (part, r) => if bit (fld r 0 4) 12 then s.formStep p part r else s
      | none => s
    s.reply f 0x46 tag .ok)

/-! The end of a work list (R369, R370, R289 to R291). -/

/-- Note the status of a work list's descriptor when its record is written. -/
def State.markListDone (s : State) (ctx idx : Nat) (st : Status) : State :=
  (Tbl.keys s.work.serving).foldl (fun s p =>
    let v := s.serving p
    if v.lists.any (fun l => l.ctx == ctx && l.idx == idx) then
      s.setServing p { v with lists := v.lists.map (fun l => if l.ctx = ctx ∧ l.idx = idx then { l with done := some st } else l) }
    else s) s

/-- Write a sequence's record in the slot reserved for it, and release the slot. -/
def State.seqRecord (s : State) (i : Nat) (st : Status) : State :=
  let e := s.seq i
  let s := s.setSeq i { e with tokensSince := 0 }
  s.writeRecord (seqCtx e.raw) { status := st, sat := false, nonfin := false, unsolicited := true, tag := i,
                                 detail0 := seqKv e.raw, detail1 := e.tokensSince, energy := 0 } false

/-- Update one sequence of a completed list (R369). A token whose place in TOKEN_BUF is not granted is not written, and the sequence goes on
(R205; DESIGN CHOICE, log entry 198). -/
def State.updateSeq (s : State) (p : Nat) (part : Part) (res : Nat) (x : LenEntry) : State :=
  let e := s.seq x.seq
  let word := leNat (s.readMem res 8)
  let valid := bit word 33
  let kv := seqKv e.raw + x.qLen
  let buf := fld e.raw 0x20 8
  let ended := bit word 32 || decide (fld e.raw 0x18 4 ≤ kv)
  let s := s.partRead p res 8
  let s := if valid && part.ownsStacked (buf + 4 * kv) 4 then s.partWrite p (buf + 4 * kv) (toLE 4 (bits word 31 0)) else s
  let q := if ended then 0 else if valid then 1 else seqPending e.raw - x.qLen
  let raw := putBytes (putBytes (putBytes e.raw 0x10 (toLE 4 kv)) 0x14 (toLE 4 q)) 0x28 (toLE 4 (fld e.raw 0x28 4 + 1))
  let raw := if ended then putBytes raw 0 (toLE 4 (fld raw 0 4 - seqState raw + 4)) else raw
  let e := { e with raw := raw, tokensSince := e.tokensSince + b2n valid }
  let s := s.setSeq x.seq e
  let v := s.serving p
  let s := s.setServing p { v with reported := Tbl.set false v.reported x.seq false }
  let every := fld raw 6 2
  if ended then s.seqRecord x.seq .seqEnded
  else if every ≠ 0 ∧ every ≤ e.tokensSince then s.seqRecord x.seq .ok
  else s

/-- Release the completion slot reserved for a sequence (R522). -/
def State.releaseSlot (s : State) (i : Nat) : State :=
  let n := seqCtx (s.seq i).raw
  s.setCtx n { s.ctx n with seqReserved := (s.ctx n).seqReserved - 1 }

/-- A sequence of a list whose record waits for the step's end: a tag mismatch befell its cache, or the whole list (R290, R291). -/
def WorkList.skewOf (l : WorkList) (seq : Nat) : Bool := l.weightSkew || l.skewed.contains seq

/-- End one sequence of a list: update it or report the failure; one with a tag mismatch waits for the step's end (R290, R291,
R369, R370). -/
def State.endSeq (p : Nat) (part : Part) (l : WorkList) (st : Status) (s : State) (e : LenEntry × Nat) : State :=
  let x := e.1
  if l.skewOf x.seq then s
  else if st.fails then (s.releaseSlot x.seq).seqRecord x.seq st
  else (s.releaseSlot x.seq).updateSeq p part (l.resultDpa + 8 * e.2) x

/-- What the step's end brings for a list: E_SCALE_SKEW for each sequence with a tag mismatch, and a partition fault event when a
weight, scale or codebook mismatched (R290, R291). -/
def State.endList (p : Nat) (part : Part) (s : State) (l : WorkList) : State :=
  let s := (l.entries.filter (fun x => l.skewOf x.seq)).foldl (fun s x => (s.releaseSlot x.seq).seqRecord x.seq .eScaleSkew) s
  if l.weightSkew then s.event part.fn .partitionFault (toLE 4 (p + Status.eScaleSkew.num * 2 ^ 16)) else s

/-- The step ends with its last work list: the records that waited, the step number, the host's writes that waited (R289 to
R291, R372). -/
def State.endStep (s : State) (p : Nat) (part : Part) : State :=
  let s := (s.serving p).lists.foldl (State.endList p part) s
  let v := s.serving p
  (s.setServing p { v with lists := [], stepNo := (v.stepNo + 1) % 2 ^ 32 }).applyPending p

/-- WORK_LIST_COMPLETE: the step builder updates the sequences of the oldest completed work list of a partition and writes
their records; with the last list the step ends (R289 to R291, R369 to R371). It waits while a slice holds the result words or the
pages of a sequence that the host ends (R303, R317). -/
def execWorkListComplete (p : Nat) (s : State) : Res :=
  if s.errs.halted then .next s else
  let v := s.serving p
  match s.part p, v.lists.find? (fun l => l.done.isSome && !l.updated) with
  | some part, some l =>
    let n := 8 * l.entries.length
    if s.memHeld l.resultDpa n || (s.pendingSeqs p).any (fun e => s.seqHeld (s.seq e.1).raw) then .next s else
    let st := if !s.stacksOn l.resultDpa n then .eStackOff else if s.poisoned l.resultDpa n then .eMemPoison else l.done.getD .ok
    let s := s.setServing p { v with lists := v.lists.map (fun m => if m = l then { l with updated := true } else m) }
    let s := (l.entries.zip (List.range l.entries.length)).foldl (State.endSeq p part l st) s
    .next (if (s.serving p).lists.all (fun m => m.updated) then s.endStep p part else s)
  | _, _ => .next s

/-- Resume a core after its aborted tile: at the instruction past the tile's COMMIT (log entry 54). -/
def State.resumeAfterTile (s : State) (n : Nat) : State :=
  let c := s.core n
  let q := (((rangeFrom c.pc (c.codeEnd - c.pc)).find? (fun q => match c.wordAt q with
    | some w => opcodeOf w == 2
    | none => false)).getD c.codeEnd)
  s.continueAt n { c with run := .running, tile := none, loops := [] } (q + 1)

/-- The place where the fault handler writes zeros for an item: the item's own partial record when it has several chunks, in the
cluster store of the combining core where that is this cluster's (R279); else output rows in the core's store, in granules of its
cluster or in stacked pages of the partition, one of D elements of 1, 2 or 4 bytes for each row of the item (log entry 54). -/
def WorkList.zeroPlace (l : WorkList) (part : Part) (n : Nat) (x : AttnItem) (rows out len : Nat) : Bool :=
  let k := n / 8
  let inCluster := decide (clusterBase k ≤ out) && part.ownsGranules k (out - clusterBase k) len
  if x.nChunks = 1 then
    [1, 2, 4].any (fun b => len == rows * attnDim l.attn * b) &&
      ((decide (coreBase n ≤ out) && decide (out + len ≤ coreBase n + coreStoreBytes)) || inCluster || part.ownsStacked out len)
  else
    let combiner := match l.items.find? (fun y => y.seq == x.seq && y.head == x.head) with
      | some y => y.core
      | none => n
    len == x.bytes && (if combiner / 8 = k then inCluster else out == x.out)

/-- The core has an open tile, one of its items of a sequence has a group whose tags are not the expected ones, and the place is that
item's (R259, R260, R288). Which page the tile has reached is not in the model: any group of the item counts (log entry 165). -/
def State.cacheHit (s : State) (n p : Nat) (l : WorkList) (seq out len : Nat) : Bool :=
  let c := s.core n
  c.tile.isSome && c.run == .running &&
    match l.entries.find? (fun e => e.seq == seq), s.part p with
    | some e, some part =>
      l.items.any (fun x => x.core == n && x.seq == seq && l.zeroPlace part n x (e.qLen * attnGroup l.attn) out len &&
        s.itemSkew l.attn x e.kvLen)
    | _, _ => false

/-- The fault handler writes zeros over an item's output or partial record; stacked memory is written for the partition (R375). -/
def State.zeroItem (s : State) (p out len : Nat) : State :=
  if out < stackedEnd then s.partWrite p out (List.replicate len 0) else s.writeMem out (List.replicate len 0)

/-- Mark a sequence FAULTED (Table 6.6). -/
def State.markFaulted (s : State) (seq : Nat) : State :=
  let e := s.seq seq
  s.setSeq seq { e with raw := putBytes e.raw 0 (toLE 4 (fld e.raw 0 4 - seqState e.raw + 3)) }

/-- The descriptor forgets a core's tag mismatch: Table 6.6 has dealt with it. -/
def State.forgiveSkew (s : State) (n : Nat) (w : CoreWork) : State :=
  let x := s.ctx w.ctx
  s.setCtx w.ctx { x with descs := x.descs.map (fun d => if d.idx = w.idx then
    { d with stops := d.stops.filter (fun e => !(e.1 == n && e.2.1 == .eScaleSkew)) } else d) }

/-- CACHE_TAG_MISMATCH: attention work of a work list meets a block tag that does not match. In the cache (`weight` clear) the core
finds it by R260 and the tile aborts with E_SCALE_SKEW; in a weight, scale or codebook operand (`weight` set) the core has stopped
with that code. The fault handler adds what the tile would have released to its sync objects (`signals`); for the cache it also
zeroes the item's output rows or partial record (`out`, `len`), marks the sequence FAULTED and counts the event, and otherwise marks
the whole list (R260, R290, R291, Table 6.6). With every tag as expected, another place or other signals no such event occurs. -/
def execCacheTagMismatch (n seq out len : Nat) (signals : List (Nat × Nat)) (weight : Bool) (s : State) : Res :=
  if s.errs.halted then .next s else
  match (s.core n).work with
  | none => .next s
  | some w =>
    match (s.serving w.part).lists.find? (fun l => l.ctx == w.ctx && l.idx == w.idx) with
    | none => .next s
    | some l =>
      if !(if weight then (s.core n).run == .stopped .eScaleSkew else s.cacheHit n w.part l seq out len) || !(if weight then (s.core n).plan else s.tilePlan n).releases signals then .next s
      else
        let s := if weight then s else (s.abortTile n .eScaleSkew).zeroItem w.part out len
        let s := signals.foldl (fun s e => if s.ownsSync w.part w.gen e.1 then s.signal e.1 e.2 w.part w.gen else s) s
        let l' := if weight then { l with weightSkew := true } else { l with skewed := l.skewed ++ [seq] }
        let v := s.serving w.part
        let v := { v with lists := v.lists.map (fun m => if m = l then l' else m), skews := v.skews + b2n (!weight) }
        let s := s.setServing w.part v
        let s := if weight then s else s.markFaulted seq
        .next ((s.forgiveSkew n w).resumeAfterTile n)

end Sys2Proof.Machine
end

