-- ==== Sys2Proof/Machine/Mover.lean ====
section
/-!
DEFINITION. The tile mover (R100 to R102, R114 to R120, R180 to R182, R219, R236, R315, R661, R662, R667, R779, R780).
-/
namespace Sys2Proof.Machine

/-! Source and destination of one element. -/

/-- Bit position of element (o, i) from the base of a data tile (R132, R171, R788). -/
def TDesc.bitPos (d : TDesc) (o i : Nat) : Nat :=
  if d.form = 3 then o * 8 * d.rowBytes + i * d.info.bits
  else d.block o i * 8 + elemIdx o i * d.info.bits

/-- The source element of destination element (o, i) of data tile b: tile, outer and inner index, or none for padding
(R100, R117, R219, R236). -/
def MoveDesc.source (m : MoveDesc) (b o i : Nat) : Option (Nat × Nat × Nat) :=
  let (o, i) := if m.transpose then (i, o) else (o, i)
  let a := m.src
  if m.s2d = 1 then
    if m.padFill && (decide (o < m.padT) || decide (a.dimOut ≤ o + m.padB) || decide (i < m.padL) ||
        decide (a.dimIn ≤ i + m.padR)) then none
    else some (b, o, i)
  else
    let c := a.dimIn
    let g := m.s2d
    let dy := i / (g * c)
    let dx := i / c % g
    let y := b * g + dy
    let x := o * g + dx
    if decide (i < c * g * g) && decide (m.padT ≤ y) && decide (y < m.padT + a.batch) && decide (m.padL ≤ x) &&
        decide (x < m.padL + a.dimOut) then some (y - m.padT, x - m.padL, i % c)
    else none

/-- What a move reads from: device memory, or the bytes the host answered. -/
structure MoveSrc where
  iova : Bool
  base : Nat
  /-- an old generation: every stacked read returns poison (R309) -/
  stale : Bool
  host : List Byte
  deriving DecidableEq, Repr

/-- The element of w bits at bit p of the source is padding of a tile with one zero point, and stays padding as it moves on (R219). -/
def MoveSrc.pad (x : MoveSrc) (s : State) (p w : Nat) : Bool := !x.iova && Padding.covers w (p % 8) (s.padOf (x.base + p / 8))

/-- The padding in n bytes at an offset of the source. -/
def MoveSrc.pads (x : MoveSrc) (s : State) (off n : Nat) : List (Option Padding) :=
  if x.iova then List.replicate n none else (rangeFrom (x.base + off) n).map s.padOf

/-- n bytes at an offset of a move's source. -/
def MoveSrc.read (x : MoveSrc) (s : State) (off n : Nat) : List Byte :=
  if x.iova then slice x.host off n else s.readMem (x.base + off) n

/-- The bytes at an offset carry poison. -/
def MoveSrc.bad (x : MoveSrc) (s : State) (off n : Nat) : Bool :=
  !x.iova && (s.poisoned (x.base + off) n || (x.stale && decide (x.base + off < storeBase)))

/-- The raw bits of an element, whether its bytes carry poison, whether it is padding of a tile with one zero point, and, of an element of
whole bytes, the padding of each. -/
structure MoveElem where
  raw : Nat
  poison : Bool
  pad : Bool
  pads : List (Option Padding)
  deriving DecidableEq, Repr

/-- Source element (b, o, i). -/
def MoveDesc.srcElem (m : MoveDesc) (x : MoveSrc) (s : State) (b o i : Nat) : MoveElem :=
  let p := b * m.src.stride * 8 + m.src.bitPos o i
  let w := m.src.info.bits
  let n := (p % 8 + w + 7) / 8
  { raw := (leNat (x.read s (p / 8) n) >>> (p % 8)) % 2 ^ w, poison := x.bad s (p / 8) n, pad := x.pad s p w,
    pads := x.pads s (p / 8) (w / 8) }

/-- The pad value as raw bits (R219): 0, or the tile's zero point. The move's descriptor does not carry the zero point: padding reads as it
through the tile's own descriptor, and any other reader finds a free value (log entry 32). -/
def MoveDesc.padBits (m : MoveDesc) (draw : Nat) : Nat :=
  if m.src.zpMode = 1 then (Config.padZero draw).toNat % 2 ^ m.src.info.bits else 0

/-- A destination element. -/
def MoveDesc.elem (m : MoveDesc) (x : MoveSrc) (s : State) (b o i : Nat) : MoveElem :=
  match m.source b o i with
  | none =>
    let w := m.src.info.bits
    { raw := m.padBits s.draws, poison := false, pad := m.src.zpMode == 1,
      pads := List.replicate (w / 8) (if m.src.zpMode = 1 then some (.whole w) else none) }
  | some (b', o', i') => m.srcElem x s b' o' i'

/-- What of byte j of packed elements of w bits is padding, from the elements it holds bits of: nibble by nibble for elements of 4 bits, byte
by byte for elements of whole bytes. -/
def bytePadding (w j : Nat) : List MoveElem → Option Padding
  | [a, b] =>
    if w != 4 then none
    else if a.pad && b.pad then some (.whole 4)
    else if a.pad then some (.beside true b.raw) else if b.pad then some (.beside false a.raw) else none
  | [a] => if w = 4 then (if a.pad then some (.whole 4) else none) else if w % 8 = 0 then a.pads.getD (8 * j % w / 8) none else none
  | _ => none

/-- The n bytes of elements of w bits packed from bit 0: a byte carries the poison of every element it holds bits of, and padding of a tile
with one zero point, whose elements have 4 or 8 bits. -/
def packElems (w n : Nat) (l : List MoveElem) : List PByte :=
  ((List.range n).zip (toLE n (l.foldr (fun e acc => e.raw + acc * 2 ^ w) 0))).map (fun (j, v) =>
    let es := (l.drop (8 * j / w)).take ((8 * j + 7) / w + 1 - 8 * j / w)
    { val := v, poison := es.any (·.poison), pad := bytePadding w j es })

/-- The data pieces of destination tile b. A transposing move to a linear destination writes the transposed rows (DESIGN CHOICE,
log entry 157). -/
def MoveDesc.dataPieces (m : MoveDesc) (x : MoveSrc) (s : State) (b : Nat) : List Piece :=
  let d := m.dst
  let w := d.info.bits
  let at_ := b * d.stride
  if d.form = 3 then
    (List.range d.dimOut).flatMap (fun o =>
      piecesOf (at_ + o * d.rowBytes) (packElems w (cdiv (d.dimIn * w) 8) ((List.range d.dimIn).map (m.elem x s b o))))
  else
    (List.range (d.dimOut / 4)).flatMap (fun ob => (List.range (d.dimIn / 4)).flatMap (fun ib =>
      piecesOf (at_ + (ob * (d.dimIn / 4) + ib) * d.info.blockBytes) (packElems w d.info.blockBytes
        ((List.range 16).map (fun q => m.elem x s b (4 * ob + q / 4) (4 * ib + q % 4))))))

/-- A plane's bytes gathered over the source tiles and laid out over the destination tiles (R176, R182). Where the two planes
differ in length, as in a transposing move of a tile with ZP_MODE 2, the bytes are cut off or filled up with 0 (DESIGN CHOICE,
log entry 158). -/
def MoveDesc.planePieces (m : MoveDesc) (x : MoveSrc) (s : State) (srcOff srcN dstOff dstN : Nat) : List Piece :=
  if srcN = 0 ∨ dstN = 0 then []
  else
    let all : List PByte := (List.range m.src.batch).flatMap (fun b =>
      let at_ := b * m.src.stride + srcOff
      ((List.range srcN).zip (x.read s at_ srcN)).map (fun (j, v) => { val := v, poison := x.bad s (at_ + j) 1, pad := none }))
    (List.range m.dst.batch).flatMap (fun b =>
      let bs := (all.drop (b * dstN)).take dstN
      piecesOf (b * m.dst.stride + dstOff) (bs ++ List.replicate (dstN - bs.length) { val := 0, poison := false, pad := none }))

/-- The whole destination of an ordinary move as runs. -/
def MoveDesc.pieces (m : MoveDesc) (x : MoveSrc) (s : State) : List Piece :=
  joinPieces ((List.range m.dst.batch).flatMap (m.dataPieces x s) ++
    m.planePieces x s m.src.tagOff m.src.tagBytes m.dst.tagOff m.dst.tagBytes ++
    m.planePieces x s m.src.aux m.src.auxBytes m.dst.aux m.dst.auxBytes)

/-! Protected weights (R660 to R662). -/

/-- One chunk: header at an offset of the source, into the destination at q. Answers the pieces, the next source offset
and destination offset, and whether the chunk passed; `no` is the expected CHUNK_NO, none for the first. -/
def weightChunk (key : WeightKey) (x : MoveSrc) (s : State) (total off q : Nat) (no : Option Nat) : List Piece × Nat × Bool :=
  let h := x.read s off 64
  let len := fld h 0xC 4
  let n := if len % 64 = 0 ∧ 64 ≤ len ∧ len ≤ 0x100000 ∧ q + len ≤ total then len else total - q
  let body := x.read s (off + 64) n
  let ok := n == len && len != 0 && slice h 0 8 == key.package && zeroBytes h 0x20 32 &&
    (no == none || no == some (fld h 8 4)) && !x.bad s off (64 + n)
  match (if ok then gcmOpen key.key (slice h 0 12) (slice h 0 16) (body ++ slice h 0x10 16) else none) with
  | some plain => ([{ off := q, data := slice plain 0 n, poison := false }], n, true)
  | none => ([{ off := q, data := List.replicate n 0, poison := true }], n, false)

/-- The source ranges of the chunks that fill a destination, as far as their headers can be followed. -/
def weightSpans (x : MoveSrc) (s : State) (total : Nat) : Nat → Nat → Nat → List (Nat × Nat)
  | 0, _, _ => []
  | fuel + 1, off, q =>
    if total ≤ q then []
    else
      let len := fld (x.read s off 64) 0xC 4
      if len = 0 ∨ len % 64 ≠ 0 ∨ total < q + len then [(off, 64)]
      else (off, 64 + len) :: weightSpans x s total fuel (off + 64 + len) (q + len)

/-- Decrypt consecutive chunks until the destination is full or one fails. -/
def weightPieces (key : WeightKey) (x : MoveSrc) (s : State) (total : Nat) :
    Nat → Nat → Nat → Option Nat → List Piece × Bool
  | 0, _, _, _ => ([], true)
  | fuel + 1, off, q, no =>
    if total ≤ q then ([], true)
    else
      match weightChunk key x s total off q no with
      | (ps, _, false) => (ps, false)
      | (ps, n, true) =>
        let r := weightPieces key x s total fuel (off + 64 + n) (q + n) (some (fld (x.read s (off + 8) 4) 0 4 + 1))
        (ps ++ r.1, r.2)

/-! Running a move. -/

/-- Cores a mask names in a cluster. -/
def maskCores (k mask : Nat) : List Nat := ((List.range 8).filter (bit mask)).map (8 * k + ·)

/-- Why the pieces of a destination of n bytes may not be written: exactly the bytes written are looked at (R110, R205). -/
def State.moveDstErr (s : State) (part : Part) (p gen k : Nat) (m : MoveDesc) (n : Nat) (ps : List Piece) : Option Status :=
  if m.mask != 0 then
    if (maskCores k m.mask).all (fun c => part.ownsCore c) &&
        ps.all (fun q => decide (m.dst.base + q.off + q.data.length ≤ coreStoreBytes)) then none
    else some .eStoreRange
  else if m.dst.space = 2 then s.egressErr p m.dst.base n
  else ps.findSome? (fun q => s.reachErr part p gen k true (m.dst.base + q.off) q.data.length)

/-- Write the pieces of a move to where its descriptor says (R115, R116, R309, R667). -/
def State.moveStore (s : State) (part : Part) (ctx : Option Nat) (p gen k : Nat) (m : MoveDesc) (n : Nat)
    (ps : List Piece) : State :=
  if m.mask != 0 then (maskCores k m.mask).foldl (fun s c => s.writePieces (coreBase c + m.dst.base) ps) s
  else if m.dst.space = 2 then s.egress ctx part.fn p m.dst.base n ps
  else if m.dst.base < storeBase then
    let s := ps.foldl (fun s q => s.accountStacked ctx p (k / 8) true (m.dst.base + q.off) q.data.length) s
    if s.stale p gen then s else s.writePieces m.dst.base ps
  else s.writePieces m.dst.base ps

/-- The bytes a move brings to its destination, and its status when they are written: chunks of a weight package decrypted with the
key register of the cluster's tile mover, or the pieces of an ordinary move (R645, R661, R662). -/
def State.moveData (s : State) (p k : Nat) (m : MoveDesc) (x : MoveSrc) : List Piece × Status :=
  let total := m.dst.extent
  if m.decrypt then
    match (if !m.transpose && m.s2d == 1 && !m.padFill then Tbl.find s.trust.clKeys (64 * k + p) else none) with
    | none => ([{ off := 0, data := List.replicate total 0, poison := true }], .eWeightAuth)
    | some key =>
      let r := weightPieces key x s total (total / 64 + 1) 0 0 none
      (joinPieces r.1, if r.2 then .ok else .eWeightAuth)
  else
    let ps := m.pieces x s
    (ps, if ps.any (·.poison) then .eMemPoison else .ok)

/-- Send the requests of a move's read of host memory (R206, R330, R331). -/
def State.moveAsks (s : State) (part : Part) (m : MoveDesc) (named : List (Nat × Nat)) : State :=
  named.foldl (fun s e => s.hostRead part.fn (m.src.base + e.1) e.2 3) s

/-- Count what a move reads, and send the requests of a read of host memory (R206, R330, R331, R374). -/
def State.moveReads (s : State) (part : Part) (ctx : Option Nat) (p k : Nat) (m : MoveDesc) (named : List (Nat × Nat)) : State :=
  let count := named.foldl (fun acc e => acc + e.2) 0
  if m.src.space = 2 then ((s.account ctx p 3 count).account ctx p 5 count).moveAsks part m named
  else if m.src.base < storeBase then
    named.foldl (fun s e => s.accountStacked ctx p (k / 8) false (m.src.base + e.1) e.2) s
  else s

/-- Run a checked move: the state after its writes, and its status (R119, R205, R207, R315, R662). -/
def State.runMove (s : State) (part : Part) (ctx : Option Nat) (p gen k : Nat) (m : MoveDesc) (host : HostRead) :
    State × Status :=
  let total := m.dst.extent
  let hostData := hostBytes host
  let x : MoveSrc := { iova := m.src.space == 2, base := m.src.base, stale := s.stale p gen, host := hostData }
  let named := if m.decrypt then weightSpans x s total (total / 64 + 1) 0 0 else m.named
  let srcErr := if m.src.space = 2 then none
    else named.findSome? (fun e => s.reachErr part p gen k false (m.src.base + e.1) e.2)
  let short := m.src.space == 2 &&
    (host == .refused || named.any (fun e => e.2 != 0 && decide (hostData.length < e.1 + e.2)))
  let r := s.moveData p k m x
  match srcErr, short, s.moveDstErr part p gen k m total r.1 with
  | some e, _, _ => (s, e)
  | none, true, _ => (s.moveAsks part m named, .eIovaFault)
  | none, false, some e => (s, e)
  | none, false, none =>
    let s1 := s.moveReads part ctx p k m named
    let s1 := if m.src.zpMode = 1 then { s1 with draws := s1.draws + 1 } else s1
    (s1.moveStore part ctx p gen k m total r.1, r.2)

/-! The queue of a cluster's tile mover. -/

/-- Note a failed move or tile at its descriptor, for the fault handler (R356, Table 8.5). The first status stays. -/
def State.noteFault (s : State) (core ctx idx tileId : Nat) (st : Status) : State :=
  let c := (s.ctx ctx).noteStop idx core st (tileId + core * 2 ^ 16)
  s.setCtx ctx { c with descs := c.descs.map (fun d =>
    if d.idx = idx ∧ d.fault = false then
      { d with fault := true, status := st, detail0 := tileId + core * 2 ^ 16 } else d) }

/-- The same, and the core that works for the descriptor stops. -/
def State.faultDesc (s : State) (core ctx idx tileId : Nat) (st : Status) : State :=
  let s := s.noteFault core ctx idx tileId st
  s.setCore core { s.core core with run := .stopped st }

/-! Weight streams at the mover (R321 to R324). -/

def streamN (r : List Byte) : Nat := fld r 8 2
def streamConsumers (r : List Byte) : Nat := fld r 0xA 2
def streamFirst (r : List Byte) : Nat := fldBits r 0xC 3 0
def streamHalf (r : List Byte) : Nat := fldBits r 0xC 11 8
def streamLoop (r : List Byte) : Bool := bit (fld r 0xC 4) 12
def streamFilled (r : List Byte) : Nat := fld r 0x10 2
def streamReleased (r : List Byte) : Nat := fld r 0x12 2

/-- DPA of the half that takes segment n (R318, R321). -/
def streamHalfBase (r : List Byte) (k n : Nat) : Nat := clusterBase k + (streamFirst r + n % 2 * streamHalf r) * 0x100000

def State.setStream (s : State) (w : WStream) : State :=
  { s with work := { s.work with streams := Tbl.put s.work.streams (16 * w.part + w.cluster) w } }

/-- A stream's fill moves leave the cluster. -/
def State.dropFills (s : State) (part k : Nat) : State :=
  let cl := s.cluster k
  let other := fun (x : MoveSlot) => match x.owner with
    | .stream p _ => p != part
    | .program _ _ => true
  s.setCluster k { cl with released := cl.released.filter other, moves := cl.moves.filter other }

/-- A stopped stream leaves its granules with undefined contents (R324). -/
def State.haltStream (s : State) (w : WStream) : State :=
  ((s.dropFills w.part w.cluster).setStream { w with stopped := true, tails := [] }).undefine (streamHalfBase w.raw w.cluster 0)
    (2 * streamHalf w.raw * 0x100000)

/-- A fill move that the firmware posts to a cluster (R321). -/
def State.postFill (s : State) (w : WStream) (seg : Nat) (raw : List Byte) : State :=
  let cl := s.cluster w.cluster
  s.setCluster w.cluster { cl with released := cl.released ++ [{
    slot := 0, raw := raw, owner := .stream w.part seg, ctx := 0, idx := 0, part := w.part, gen := s.gen w.part, weightSlot := 0 }] }

/-- The descriptors that run on a partition's cores of a cluster: the lowest core of each, its context and its index. -/
def State.clusterDescs (s : State) (part k : Nat) : List (Nat × Nat × Nat) :=
  ((Tbl.keys s.cpu.cores).filter (fun n => n / 8 == k)).foldl (fun acc n => match (s.core n).work with
    | some w => if w.part = part ∧ acc.any (fun e => e.2.1 == w.ctx && e.2.2 == w.idx) = false then acc ++ [(n, w.ctx, w.idx)] else acc
    | none => acc) []

/-- A fill of a stream fails: the stream stops, the partition fault event goes to its function, and the fault handler runs for the
descriptors that work on the cores of the stream's cluster; with none of them it has nothing to stop, and its sync object is signalled
at once (R323, R357, Table 12.8; the descriptors meant are a DESIGN CHOICE, log entry 182). -/
def State.failStream (s : State) (part k : Nat) (st : Status) : State :=
  let s := match Tbl.find s.work.streams (16 * part + k) with
    | some w => s.haltStream w
    | none => s.dropFills part k
  match s.part part with
  | some x =>
    let s := s.event x.fn .partitionFault (toLE 4 (part + st.num * 2 ^ 16))
    match s.clusterDescs part k, x.reserve[0]? with
    | [], some i => s.signal i 1 64 0
    | l, _ => l.foldl (fun s e => s.faultDesc e.1 e.2.1 e.2.2 0xFFFF st) s
  | none => s

/-- A move fails: a program's move enters the fault handling of its descriptor, whether its core still works for that descriptor or
has yielded or ended; a stream's stops the stream. Weights that fail their tag are a contained error of the cluster, named by the destination
(R323, R356, R691, R694; the DETAIL is a DESIGN CHOICE, log entry 213). -/
def State.failMove (s : State) (k : Nat) (m : MoveSlot) (st : Status) : State :=
  let s := if st = .eWeightAuth then s.contained st (clusterIsland k) (parseMove m.raw).dst.base else s
  match m.owner with
  | .program core tileId =>
    match (s.core core).work with
    | some w =>
      if w.ctx = m.ctx ∧ w.idx = m.idx then s.faultDesc core m.ctx m.idx tileId st else s.noteFault core m.ctx m.idx tileId st
    | none => s.noteFault core m.ctx m.idx tileId st
  | .stream part _ => s.failStream part k st

/-- Partitions with cores in a cluster (R120). -/
def State.partsIn (s : State) (k : Nat) : List Nat :=
  (Tbl.keys s.work.parts).filter (fun p => match s.part p with
    | some x => !(x.coresIn k).isEmpty
    | none => false)

/-- The lowest free descriptor slot of a tile mover, if work other than a recovery's may take one (R114, R120). -/
def State.freeSlot (s : State) (k : Nat) : Option Nat :=
  let cl := s.cluster k
  if cl.moves.length + (s.partsIn k).length < 64 then
    (List.range 64).find? (fun i => !cl.moves.any (fun m => m.slot == i))
  else none

/-- MOVE_DESCRIPTOR_ACCEPT: the cluster controller takes the first released move, stamps partition, generation and weight
slot, checks the owner of its completion signal, and queues it on the tile mover, which checks its layout (R181, R182,
R779, R780, R102, R120). A move that meets an open repair or retrain fails R361 (R362). -/
def execMoveDescriptorAccept (k : Nat) (s : State) : Res :=
  if s.errs.halted then .next s else
  let s0 := s
  let cl := s.cluster k
  match cl.released, s.freeSlot k with
  | m :: rest, some slot =>
    let s := s.setCluster k { cl with released := rest }
    let d := parseMove m.raw
    if d.add != 0 && !s.ownsSync m.part m.gen d.sync then .next (s0.stallAll (s.failMove k m .eSyncOwner))
    else
      match d.err with
      | some e => .next (s0.stallAll (s.failMove k m e))
      | none =>
        let raw := putBytes m.raw 0x38 (toLE 2 m.part ++ toLE 2 m.gen ++ toLE 1 m.part)
        let m := { m with slot := slot, raw := raw, weightSlot := m.part }
        let s := s.setCluster k { s.cluster k with moves := (s.cluster k).moves ++ [m] }
        .next (s0.stallUpdate m.part (if s.troubled m.part m then s.wcetVoid 2 m.part else s))
  | _, _ => .next s

/-- A fill move of segment `seg` is queued or in progress. -/
def State.fillBusy (s : State) (part k seg : Nat) : Bool :=
  ((s.cluster k).released ++ (s.cluster k).moves).any (fun m => m.owner == .stream part seg)

/-- A fill move of a stream has ended well: when no other of its segment is left, the firmware posts the segment's last move, whose
end completes the segment (R321). -/
def State.streamMoveDone (s : State) (k part seg : Nat) : State :=
  match Tbl.find s.work.streams (16 * part + k) with
  | some w =>
    if s.fillBusy part k seg then s
    else
      match w.tails.find? (fun e => e.1 == seg) with
      | some e => (s.postFill w seg e.2).setStream { w with tails := w.tails.filter (fun x => !(x.1 == seg)) }
      | none => s.setStream { w with filled := w.filled + 1 }
  | none => s

/-- A move cannot end now: some stacked memory it reads or writes is held by its slice (R303, R317, R701). -/
def State.moveHeld (s : State) (p gen k : Nat) (d : MoveDesc) (host : HostRead) : Bool :=
  (s.mem.temp.any (fun e => decide (105 ≤ e.2)) || s.mem.anyRepair) &&
    ((d.src.space != 2 && d.named.any (fun e => s.memHeld (d.src.base + e.1) e.2)) ||
      (d.mask == 0 && d.dst.space != 2 &&
        (s.moveData p k d { iova := d.src.space == 2, base := d.src.base, stale := s.stale p gen, host := hostBytes host }).1.any
          (fun q => s.memHeld (d.dst.base + q.off) q.data.length)))

/-- The answer to the host read of a move that a Clearing dropped arrives: one that the host refuses is a discarded transfer (R562, log
entry 193). -/
def State.lateMove (s : State) (k slot : Nat) (refused : Bool) : State :=
  match (Tbl.keys s.work.clearings).find? (fun p => (Tbl.find s.work.clearings p).any (fun j => j.moves.contains (k, slot))) with
  | none => s
  | some p => match Tbl.find s.work.clearings p with
    | some j =>
      let s := { s with work := { s.work with clearings := Tbl.put s.work.clearings p { j with moves := j.moves.erase (k, slot) } } }
      if refused then s.countStale p false else s
    | none => s

/-- MOVE_COMPLETE: the tile mover ends the move in a slot. On success it signals the sync object after the writes; a failed
move signals nothing (R119). `host` is what the host answers when the source is host memory, byte j at SRC_BASE + j. While a slice
holds a request of the move (R303, R701), or the link to the host retrains with a read of it outstanding (R501), the move does not
end. -/
def execMoveComplete (k slot : Nat) (host : HostRead) (s : State) : Res :=
  if s.errs.halted then .next s else
  let cl := s.cluster k
  match cl.moves.find? (fun m => m.slot == slot) with
  | none => .next (s.lateMove k slot (host == .refused))
  | some m =>
    let s0 := s
    let d := parseMove m.raw
    match s.part m.part with
    | none => .next (s.setCluster k { cl with moves := cl.moves.filter (fun x => !(x.slot == slot)) })
    | some part =>
      if s.moveHeld m.part m.gen k d host || (d.src.space == 2 && (s.link (s.linkOf part.fn)).retraining) then .next s
      else
        let s := s.setCluster k { cl with moves := cl.moves.filter (fun x => !(x.slot == slot)) }
        let ctx := match m.owner with
          | .program _ _ => some m.ctx
          | .stream _ _ => none
        match s.runMove part ctx m.part m.gen k d host with
        | (s, .ok) =>
          let s := s.signal d.sync d.add m.part m.gen
          match m.owner with
          | .program _ _ => .next (s0.stallUpdate m.part s)
          | .stream p seg => .next (s0.stallUpdate m.part (s.streamMoveDone k p seg))
        | (s, e) => .next (s0.stallUpdate m.part (s.failMove k m e))

end Sys2Proof.Machine
end

