-- ==== Sys2Proof/Machine/Stem.lean ====
section
/-!
DEFINITION. The stem engine (R121 to R123, R215 to R219, R232 to R235, R780).
-/
namespace Sys2Proof.Machine

/-- The geometry record of a stem descriptor. -/
def stemGeom (r : List Byte) : List Byte := slice r 0x20 32

/-- The type code of a stem descriptor and the bytes of one input element. -/
def stemType (r : List Byte) : Nat := fldBits r 0xC 5 0
def stemElt (r : List Byte) : Nat := if stemType r = 0x11 then 2 else 1

/-- The limits of R121 and R233, with the reserved fields of Table 5.5. -/
def stemLimitsOk (r : List Byte) : Bool :=
  let g := stemGeom r
  fldBits r 0 31 28 == 0 && fld r 7 1 == 0 && fld r 0xB 1 == 0 && fldBits r 0xC 7 6 == 0 && fld r 0xE 2 == 0 &&
  zeroBytes r 0x18 8 && (stemType r == 1 || stemType r == 2 || stemType r == 0x11) &&
  decide (fld g 4 2 ≤ 8) && decide (fld g 6 2 ≤ 64) && decide (fld g 8 1 ≤ 7) && decide (fld g 9 1 ≤ 7) &&
  decide (fld g 0xA 1 ≤ 4) && decide (fld g 0xB 1 ≤ 4) && decide (fld g 0xC 1 ≤ 2) && decide (fld g 0xD 1 ≤ 2) &&
  (List.range 4).all (fun i => decide (fld g (0x10 + i) 1 ≤ 6)) && fld g 0xE 2 == 1 && fldBits g 0x14 1 0 == 0

/-- Bytes of the input, the weights and the output (R232). -/
def stemSizes (r : List Byte) : Nat × Nat × Nat :=
  let g := stemGeom r
  let (h, w) := geomOut g
  let e := stemElt r
  (fld g 0 2 * fld g 2 2 * fld g 4 2 * e, fld g 6 2 * fld g 8 1 * fld g 9 1 * fld g 4 2 * e,
   roundUp (h * w) 4 / 4 * (roundUp (fld g 6 2) 4 / 4) * 64)

/-- DPA of a stem descriptor's input (R232). -/
def stemSrc (k : Nat) (r : List Byte) : Nat :=
  if bit (fld r 0 4) 27 then coreBase (8 * k + fldBits r 0 26 24) + fldBits r 0 23 0 else clusterBase k + fldBits r 0 23 0

def stemDst (k : Nat) (r : List Byte) : Nat := clusterBase k + fldBits r 4 23 0
def stemWeights (k : Nat) (r : List Byte) : Nat := clusterBase k + fldBits r 8 23 0

/-- The check of a stem descriptor, in the order geometry (E_WINDOW_GEOMETRY), limits (E_STEM_LIMIT), owner of the signal, alignment, reach
(DESIGN CHOICE: the manual gives no order, log entry 42). -/
def State.stemErr (s : State) (k p gen : Nat) (part : Part) (r : List Byte) : Option Status :=
  let (a, w, o) := stemSizes r
  let inCore := bit (fld r 0 4) 27
  let srcOk := if inCore then
      part.ownsCore (8 * k + fldBits r 0 26 24) && decide (fldBits r 0 23 0 + a ≤ coreStoreBytes)
    else part.ownsGranules k (fldBits r 0 23 0) a
  if !geomOk (stemGeom r) then some .eWindowGeometry
  else if !stemLimitsOk r then some .eStemLimit
  else if fld r 0x12 2 != 0 && !s.ownsSync p gen (fld r 0x10 2) then some .eSyncOwner
  else if fldBits r 0 23 0 % 64 != 0 || fldBits r 4 23 0 % 64 != 0 then some .eLayout
  else if !(srcOk && part.ownsGranules k (fldBits r 8 23 0) w && part.ownsGranules k (fldBits r 4 23 0) o) then
    some .eStoreRange
  else none

/-- Input element (y, x, ci), none in padding: outside the image, or padding of a tile with one zero point that a move wrote, which holds the
zero point and adds nothing (R219, R220, log entry 32). -/
def stemInput (s : State) (k : Nat) (r : List Byte) (y x : Int) (ci : Nat) : Option Nat :=
  let g := stemGeom r
  let h : Int := fld g 0 2
  let w : Int := fld g 2 2
  let c := fld g 4 2
  if 0 ≤ y ∧ y < h ∧ 0 ≤ x ∧ x < w then
    let i := (y.toNat * fld g 2 2 + x.toNat) * c + ci
    if Padding.covers (8 * stemElt r) 0 (s.padOf (stemSrc k r + i)) then none
    else some (leNat (s.readMem (stemSrc k r + i * stemElt r) (stemElt r)))
  else none

/-- The terms of one output value: input element, or none in padding, and weight, over ky, kx, ci. -/
def stemTerms (s : State) (k : Nat) (r : List Byte) (oy ox co : Nat) : List (Option Nat × Nat) :=
  let g := stemGeom r
  let kh := fld g 8 1
  let kw := fld g 9 1
  let c := fld g 4 2
  (List.range kh).flatMap (fun ky => (List.range kw).flatMap (fun kx => (List.range c).map (fun ci =>
    let y : Int := (oy * fld g 0xA 1 + ky * fld g 0xC 1 : Nat) - (fld g 0x10 1 : Nat)
    let x : Int := (ox * fld g 0xB 1 + kx * fld g 0xD 1 : Nat) - (fld g 0x12 1 : Nat)
    (stemInput s k r y x ci,
     leNat (s.readMem (stemWeights k r + (((co * kh + ky) * kw + kx) * c + ci) * stemElt r) (stemElt r))))))

/-- One output value as an accumulator word, and whether it clamped (R137, R139, R142, R234). -/
def stemValue (s : State) (k : Nat) (r : List Byte) (oy ox co : Nat) : Word × Bool :=
  let ts := stemTerms s k r oy ox co
  if stemType r = 0x11 then
    (toF32 (sumNum (ts.map (fun t => (decodeFp fmtFP16 (t.1.getD 0)).mul (decodeFp fmtFP16 t.2)))), false)
  else
    let ty := stemType r
    let zp := intElem ty (fld r 0xD 1)
    let sum := ts.foldl (fun acc t => match t.1 with
      | some a => acc + (intElem ty a - zp) * sext 8 t.2
      | none => acc) (0 : Int)
    let (v, c) := sat32 sum
    (BitVec.ofInt 32 v, c)

/-- The blocks of the C-form output and whether any value clamped; positions beyond H_OUT · W_OUT or C_OUT, whose value the manual does
not state, are free. -/
def stemOutput (s : State) (k : Nat) (r : List Byte) : List Piece × Bool :=
  let g := stemGeom r
  let (h, w) := geomOut g
  let co := fld g 6 2
  let nb := roundUp co 4 / 4
  let blocks := (List.range (roundUp (h * w) 4 / 4)).flatMap (fun ob => (List.range nb).map (fun ib =>
    let vs := (List.range 16).map (fun q =>
      let p := 4 * ob + q / 4
      let c := 4 * ib + q % 4
      if p < h * w ∧ c < co then stemValue s k r (p / w) (p % w) c else (Config.freeLane s.draws (16 * (ob * nb + ib) + q), false))
    (({ off := (ob * nb + ib) * 64, data := vs.flatMap (fun v => toLE 4 v.1.toNat), poison := false } : Piece),
     vs.any (·.2))))
  (blocks.map (·.1), blocks.any (·.2))

/-- A stem descriptor fails: its status goes to the descriptor it works for (log entry 43). -/
def State.failStem (s : State) (k ctx idx : Nat) (st : Status) : State :=
  match (s.descCores ctx idx).filter (fun n => n / 8 == k) with
  | n :: _ => s.faultDesc n ctx idx 0xFFFF st
  | [] => s

/-- The next queued job, if the engine is free and the window is not on HOLD (R123, R594). -/
def Cluster.grant (hold : Bool) (c : Cluster) : Cluster :=
  match c.stemRun, c.stemQueue with
  | none, j :: js => if hold then c else { c with stemRun := some j, stemQueue := js }
  | _, _ => c

/-- A stem descriptor whose output has a zero dimension completes with OK_EMPTY: its signal is released, and the descriptor it works
for carries the outcome when nothing else befalls it (R217; log entry 43). -/
def State.emptyStem (s : State) (ctx idx p gen : Nat) (r : List Byte) : State :=
  (s.setDesc ctx idx (fun d => if d.status = .ok then { d with status := .okEmpty, detail0 := geomDetail (stemGeom r) } else d)).signal
    (fld r 0x10 2) (fld r 0x12 2) p gen

/-- STEM_DESCRIPTOR: the cluster firmware stamps and checks a stem descriptor that it issues for a running descriptor, and
grants the stem engine in the order of submission (R123, R215, R217, R232, R233, R780). -/
def execStemDescriptor (k ctx idx : Nat) (raw : List Byte) (s : State) : Res :=
  if s.errs.halted then .next s else
  match s.desc ctx idx, (s.descCores ctx idx).find? (fun n => n / 8 == k) with
  | some _, some n =>
    match (s.core n).work with
    | none => .next s
    | some w =>
      match s.part w.part with
      | none => .next s
      | some part =>
        let r := putBytes (slice raw 0 64) 0x14 (toLE 2 w.part ++ toLE 2 w.gen)
        match s.stemErr k w.part w.gen part r with
        | some e => .next (s.failStem k ctx idx e)
        | none =>
          let (h, wo) := geomOut (stemGeom r)
          let s := s.keepGeoms k [stemGeom r]
          let r := putBytes r 0x20 (geomFilled (stemGeom r))
          if h = 0 ∨ wo = 0 then .next (s.emptyStem ctx idx w.part w.gen r)
          else
            let cl := s.cluster k
            let j : StemJob := { raw := r, part := w.part, gen := w.gen, ctx := ctx, idx := idx }
            .next (s.setCluster k (({ cl with stemQueue := cl.stemQueue ++ [j] } : Cluster).grant s.pwr.ledger.hold))
  | _, _ => .next s

/-- STEM_COMPLETE: the stem engine completes its writes, signals, and takes the next job (R119, R234, R235). -/
def execStemComplete (k : Nat) (s : State) : Res :=
  if s.errs.halted then .next s else
  let cl := s.cluster k
  match cl.stemRun with
  | none => .next s
  | some j =>
    let s := s.setCluster k (({ cl with stemRun := none } : Cluster).grant s.pwr.ledger.hold)
    let (a, w, _) := stemSizes j.raw
    if s.poisoned (stemSrc k j.raw) a || s.poisoned (stemWeights k j.raw) w then .next (s.failStem k j.ctx j.idx .eMemPoison)
    else
      let (ps, sat) := stemOutput s k j.raw
      let s := s.writePieces (stemDst k j.raw) ps
      let s := ({ s with draws := s.draws + 1 } : State).setDesc j.ctx j.idx (fun d => { d with accSat := d.accSat || sat })
      .next (s.signal (fld j.raw 0x10 2) (fld j.raw 0x12 2) j.part j.gen)

end Sys2Proof.Machine
end

