-- ==== Sys2Proof/Machine/Sched.lean ====
section
/-!
DEFINITION. Dispatch, completion and fault handling of descriptors (R343 to R346, R356 to R359, R385, R517, R527 to R529, R592
to R597).
-/
namespace Sys2Proof.Machine

/-! Pas-de-deux pairs that a partition's failure stops (R384, R385). -/

def pairA (r : List Byte) : Nat := fldBits r 0 5 0
def pairB (r : List Byte) : Nat := fldBits r 0 13 8

/-- Stop a pair: SAFE_STATE_N goes low and PF0 and the owner receive the mismatch event with a status (R384). -/
def State.pairStop (s : State) (i : Nat) (st : Status) (detail : List Byte) : State :=
  match Tbl.find s.work.pairs i with
  | some x =>
    let s := { s with work := { s.work with pairs := Tbl.put s.work.pairs i { x with stopped := true } } }
    (s.driveSafe 2).eventBoth x.fn st (toLE 4 i ++ detail)
  | none => s

/-- Stop every armed pair of a partition that fails; the report carries the round (R385). -/
def State.pairsFail (s : State) (p : Nat) (st : Status) : State :=
  (Tbl.keys s.work.pairs).foldl (fun s i => match Tbl.find s.work.pairs i with
    | some x => if x.armed && !x.stopped && (pairA x.raw == p || pairB x.raw == p) then s.pairStop i st (toLE 4 (x.round + 1)) else s
    | none => s) s

/-! Choosing a descriptor (R344). -/

/-- The descriptor of a context that may start next: the first that has not started, with nothing in flight before it, a
FENCE only at the head (R344, R358, Table 11.10). -/
def Ctx.candidate (c : Ctx) : Option Desc :=
  if c.halted || c.paused then none
  else
    match c.descs.find? (fun d => d.phase.unstarted || d.phase == .fetching) with
    | some d =>
      if d.phase == .fetching || (bit (fld d.raw 0 4) 9 && c.descs.head?.map (·.idx) != some d.idx) then none else some d
    | none => none

/-- The descriptors of a context that have arrived and not started; a halted or paused context offers none. -/
def Ctx.waiting (c : Ctx) : List Desc := if c.halted || c.paused then [] else c.descs.filter (·.phase.unstarted)

/-- Insert by the order of doorbells. -/
def insertOrder (e : Nat × Desc) : List (Nat × Desc) → List (Nat × Desc)
  | [] => [e]
  | x :: xs => if e.2.order ≤ x.2.order then e :: x :: xs else x :: insertOrder e xs

/-- The contexts of a partition of a class, ascending. -/
def State.classCtxs (s : State) (p : Nat) (rt : Bool) : List Nat :=
  (Tbl.keys s.work.ctxs).filter (fun n => (s.ctx n).part == p && (s.ctx n).realtime == rt)

/-- The waiting descriptors in the order of R344: every REAL_TIME one by doorbells; of the NORMAL contexts the first of each, those passed
over in their turn before the others, which follow the one served last. -/
def State.rtCandidates (s : State) (p : Nat) : List (Nat × Desc) :=
  ((s.classCtxs p true).flatMap (fun n => (s.ctx n).waiting.map (fun d => (n, d)))).foldr insertOrder []

def State.normalCandidates (s : State) (p : Nat) : List (Nat × Desc) :=
  let l := (s.classCtxs p false).filterMap (fun n => (s.ctx n).waiting.head?.map (fun d => (n, d)))
  let passed := Tbl.get [] s.work.passed p
  let rest := l.filter (fun e => !passed.contains e.1)
  passed.filterMap (fun n => l.find? (fun e => e.1 == n)) ++
    match Tbl.find s.work.lastNormal p with
    | some n => rest.filter (fun e => decide (n < e.1)) ++ rest.filter (fun e => decide (e.1 ≤ n))
    | none => rest

/-- A NORMAL context uses its turn: those before it in the order of R344 stay before the others, and the turn passes on from it, unless it
had been passed over itself. -/
def State.takeTurn (s : State) (p n : Nat) : State :=
  let passed := Tbl.get [] s.work.passed p
  let order := (s.normalCandidates p).map (·.1)
  if passed.contains n then { s with work := { s.work with passed := Tbl.set [] s.work.passed p (passed.erase n) } }
  else { s with work := { s.work with
    lastNormal := Tbl.put s.work.lastNormal p n, passed := Tbl.set [] s.work.passed p (order.takeWhile (fun m => m != n)) } }

/-- The cores a descriptor needs. -/
def descMask (raw : List Byte) : List Nat :=
  if fld raw 0 1 = 1 then (List.range 128).filter (bit (fld raw 0x30 16)) else []

/-- A core is free for a descriptor; one that yielded under Minuet counts as free (R343). -/
def State.coreFree (s : State) (n : Nat) : Bool :=
  let c := s.core n
  c.work.isNone && !c.minuetReq && (c.run == .idle || c.run == .yielded) && !s.coreClosed n

/-- The wait of a descriptor is met (R527). -/
def Desc.ready (d : Desc) : Bool := (descWait d.raw).isNone || d.waitMet

/-- An admitted descriptor may start: its wait is met and every core it names is free and not needed by an earlier waiting
descriptor of its class (R343, R344). -/
def State.startable (s : State) (d : Desc) (blocked : List Nat) : Bool :=
  d.phase == .admitted && d.ready && (descMask d.raw).all (fun n => s.coreFree n && !blocked.contains n)

/-- A descriptor that names a retired core fails (R703). -/
def State.namesRetired (s : State) (raw : List Byte) : Bool := (descMask raw).any (fun n => Tbl.get false s.errs.retiredCores n)

/-- The ledger may test a descriptor: no core it names is one that the state in force or asked for turns off (R577); one that names a
retired core is taken up to fail. -/
def State.admissible (s : State) (d : Desc) : Bool := s.namesRetired d.raw || (descMask d.raw).all (fun n => !s.coreClosed n)

/-- The first waiting descriptor for which the firmware can do something: test it with the ledger, or start it. It must be the one its
context may start next; each one passed over keeps the cores it needs from those after it (R344). -/
def State.pick (s : State) : List (Nat × Desc) → List Nat → Option (Nat × Desc)
  | [], _ => none
  | e :: rest, blocked =>
    if (s.ctx e.1).candidate.map (·.idx) = some e.2.idx ∧ ((e.2.phase == .queued && s.admissible e.2) || s.startable e.2 blocked) = true then some e else s.pick rest (blocked ++ descMask e.2.raw)

/-- The cores that the waiting descriptors of a class before a context's first need. -/
def blockedBefore : List (Nat × Desc) → Nat → List Nat
  | [], _ => []
  | e :: rest, n => if e.1 = n then [] else descMask e.2.raw ++ blockedBefore rest n

/-! Admission and start. -/

/-- The first condition of R361 that fails as a REAL_TIME descriptor of a partition starts: 0 a core below MIN_CLOCK or in freeze mode,
1 a stack at 95 °C or more, 2 a queued request that meets an open repair or retrain, 3 a deferral, an open HOLD among them. -/
def State.wcetFails (s : State) (p : Nat) (waited : Bool) : Option Nat :=
  match s.part p with
  | none => none
  | some x =>
    if x.cores.any (fun n => decide (s.corePoint n < x.minClock) || (s.core n).frozen) then some 0
    else if (List.range 4).any (fun st => decide (95 ≤ Tbl.get 0 s.mem.temp st)) then some 1
    else if (s.movesOf p).any (s.troubled p) then some 2
    else if waited || s.pwr.ledger.hold then some 3
    else none

/-- Start an admitted descriptor: its cores are held for it, and the context has had its turn (R343 to R345, R362). -/
def State.startDesc (s : State) (n : Nat) (d : Desc) : State :=
  let c := s.ctx n
  let s := if c.realtime then s else s.takeTurn c.part n
  let s := s.setDesc n d.idx (fun x => { x with phase := .running })
  let w : CoreWork := { ctx := n, idx := d.idx, part := c.part, gen := s.gen c.part }
  let s := (descMask d.raw).foldl (fun s m => s.setCore m { s.core m with run := .idle, work := some w }) s
  if c.realtime then
    (match s.wcetFails c.part (d.waitSince != 0) with
    | some x => s.voidDesc (s.partFn c.part) n x d
    | none => s)
  else s

/-- The predictor sees a COMPUTE descriptor's kind, under whose number its measurement will be taken (R597). -/
def State.seeDesc (s : State) (n idx : Nat) (raw : List Byte) : State :=
  let l := s.pwr.ledger.seeKind (fld raw 0x20 8) (descCoreCount raw)
  (s.setLedger l).setDesc n idx (fun x => { x with kind := l.kindNo (fld raw 0x20 8) (descCoreCount raw) })

/-- The ledger's test of a queued or waiting descriptor (R592, R596, R597): it is admitted, fails as oversize unless it is deferrable, is
dropped as deferrable, or waits. -/
def State.ledgerTest (s : State) (n idx : Nat) : State :=
  match s.desc n idx with
  | none => s
  | some d =>
    let f := s.partFn (s.ctx n).part
    let l := s.pwr.ledger
    let e := l.estimate d.raw
    let later := bit (fld d.raw 0 4) 8
    let s := if fld d.raw 0 1 = 1 then s.seeDesc n idx d.raw else s
    if !later && s.oversize f e then s.endDesc n idx .eEnergyOversize
    else if s.pwr.ledger.admits f (e * 1024) then s.reserve n idx f (e * 1024)
    else
      if later then s.endDesc n idx .energyDeferred
      else if d.phase == .energyWait then s
      else
        let k := s.pwr.ledger.waits
        let s := s.setLedger { s.pwr.ledger with waits := k + 1 }
        s.setDesc n idx (fun x => { x with phase := .energyWait, waitSince := k + 1 })

/-- DESCRIPTOR_DISPATCH: the firmware chooses the next descriptor of a partition; the ledger tests it when it has not been
admitted, and it starts when its wait and its cores allow (R343 to R345, R527, R592, R596). -/
def execDescriptorDispatch (p : Nat) (s : State) : Res :=
  match s.part p with
  | none => .next s
  | some part =>
    if part.clearing || s.errs.halted || !s.pwr.fw.running then .next s
    else
      let rt := s.rtCandidates p
      let no := s.normalCandidates p
      let choice := match s.pick rt [] with
        | some e => some (e, rt)
        | none => (s.pick no []).map (fun e => (e, no))
      match choice with
      | none => .next s
      | some ((n, d), l) =>
        let turn := if (s.ctx n).realtime then s else s.takeTurn p n
        if s.namesRetired d.raw then .next ((turn.closeReservation n d.idx).endDesc n d.idx .eCoreRetired)
        else
          let t := if d.phase == .queued then s.ledgerTest n d.idx else s
          match t.desc n d.idx with
          | some d' =>
            if t.startable d' (blockedBefore l n) then .next (t.startDesc n d')
            else if d'.phase == .ended then .next (if d.phase == .queued then turn.ledgerTest n d.idx else turn)
            else .next t
          | none => .next t

/-! Completion. -/

/-- The cores that hold a pre-empted part of a descriptor. -/
def State.resumeCores (s : State) (n idx : Nat) : List Nat :=
  (Tbl.keys s.cpu.cores).filter (fun m => match (s.core m).resume with
    | some r => r.work.ctx == n && r.work.idx == idx
    | none => false)

/-- Moves or stem jobs that a descriptor's programs have posted are queued or in progress (R529). -/
def State.movesLeft (s : State) (n idx : Nat) : Bool :=
  (Tbl.keys s.cpu.clusters).any (fun k =>
    let cl := s.cluster k
    (cl.released ++ cl.moves).any (fun m => match m.owner with
      | .program _ _ => m.ctx == n && m.idx == idx
      | .stream _ _ => false) ||
    (cl.stemQueue ++ cl.stemRun.toList).any (fun j => j.ctx == n && j.idx == idx))

/-- Every core of a running COMPUTE descriptor has ended, and what its programs posted has been done (R346, R529). -/
def State.computeDone (s : State) (n : Nat) (d : Desc) : Bool :=
  let cs := s.descCores n d.idx
  d.phase == .running && fld d.raw 0 1 == 1 && !d.fault && (!cs.isEmpty || d.freed) && cs.all (fun m => (s.core m).run == .ended) &&
    (s.resumeCores n d.idx).isEmpty && !s.movesLeft n d.idx

/-- The statuses that are a success, after which a descriptor signals (R217, R529). -/
def Status.success : Status → Bool
  | .ok => true
  | .okAccSat => true
  | .okAccNonfinite => true
  | .okEmpty => true
  | .okPostCandClipped => true
  | .okPostKeepFull => true
  | .okFrameDefect => true
  | _ => false

/-- The last record of a disabled context clears ACTIVE (R517). -/
def State.settleCtx (s : State) (n : Nat) : State :=
  let c := s.ctx n
  if c.active && !c.enabled && c.descs.isEmpty then s.setCtx n { c with active := false } else s

/-- Free the cores of a descriptor (R353). -/
def State.releaseCores (s : State) (n idx : Nat) : State := (s.descCores n idx).foldl State.freeCore s

/-- Write the record of an ended descriptor and forget it (R528, R529): DONE_SYNC applied first on success, the reservation returned,
the predictor told, its cores freed. -/
def State.finishDesc (s : State) (n : Nat) (d : Desc) (st : Status) (energy : Nat) : State :=
  let p := (s.ctx n).part
  let s := s.debit { who := .desc n d.idx, amount := energy }
  let drawn := d.drawn + energy
  let s := s.closeReservation n d.idx
  let ran := fld d.raw 0 1 == 1 && (d.freed || !(s.descCores n d.idx).isEmpty)
  let s := if ran then s.setLedger (s.pwr.ledger.measure (fld d.raw 0x20 8) (descCoreCount d.raw) d.kind drawn (fld d.raw 8 4)) else s
  let s := s.releaseCores n d.idx
  let s := if st.success then s.applyDone (fld d.raw 0x14 2) (fld d.raw 0x16 2) p (s.gen p) else s
  let c := s.ctx n
  let s := s.setCtx n { c with descs := c.descs.filter (fun x => !(x.idx == d.idx)) }
  let s := s.writeRecord n { status := st, sat := d.accSat, nonfin := d.accNonfin, unsolicited := false, tag := fld d.raw 4 4,
                             detail0 := d.detail0, detail1 := d.detail1, energy := drawn / 1024 } (bit (fld d.raw 0 4) 10)
  let s := s.markListDone n d.idx st
  let s := if st.fails then s.pairsFail p st else s
  s.settleCtx n

/-- The outcome of a COMPUTE descriptor whose cores have ended: the flags of its tiles, or OK_EMPTY when one of its stem descriptors
had an empty output (R168, R217). -/
def Desc.outcome (d : Desc) : Status :=
  match tileOutcome d.accSat d.accNonfin with
  | .ok => if d.status = .okEmpty then .okEmpty else .ok
  | st => st

/-- DESCRIPTOR_COMPLETE: a descriptor of a context has ended; the module applies DONE_SYNC, writes the record and sends its
message (R346, R517, R528, R529, R535, R593). `energy` is what the meters debit to it at its end, in 1/1,024 µJ. -/
def execDescriptorComplete (n idx energy : Nat) (s : State) : Res :=
  match s.desc n idx with
  | none => .next s
  | some d =>
    if s.errs.halted then .next s
    else if d.phase == .ended then .next (s.finishDesc n d d.status energy).checkPending
    else if s.computeDone n d then .next (s.finishDesc n { d with detail0 := if d.outcome = .okEmpty then d.detail0 else 0 } d.outcome energy).checkPending
    else .next s

/-! Faults (Table 8.5). -/

/-- Stop a core of a failed descriptor: its live state is discarded; a resume block it holds belongs to another descriptor and
stays; an open Minuet request ends with the yield signal (R355). -/
def State.dropCore (s : State) (n : Nat) : State :=
  let c := s.core n
  let s := (((s.yieldOpen n).modeUp n).undefineBody n c.wrote).dropWaits n
  s.setCore n { c with
    run := if c.resume.isSome then .yielded else .idle, work := none, prog := none, code := [], pc := 0, tile := none,
    commitQ := [], loops := [], minuetReq := false, stopReq := false, mode := 0, wrote := [], accSat := false,
    accNonfin := false }

/-- The pre-empted part of a failed descriptor on a core is discarded; what the core runs meanwhile goes on. -/
def State.dropResume (s : State) (n : Nat) : State :=
  let c := s.core n
  s.setCore n { c with resume := none, run := if c.run = .yielded then .idle else c.run }

/-- A core has to finish its tile before the fault handler may stop it: it runs with a TILE open (Table 8.5 step 3). -/
def Core.midTile (c : Core) : Bool := c.tile.isSome && c.run == .running

/-- Cancel the queued moves and stem jobs of a descriptor in every cluster (Table 8.5 step 4). -/
def State.cancelMoves (s : State) (n idx : Nat) : State :=
  (Tbl.keys s.cpu.clusters).foldl (fun s k =>
    let cl := s.cluster k
    let keep := fun (m : MoveSlot) => match m.owner with
      | .program _ _ => !(m.ctx == n && m.idx == idx)
      | .stream _ _ => true
    let other := fun (j : StemJob) => !(j.ctx == n && j.idx == idx)
    s.setCluster k (({ cl with
      released := cl.released.filter keep, moves := cl.moves.filter keep, stemQueue := cl.stemQueue.filter other,
      stemRun := cl.stemRun.filter other } : Cluster).grant s.pwr.ledger.hold)) s

/-- What brings a descriptor into fault handling: the first of its stops with an E_ code, else its first; status and DETAIL0.
Attention work that stopped on a tag mismatch in a step follows Table 6.6 instead (R356). -/
def State.faultCause (s : State) (n : Nat) (d : Desc) : Option (Status × Nat) :=
  let inStep := (Tbl.keys s.work.serving).any (fun p => (s.serving p).lists.any (fun l => l.ctx == n && l.idx == d.idx))
  let l := d.stops.filter (fun e => !(e.2.1 == .eScaleSkew && inStep))
  ((l.find? (fun e => e.2.1.isError)).orElse (fun _ => l.head?)).map (·.2)

/-- Handle the fault of a descriptor whose tile aborted or whose posted move failed: every other core stops at its next tile
boundary, or at once where it waits in a preamble; when all have stopped, its moves are cancelled, its record is due with the
first E_ code, the context halts, and the reserve's first object is signalled (R356 to R359, Table 8.5, Table 12.8). -/
def State.handleFault (s : State) (n idx : Nat) : State :=
  match s.desc n idx with
  | none => s
  | some d =>
    match s.faultCause n d with
    | none => s
    | some (st, detail) =>
      if d.phase ≠ .running ∨ s.errs.halted = true then s
      else if (s.descCores n idx).any (fun m => (s.core m).midTile && !s.heldAtBody m) then
        (s.descCores n idx).foldl (fun s m => s.setCore m { s.core m with stopReq := true }) s
      else
        let p := (s.ctx n).part
        let s0 := s
        let s := (s.descCores n idx).foldl State.dropCore s
        let s := (s.resumeCores n idx).foldl State.dropResume s
        let s := s.cancelMoves n idx
        let s := s.setDesc n idx (fun x => { x with phase := .ended, fault := true, status := st, detail0 := detail, detail1 := 0 })
        let s := s.haltCtx n st
        let s := s.logWrite 0 178 (s.ctxFn n) p st
        let s := match (s.part p).bind (fun x => x.reserve[0]?) with
          | some i => s.signal i 1 64 0
          | none => s
        s0.stallUpdate p (s.pairsFail p st)

/-- PARTITION_FAULT_HANDLING: the firmware handles the fault of a descriptor (R356 to R359, Table 8.5). -/
def execPartitionFaultHandling (n idx : Nat) (s : State) : Res := .next (s.handleFault n idx)

end Sys2Proof.Machine
end

