-- ==== Sys2Proof/Machine/Cascade.lean ====
section
/-!
DEFINITION. State requests, the ledger's windows, tier records and escalations (R576 to R578, R589 to R603).
-/
namespace Sys2Proof.Machine

/-! Tier records (Table 13.12). -/

def tierPart (r : List Byte) : Nat := fldBits r 0 5 0
def tierCost (r : List Byte) : Nat := fld r 4 4
def tierGo (r : List Byte) : Nat := fld r 8 2
def tierDeny (r : List Byte) : Nat := fld r 0xA 2
def tierTimeout (r : List Byte) : Nat := fld r 0xC 2

/-- The state of a tier (Table 1.10): Glade Sprout, Grove Thicket, Stand Canopy. -/
def tierState (t : Nat) : Nat := t + 1

/-- The thermal guard refuses every rise (Table 13.8 stage 4). -/
def State.riseLocked (s : State) : Bool := s.pwr.thermal.lock

/-! Requests (R576). -/

/-- A replaced request is answered with STATE_SUPERSEDED (R576, R603). -/
def State.supersede (s : State) : State :=
  match s.pwr.pending with
  | some r => (s.setPwr { s.pwr with pending := none }).answerReq r .stateSuperseded
  | none => s

/-- Take a request while no entry or rise is under way: the state in force is answered OK, a rise begins, a lower state
becomes pending and is looked at (R576 to R578). A rise that the thermal guard refuses is answered with E_STATE_REFUSED and
no refuser's index. -/
def State.takeRequest (s : State) (r : StateReq) : State :=
  let s := s.supersede
  if r.target = s.pwr.state then s.answerReq r .ok
  else if s.pwr.state < r.target then
    if s.riseLocked then s.answerReq r .eStateRefused (Config.unstatedField 0)
    else s.setPwr { s.pwr with transit := some { target := r.target, req := some r } }
  else (s.setPwr { s.pwr with pending := some r }).checkPending

/-- Take waiting requests in order until an entry or rise begins (R576). -/
def State.takeWaiting : List StateReq → State → State
  | [], s => s.setPwr { s.pwr with waiting := [] }
  | r :: rs, s =>
    if s.pwr.transit.isSome then s.setPwr { s.pwr with waiting := r :: rs } else State.takeWaiting rs (s.takeRequest r)

/-! Escalations (R599 to R603). -/

/-- End an escalation that is admitted and whose state is reached: GO_SYNC advances and the reservation returns (R599, R600).
-/
def State.goEscal (s : State) (e : Escal) : State :=
  match Tbl.find s.pwr.tiers e.tier with
  | some r =>
    let s := if e.resOpen then s.setLedger (s.pwr.ledger.giveBack (s.partFn (tierPart r)) e.resLeft e.resC) else s
    s.signal (tierGo r) 1 64 0
  | none => s

/-- Go on after an admission or a change of state: signal every admitted escalation whose state is reached, begin the rise of
the others, then take the requests that waited (R576, R600, R603). -/
def State.advance' (s : State) : State :=
  if s.pwr.transit.isSome then s
  else
    let done := s.pwr.escals.filter (fun e => e.admitted && decide (tierState e.tier ≤ s.pwr.state))
    let s := done.foldl State.goEscal s
    let s := s.setPwr { s.pwr with escals := s.pwr.escals.filter (fun e => !(e.admitted && decide (tierState e.tier ≤ s.pwr.state))) }
    match s.pwr.escals.find? (fun e => e.admitted) with
    | some e =>
      if s.riseLocked then s else s.setPwr { s.pwr with transit := some { target := tierState e.tier, req := none } }
    | none => State.takeWaiting s.pwr.waiting s

/-- Test one escalation with the ledger (R592, R599): admitted, it reserves its cost and replaces a pending host request. -/
def State.testEscal (s : State) (e : Escal) : State × Escal :=
  match Tbl.find s.pwr.tiers e.tier with
  | some r =>
    let f := s.partFn (tierPart r)
    let c := tierCost r * 1024
    let l := s.pwr.ledger
    if e.admitted || !l.admits f c then (s, e)
    else ((s.setLedger (l.charge f c)).supersede,
      { e with admitted := true, resLeft := c, resC := l.fromPool f c, resOpen := true })
  | none => (s, e)

/-- STATE_REQUEST: PF0 asks for a power state with a timeout of 10 to 2,550 ms, or 0 for REQ_TIMEOUT; it waits while an entry
or rise is under way or an admitted escalation has not been signalled (R61, R576 to R578, R603). -/
def execStateRequest (f tag target timeout : Nat) (s : State) : Res :=
  let ok := decide (target ≤ 4) && (timeout == 0 || inRange timeout 10 2550)
  s.request f 0x80 tag false false .pf0 ok (fun s =>
    let own := match (s.fn f).owed.getLast? with
      | some o => o.num
      | none => 0
    let ms := if timeout = 0 then 10 * max 1 (bits s.pwr.cfg.toNat 15 8) else timeout
    let r : StateReq := { owed := own, target := target, timeout := ms, counted := [] }
    if s.pwr.transit.isSome || s.pwr.escals.any (·.admitted) then
      s.setPwr { s.pwr with waiting := s.pwr.waiting ++ [r] }
    else s.takeRequest r)

/-- STATE_REQUEST_TIMEOUT: the timeout of the pending request expires: E_STATE_BUSY while descriptors or a Clearing still need
what it turns off, else E_STATE_REFUSED with the lowest refuser that holds (R577, R578). -/
def execStateRequestTimeout (s : State) : Res :=
  if s.errs.halted then .next s else
  let s := s.checkPending
  match s.pwr.pending with
  | none => .next s
  | some r =>
    let s := s.setPwr { s.pwr with pending := none }
    if s.busyBelow r.target || s.clearingHolds r.target then .next (s.answerReq r .eStateBusy)
    else .next (s.answerReq r .eStateRefused ((s.holders r.target).headD 0xF))

/-- REFUSER_RELEASE: a refuser releases and the module looks at the pending request again (R578). -/
def execRefuserRelease (s : State) : Res := if s.errs.halted then .next s else .next s.checkPending

/-! The ledger's windows. -/

/-- The next waiting descriptor in the order in which descriptors began to wait: context, ring index and place. -/
def State.waiters (s : State) : List (Nat × Desc) :=
  ((Tbl.keys s.work.ctxs).flatMap (fun n => ((s.ctx n).descs.filter (fun d => d.phase == .energyWait)).map (fun d => (n, d))))

/-- Insert by the place among the waiting. -/
def insertWait (e : Nat × Desc) : List (Nat × Desc) → List (Nat × Desc)
  | [] => [e]
  | x :: xs => if e.2.waitSince ≤ x.2.waitSince then e :: x :: xs else x :: insertWait e xs

/-- Retest the escalations at a window start; after TIMEOUT_W windows DENY_SYNC advances and ESCALATION_DENIED goes to PF0 and
the function of the tier below, for Glade to the OWNER of the trigger (R601). -/
def State.retestEscals : List Escal → State → State
  | [], s => s
  | e :: es, s =>
    if e.admitted then
      let s := s.setPwr { s.pwr with escals := s.pwr.escals ++ [e] }
      State.retestEscals es s
    else
      let (s, e) := s.testEscal { e with windows := e.windows + 1 }
      match Tbl.find s.pwr.tiers e.tier with
      | some r =>
        if !e.admitted && decide (tierTimeout r ≤ e.windows) then
          let s := s.signal (tierDeny r) 1 64 0
          let below := if e.tier = 1 then e.owner
            else match Tbl.find s.pwr.tiers (e.tier - 1) with
              | some b => s.partFn (tierPart b)
              | none => 0
          State.retestEscals es (s.eventBoth below .escalationDenied (toLE 4 e.tier))
        else State.retestEscals es (s.setPwr { s.pwr with escals := s.pwr.escals ++ [e] })
      | none => State.retestEscals es s

/-- The sub-allowances and the pool of a new window (R552, R591). -/
def State.newWindow (s : State) : State :=
  let l := s.pwr.ledger
  let a := l.allowance.toNat
  let avail := (List.range 32).foldl (fun t f => Tbl.set 0 t f (s.subAllowance a f * 1024)) []
  s.setLedger { l with
    windowNo := (l.windowNo + 1) % 65536, curMs := max 1 (min 1000 l.windowMs), curA := a, avail := avail,
    pool := ((a : Int) - (s.subSum a : Int)) * 1024, hold := false, debited := 0, gone := [],
    movedAt := (List.range 64).foldl (fun t p => Tbl.set 0 t p (s.moved p)) [] }

/-- Every open reservation lapses at a window's end, and what lapses is counted (R593, R676). -/
def State.lapse (s : State) : State :=
  let s := s.setLedger { s.pwr.ledger with lapsed := s.pwr.ledger.lapsed + s.openReserved }
  let s := (Tbl.keys s.work.ctxs).foldl (fun s n =>
    let c := s.ctx n
    s.setCtx n { c with descs := c.descs.map (fun d => { d with resLeft := 0, resC := 0, resOpen := false }) }) s
  s.setPwr { s.pwr with escals := s.pwr.escals.map (fun e => { e with resLeft := 0, resC := 0, resOpen := false }) }

/-- LEDGER_WINDOW_START: the window ends with the meters' remaining debits and the next begins: reservations lapse,
sub-allowances and pool are set from the allowance, WINDOW_NO advances, HOLD ends, and the waiting descriptors and then the
escalations are tested again (R376, R552, R589, R591 to R594, R596, R600, R601). -/
def execLedgerWindowStart (debits : List Debit) (s : State) : Res :=
  if !s.unitsRun then .next s
  else
    let s := ((s.debits debits).settleShared.lapse).newWindow
    let s := (Tbl.keys s.cpu.clusters).foldl (fun (s : State) k => s.setCluster k ((s.cluster k).grant false)) s
    let ws := s.waiters.foldr insertWait []
    let s := ws.foldl (fun s e => if s.admissible e.2 then s.ledgerTest e.1 e.2.idx else s) s
    let es := s.pwr.escals
    .next (State.retestEscals es (s.setPwr { s.pwr with escals := [] })).advance'

/-- LEDGER_HOLD: the meters' debits bring the window to its allowance and the ledger places it on HOLD; a partition with a
running REAL_TIME descriptor loses the condition of R361 on energy (R594, R595). -/
def execLedgerHold (debits : List Debit) (s : State) : Res :=
  let t := s.debits debits
  let l := t.pwr.ledger
  if !s.unitsRun || l.hold || decide (l.debited < l.curA * 1024) then .next s
  else .next ((t.setLedger { l with hold := true }).wcetVoidAll 3)

/-- PWR_LEDGER_CFG_WRITE: PF0 sets the window length, which takes effect at the next window (R589). -/
def execPwrLedgerCfgWrite (f value : Nat) (s : State) : Res :=
  s.regWrite (f == 0) (fun s => s.setLedger { s.pwr.ledger with windowMs := bits value 9 0 })

/-- PWR_ALLOWANCE_WRITE: PF0 sets the allowance, which takes effect at the next window (R589). -/
def execPwrAllowanceWrite (f value : Nat) (s : State) : Res :=
  s.regWrite (f == 0) (fun s => s.setLedger { s.pwr.ledger with allowance := BitVec.ofNat 32 value })

/-! The cascade. -/

/-- The checks of R598 on record t. -/
def State.tierOk (s : State) (t : Nat) (r : List Byte) : Bool :=
  let p := tierPart r
  let g := s.gen p
  inRange t 1 3 && fldBits r 0 15 6 == 0 && fldBits r 0xC 31 16 == 0 && inRange (tierTimeout r) 1 65535 &&
  (match s.part p with
    | some x => !x.clearing &&
        (t != 1 || x.cores.all (fun n => n == s.gladeCore)) && (t != 2 || x.cores.all (fun n => n / 64 == s.sproutDie))
    | none => false) &&
  s.ownsSync p g (tierGo r) && s.ownsSync p g (tierDeny r) &&
  (t == 1 || (match Tbl.find s.pwr.tiers (t - 1) with
    | some b => s.ownsSync (tierPart b) (s.gen (tierPart b)) (tierEsc r)
    | none => false))

/-- TIER_REGISTER: PF0 registers a tier record (R598). The value its ESC_SYNC then holds counts as seen. -/
def execTierRegister (f tag t : Nat) (raw : List Byte) (s : State) : Res :=
  let r := slice raw 0 16
  s.request f 0x81 tag false false .pf0 true (fun s =>
    if !s.tierOk t r then s.reply f 0x81 tag .eTierConfig
    else (s.setPwr { s.pwr with
      tiers := Tbl.put s.pwr.tiers t r, escSeen := Tbl.put s.pwr.escSeen t (s.syncValue (tierEsc r)) }).reply f 0x81 tag .ok)

/-- Raise an escalation to a tier and test it (R599). -/
def State.raiseEscal (s : State) (t owner : Nat) : State :=
  if (Tbl.find s.pwr.tiers t).isNone then s
  else
    let (s, e) := s.testEscal { tier := t, owner := owner, windows := 0, admitted := false, resLeft := 0, resC := 0, resOpen := false }
    (s.setPwr { s.pwr with escals := s.pwr.escals ++ [e] }).advance'

/-- ESCALATION_REQUEST: ESC_SYNC of a tier has risen, which asks for the tier, once for each rise (R599, R600). Glade is asked
for by RUSTLE_TRIGGER. -/
def execEscalationRequest (t : Nat) (s : State) : Res :=
  if s.errs.halted || !inRange t 2 3 then .next s
  else
    match Tbl.find s.pwr.tiers t with
    | none => .next s
    | some r =>
      let v := s.syncValue (tierEsc r)
      let seen := Tbl.get 0 s.pwr.escSeen t
      if 0 < sdiff32 v.toNat seen.toNat then
        .next ((s.setPwr { s.pwr with escSeen := Tbl.put s.pwr.escSeen t (seen + 1) }).raiseEscal t 0)
      else .next s

/-- A Rustle trigger of an OWNER reaches the power manager (R59, R60, R599, R602): in Dormant WAKE_N goes low, in every other
state it asks for Glade. -/
def State.rustle (s : State) (owner : Nat) : State :=
  if s.pwr.state = 0 then s.setPwr { s.pwr with wakeLow := true } else s.raiseEscal 1 owner

end Sys2Proof.Machine
end

