-- ==== Sys2Proof/Machine/Decimate.lean ====
section
/-!
DEFINITION. PDM sampling and the decimation chains (R459 to R465, Table 10.1).
-/
namespace Sys2Proof.Machine

/-- The PDM clock of CLK_SEL in Hz, 0 for a reserved code (Table 10.2). -/
def pdmClock (sel : Nat) : Nat := [1024000, 1536000, 2048000, 3072000, 4096000].getD sel 0

/-- N of a chain from a PDM clock to an output rate (R462). -/
def cicRatio (clk rate : Nat) : Nat := clk / (4 * rate)

/-- The output rate of RATE in Hz (Table 10.2). -/
def streamRate (code : Nat) : Nat := [8000, 16000, 24000, 32000, 48000].getD code 0

/-- What microphone i of a group puts out: data input i/2 of the group, sampled on the falling edge of the clock for an even microphone and
on the rising edge for an odd one (R459, R460), from the levels of each input at the falling and at the rising edges. -/
def micLevels (fall rise : List (List Bool)) (i : Nat) : List Bool := (if i % 2 = 0 then fall else rise).getD (i / 2) []

/-- The same where each input gives its levels at the falling and at the rising edge of each period. -/
def micBits (pdm : List (List (Bool × Bool))) (i : Nat) : List Bool :=
  micLevels (pdm.map (fun l => l.map (·.1))) (pdm.map (fun l => l.map (·.2))) i

/-- The integrators take an input, each feeding the next (R463: a fifth-order CIC; R464: 40-bit registers). -/
def cicIntegrate (x : BitVec 40) : List (BitVec 40) → List (BitVec 40)
  | [] => []
  | r :: rs => (r + x) :: cicIntegrate (r + x) rs

/-- The combs take an input: the registers after it and the output. -/
def cicComb (x : BitVec 40) : List (BitVec 40) → List (BitVec 40) × BitVec 40
  | [] => ([], x)
  | d :: ds => ((x :: (cicComb (x - d) ds).1), (cicComb (x - d) ds).2)

/-- Tap k of the 23-tap half-band filter HB1: symmetric, and zero at even distances from its centre (R463); the values that meet the
response of R463 are not in the manual. -/
def hb1Tap (n k : Nat) : Int := if k != 11 && (k + 11) % 2 == 0 then 0 else Config.hb1 n (min k (22 - k))

/-- Tap k of the symmetric 47-tap filter HB2, which also corrects the droop of the CIC (R463). -/
def hb2Tap (n k : Nat) : Int := Config.hb2 n (min k (46 - k))

/-- The sum of a filter over the newest samples first. -/
def firSum (tap : Nat → Int) (xs : List Int) : Int := ((List.range xs.length).map (fun k => tap k * xs.getD k 0)).foldl (· + ·) 0

/-- The ones density of the bits that the filters of a chain of ratio 4n hold, when it is constant: the stream repeats within a period of
at most 4n / 0.58 bits, whose tones all lie in the stopband from 0.58 f_s on; ones and bits of a period (R463, R464; DEDUCED, log entry
112). -/
def density (n : Nat) (bits : List Bool) : Option (Nat × Nat) :=
  if bits.length < 120 * n then none
  else (rangeFrom 1 (400 * n / 58)).findSome? (fun p =>
    if (bits.zip (bits.drop p)).all (fun e => e.1 == e.2) then some ((bits.take p).countP (·), p) else none)

/-- The 24-bit value of a settled stream with `ones` ones in every `p` bits: round((2d − 1) · 2^23), clamped (R464). -/
def settledValue (ones p : Nat) : Int :=
  clampInt (((2 * (ones : Int) - p) * 2 ^ 24 + p) / (2 * p)) (-8388608) 8388607

/-- A chain of ratio 4n takes one PDM bit; every 4n bits it gives a signed 24-bit sample: by R464 once the filters have settled on a
constant density, and otherwise what the taps give, rounded as the implementation does (R463, R464). -/
def Chain.push (n : Nat) (b : Bool) (c : Chain) : Chain × Option Int :=
  let ints := cicIntegrate (if b then 1 else -1) c.ints
  let c := { c with bits := (b :: c.bits).take (120 * n), ints := ints }
  if c.phase + 1 < n then ({ c with phase := c.phase + 1 }, none)
  else
    let (combs, y) := cicComb (ints.getLast?.getD 0) c.combs
    let c := { c with phase := 0, combs := combs, hb1 := (y.toInt :: c.hb1).take 23, odd1 := !c.odd1 }
    if c.odd1 then (c, none)
    else
      let c := { c with hb2 := (firSum (hb1Tap n) c.hb1 :: c.hb2).take 47, odd2 := !c.odd2 }
      if c.odd2 then (c, none)
      else (c, some (match density n c.bits with
        | some (ones, p) => settledValue ones p
        | none => clampInt (Config.chainRound n (firSum (hb2Tap n) c.hb2)) (-8388608) 8388607))

/-- A chain takes bits in order and gives its samples; a chain that R462 does not allow gives none. -/
def Chain.run (n : Nat) : List Bool → Chain → Chain × List Int
  | [], c => (c, [])
  | b :: bs, c =>
    if n = 0 then (c, [])
    else
      let r := c.push n b
      let t := Chain.run n bs r.1
      (t.1, r.2.toList ++ t.2)

/-- The coefficient of the high-pass in units of 2^-64: with c = cos(2π · 20 / 16000), the one-pole filter that takes a followed mean off
each sample is at half its power at 20 Hz for the coefficient 1 - c + √((1 - c)(3 - c)), which is 0.00788486 (R465; DEDUCED, log entry
112). -/
def dcCoef : Int := 145450074928003005

/-- The DC-removal high-pass of the wake chain: one pole follows the mean of the samples, held here in 2^-16 units, and the mean is taken
off each sample; which way a product rounds is free (R465, log entry 112). -/
def highPass : List Int → Int → List Int × Int
  | [], z => ([], z)
  | x :: xs, z =>
    let d := dcCoef * (x * 2 ^ 16 - z)
    let t := highPass xs (z + d / 2 ^ 64 + (if Config.dcUp d then 1 else 0))
    ((x - z / 2 ^ 16) :: t.1, t.2)

/-- The wake chain of a microphone over its bits: the chain after them, and its samples after the high-pass (R463 to R465). -/
def Chain.wake (clk : Nat) (bits : List Bool) (c : Chain) : Chain × List Int :=
  let r := Chain.run (cicRatio (pdmClock clk) 16000) bits c
  let h := highPass r.2 c.dc
  ({ r.1 with dc := h.2 }, h.1)

end Sys2Proof.Machine
end

