-- ==== Sys2Proof/Machine/Recogniser.lean ====
section
/-!
DEFINITION. The recogniser's input, features and network (R480, R481, Table 10.8).
-/
namespace Sys2Proof.Machine

/-- One sample of a stream's input: the mean of the PCM16 samples of the microphones in RECOG_MASK, to nearest with halves up. The mean of no
microphone is not stated (log entry 181). -/
def recogMean (xs : List Int) : Int :=
  if xs.isEmpty then Config.recogNoInput else (2 * xs.foldl (· + ·) 0 + xs.length) / (2 * xs.length)

/-- The input of a stream over a hop, from the PCM16 samples of each microphone that it hears (text before R480). -/
def recogMix (heard : List (List Int)) : List Int := (List.range 160).map (fun j => recogMean (heard.map (fun l => l.getD j 0)))

/-- A stream takes a hop of its input: the window keeps the last 25 ms, and the 40 log-mel energies of the window are the newest features, of
which the network looks back at 14 steps more. -/
def AudGroup.hear (x : AudGroup) (mix : List Int) : AudGroup :=
  let w := x.window ++ mix
  let w := w.drop (w.length - 400)
  { x with window := w, features := ((List.range 40).map (fun b => (Config.recogFeature w b).toInt) :: x.features).take 15 }

/-- Feature `ch` of the time step `back` hops before the newest; a step before the capture is not stated (log entry 181). -/
def recogInput (feats : List (List Int)) (back ch : Nat) : Int :=
  match feats[back]? with
  | some v => v.getD ch 0
  | none => (Config.recogBefore ch).toInt

/-- Output channel `ch` of a layer over its `n` inputs: the sum of R137 to R139, the requantisation of R156, and ReLU after every layer but the
last (R480). The weights, biases, records and zero points are those of the image of a digest. -/
def recogCell (d : List Byte) (layer n : Nat) (x : Nat → Int) (ch : Nat) : Int :=
  let zp := (Config.recogZero d layer).toInt
  let out := (Config.recogZero d (layer + 1)).toInt
  let acc := (List.range n).foldl (fun a j => (sat32 (a + (x j - zp) * (Config.recogWeight d layer ch j).toInt)).1) 0
  let y := (requantOne acc (Config.recogBias d layer ch).toInt (Config.recogMult d layer ch).toInt (Config.recogShift d layer ch).toNat out
    (-128) 127).1
  if layer = 4 then y else max y out

/-- A time convolution with kernel 3 over `cin` channels: its output at a time step, from inputs at that step and one and two dilations before
it (Table 10.8). -/
def recogConv (d : List Byte) (layer cin dil : Nat) (x : Nat → Nat → Int) (back ch : Nat) : Int :=
  recogCell d layer (3 * cin) (fun j => x (back + (2 - j / cin) * dil) (j % cin)) ch

/-- The INT8 scores of the ten classes at the newest time step: the five layers of Table 10.8 (R480). -/
def recogScores (d : List Byte) (feats : List (List Int)) : List Int :=
  let l1 := recogConv d 0 40 1 (recogInput feats)
  let l2 := recogConv d 1 64 2 l1
  let l3 := recogConv d 2 96 4 l2
  let l4 := recogCell d 3 128 (l3 0)
  (List.range 10).map (recogCell d 4 256 l4)

end Sys2Proof.Machine
end

