-- ==== Sys2Proof/Machine/Audio.lean ====
section
/-!
DEFINITION. Microphones, mutes, the sealed buffer, the recogniser's decisions, wake events and live streams (R59, R60, R466 to
R492).
-/
namespace Sys2Proof.Machine

def State.setGroup (s : State) (g : Nat) (x : AudGroup) : State := s.setMedia (s.media.setGroup g x)

/-! Registers (Tables 10.2 and 10.3). -/

def audMask (cfg : Word) : Nat := bits cfg.toNat 7 0
def audRate (cfg : Word) : Nat := bits cfg.toNat 14 12
def audClk (cfg : Word) : Nat := bits cfg.toNat 11 9
def audOwner (wake : Word) : Nat := bits wake.toNat 30 26
def audTimeout (wake : Word) : Nat := max 1 (min 600 (bits wake.toNat 25 16))
def audGate (wake : Word) : Nat := min 30 (bits wake.toNat 4 0)

/-- The pair of RATE and CLK_SEL is not marked with a dash in Table 10.1, and neither code is reserved. -/
def audPairOk (cfg : Word) : Bool :=
  let r := audRate cfg
  let c := audClk cfg
  decide (c ≤ 4) && (r == 0 || r == 1 || r == 3 || ((r == 2 || r == 4) && (c == 1 || c == 3)))

/-- Stream samples of one channel in 10 ms. -/
def audSlotSamples (cfg : Word) : Nat := [80, 160, 240, 320, 480].getD (audRate cfg) 0

/-- Microphones of a mask, ascending. -/
def audMics (mask : Nat) : List Nat := (List.range 8).filter (bit mask)

/-! IMA ADPCM (R474, R475). -/

def imaIndex (code : Nat) : Int := if code % 8 < 4 then -1 else 2 * ((code % 8 : Nat) : Int) - 6

/-- The 89-entry step table of the IMA's recommended practice. -/
def imaSteps : List Nat :=
  [7, 8, 9, 10, 11, 12, 13, 14, 16, 17, 19, 21, 23, 25, 28, 31, 34, 37, 41, 45, 50, 55, 60, 66, 73, 80, 88, 97, 107, 118, 130,
   143, 157, 173, 190, 209, 230, 253, 279, 307, 337, 371, 408, 449, 494] ++
  [544, 598, 658, 724, 796, 876, 963, 1060, 1166, 1282, 1411, 1552, 1707, 1878, 2066, 2272, 2499, 2749, 3024, 3327, 3660, 4026,
   4428, 4871, 5358, 5894, 6484, 7132, 7845, 8630, 9493, 10442, 11487, 12635, 13899, 15289, 16818, 18500, 20350, 22385, 24623,
   27086, 29794, 32767]

/-- Predictor and step index after a code. -/
def imaStep (pred : Int) (idx code : Nat) : Int × Nat :=
  let st := imaSteps.getD idx 7
  let d := st / 8 + (if bit code 2 then st else 0) + (if bit code 1 then st / 2 else 0) + (if bit code 0 then st / 4 else 0)
  (clampInt (if bit code 3 then pred - d else pred + d) (-32768) 32767, (clampInt ((idx : Int) + imaIndex code) 0 88).toNat)

/-- The code of a sample. -/
def imaCode (pred : Int) (idx : Nat) (x : Int) : Nat :=
  let st := imaSteps.getD idx 7
  let d := (x - pred).natAbs
  let c2 := decide (st ≤ d)
  let d := if c2 then d - st else d
  let c1 := decide (st / 2 ≤ d)
  let d := if c1 then d - st / 2 else d
  b2n (decide (x < pred)) * 8 + b2n c2 * 4 + b2n c1 * 2 + b2n (decide (st / 4 ≤ d))

/-- Two codes a byte, the earlier in the low half. -/
def packNibbles : List Nat → List Byte
  | [] => []
  | [a] => [BitVec.ofNat 8 (a % 16)]
  | a :: b :: t => BitVec.ofNat 8 (a % 16 + b % 16 * 16) :: packNibbles t

def hdrMuted (h : Word) : Bool := bit h.toNat 23
def hdrGap (h : Word) : Bool := bit h.toNat 24
def hdrMark (h : Word) (muted gap : Bool) : Word :=
  BitVec.ofNat 32 (h.toNat ||| b2n muted * 2 ^ 23 ||| b2n gap * 2 ^ 24)

/-- A header of Table 10.7. -/
def audHeader (pred : Int) (step : Nat) (muted gap : Bool) : Word :=
  BitVec.ofNat 32 (wrap 16 pred + step * 2 ^ 16 + b2n muted * 2 ^ 23 + b2n gap * 2 ^ 24)

/-- The PCM16 samples of a block; a MUTED or GAP block is zeros (R479). -/
def audDecode (b : AudBlock) : List Byte :=
  if hdrMuted b.header || hdrGap b.header then List.replicate 512 0
  else
    let codes := b.codes.flatMap (fun x => [x.toNat % 16, x.toNat / 16])
    (codes.foldl (fun (a : List Byte × Int × Nat) c =>
      let n := imaStep a.2.1 a.2.2 c
      (a.1 ++ toLE 2 (wrap 16 n.1), n)) ([], sext 16 (bits b.header.toNat 15 0), bits b.header.toNat 22 16)).1

/-- An encoder at the start of block `no`. -/
def AudEnc.start (no : Nat) (pred : Int) (step : Nat) (muted gap : Bool) : AudEnc :=
  { pred := pred, step := step, block := { no := no, header := audHeader pred step muted gap, codes := [] }, nibbles := [] }

/-- Encode samples of microphone i from sample number n; a whole block goes into the ring at no mod 625 (R474, R475). A muted group
encodes zeros and its blocks hold no code of what came before. A block that a restart at its boundary has marked GAP stays marked. -/
def audEncode (muted : Bool) (i : Nat) : List Int → Nat → Tbl AudBlock × AudEnc → Tbl AudBlock × AudEnc
  | [], _, a => a
  | x :: xs, n, (ring, e) =>
    let e := if n % 256 = 0 then AudEnc.start (n / 256) e.pred e.step muted (e.block.no == n / 256 && hdrGap e.block.header) else e
    let x := if muted then 0 else x
    let c := imaCode e.pred e.step x
    let st := imaStep e.pred e.step c
    let e := { e with pred := st.1, step := st.2, nibbles := e.nibbles ++ [c] }
    if n % 256 = 255 then
      let codes := if hdrMuted e.block.header then List.replicate 128 0 else packNibbles e.nibbles
      let blk := { e.block with codes := codes }
      audEncode muted i xs (n + 1) (Tbl.put ring (625 * i + blk.no % 625) blk, { e with nibbles := [] })
    else audEncode muted i xs (n + 1) (ring, e)

/-- Mark the open block of every microphone; a mark of MUTED forgets its codes. -/
def AudGroup.mark (x : AudGroup) (muted gap : Bool) : AudGroup :=
  { x with enc := x.enc.map (fun e => (e.1, { e.2 with
      pred := if muted then 0 else e.2.pred, step := if muted then 0 else e.2.step,
      block := { e.2.block with header := hdrMark (if muted then audHeader 0 0 true (hdrGap e.2.block.header) else e.2.block.header) muted gap },
      nibbles := if muted then List.replicate e.2.nibbles.length 0 else e.2.nibbles })) }

/-- The block of a microphone in the ring, none when it is lost or was never captured (R474). -/
def AudGroup.block (x : AudGroup) (i b : Nat) : Option AudBlock :=
  match Tbl.find x.blocks (625 * i + b % 625) with
  | some k => if k.no = b then some k else none
  | none => none

/-- The header of a block of a microphone: the captured one, or that of the block being captured; none when there is no such block in the
ring. -/
def AudGroup.header (x : AudGroup) (i b : Nat) : Option Word :=
  match x.block i b with
  | some k => some k.header
  | none => (match Tbl.find x.enc i with
    | some e => if e.block.no = b then some e.block.header else none
    | none => none)

/-- The content of a block is lost (R474). -/
def AudGroup.lostAt (x : AudGroup) (b : Nat) : Bool := decide (256 * b + 160000 ≤ x.s)

/-- A block is marked GAP, or was never captured; a lost one counts as neither (Table 10.7). -/
def AudGroup.gapAt (x : AudGroup) (i b : Nat) : Bool :=
  match x.header i b with
  | some h => hdrGap h
  | none => !x.lostAt b

/-- A block is marked GAP or MUTED, or was never captured; a lost one counts as none of these. -/
def AudGroup.badAt (x : AudGroup) (i b : Nat) : Bool :=
  match x.header i b with
  | some h => hdrGap h || hdrMuted h
  | none => !x.lostAt b

/-! Mutes (R471 to R473, R477, R492). -/

/-- Stop the live streams of a group with an event to their functions (R472, R492). -/
def State.stopStreams (s : State) (keep : AudStream → Bool) (st : Status) : State :=
  let gone := s.media.streams.filter (fun x => !keep x)
  let s := s.setMedia { s.media with streams := s.media.streams.filter keep }
  gone.foldl (fun s x => s.event x.fn st (toLE 4 x.group)) s

/-- A session closes and its group returns to SEALED (R477). -/
def State.closeSession (s : State) (g : Nat) (st : Option Status) : State :=
  let x := s.media.group g
  match x.session, st with
  | some _, some e => (s.setGroup g { x with session := none }).event (audOwner x.wake) e (toLE 4 g)
  | _, _ => s.setGroup g { x with session := none }

/-- The current in mA of a group's indicator: 0 while it is out (R471, Table 10.5). -/
def AudGroup.indicatorMa (x : AudGroup) : Nat := if x.lit then 2 + 2 * min 9 (bits x.ind.toNat 3 0) else 0

/-- MUTE_ASSERT: a group's mute land goes low; it acts while the input is good, whether or not Stage A has completed (R471, R472, Tables
10.6 and 14.1). -/
def execMuteAssert (g : Nat) (s : State) : Res :=
  let x := s.media.group g
  if !s.pwr.aon then .next (s.setGroup g { x with landLow := true })
  else
    let x := { x.mark true false with
      landLow := true, muted := true, settling := false, clock := false, power := false, lit := true, cand := none, onset := none }
    .next (((s.setGroup g x).closeSession g (some .audMuted)).stopStreams (fun y => !(y.group == g)) .audMuted)

/-- UNMUTE: a mute land has stayed high for 50 ms: the indicator goes out, the power switch closes and the clock starts; the blocks
stay MUTED while the microphones settle (R473). Before Stage A has completed only the indicator is there to act (Table 14.1). No row gives
the land's rising edge, so MUTE_CABIN and MUTE_EXT read 1 until then (DESIGN CHOICE, log entry 195). -/
def execUnmute (g : Nat) (s : State) : Res :=
  let x := s.media.group g
  if !s.pwr.aon || !x.muted then .next s
  else if !s.pwr.stageADone then .next (s.setGroup g { x with landLow := false, muted := false, lit := false })
  else
    .next (s.setGroup g { x with landLow := false, muted := false, settling := true, clock := true, power := true, lit := false, chains := [] })

/-- MUTE_SETTLE_END: 50 ms of settling have passed and capture restarts with the warm-up of 500 ms (R473, R482). -/
def execMuteSettleEnd (g : Nat) (s : State) : Res :=
  let x := s.media.group g
  if x.settling then .next (s.setGroup g { x with settling := false, warm := 50, floor := none, onset := none }) else .next s

/-! Set-up (R466 to R469, R477). -/

/-- AUD_GROUP_CFG_WRITE: PF0 writes a group's capture set-up, in force from the next hop boundary; a refused pair of RATE and CLK_SEL
stops the stream chain, until a pair that is not refused comes into force, and raises E_AUD_CONFIG (R462, R468, R469). -/
def execAudGroupCfgWrite (f g value : Nat) (s : State) : Res :=
  s.regWrite (f == 0) (fun s =>
    let x := s.media.group g
    let cfg : Word := BitVec.ofNat 32 value &&& 0xFFFFFEFF
    let ok := audPairOk cfg
    let s := s.setGroup g { x with cfg := cfg, chainOff := x.chainOff || !ok }
    if ok then s else s.event 0 .eAudConfig (toLE 4 g))

/-- AUD_WAKE_CFG_WRITE: PF0 writes a group's owner, timeout and gate, in force from the next hop boundary (R468). -/
def execAudWakeCfgWrite (f g value : Nat) (s : State) : Res :=
  s.regWrite (f == 0) (fun s =>
    s.setGroup g { s.media.group g with wakeCfg := BitVec.ofNat 32 value &&& 0x7FFF001F })

/-- AUD_STORE: PF0 stores the audio configuration for the next start (R467). -/
def execAudStore (f tag : Nat) (raw : List Byte) (s : State) : Res :=
  let r := slice raw 0 24
  s.request f 0x75 tag false false .pf0 (raw.length == 24) (fun s =>
    let cfg := fun (i : Nat) => BitVec.ofNat 32 (fld r (4 * i) 4)
    if !bit (fld r 0 4) 8 && !bit (fld r 4 4) 8 && audPairOk (cfg 0) && audPairOk (cfg 1) &&
        fld r 8 4 &&& 0x8000FFE0 == 0 && fld r 12 4 &&& 0x8000FFE0 == 0 && fldBits r 16 31 4 == 0 && fldBits r 20 31 4 == 0 then
      (s.setMedia { s.media with stored := some r }).reply f 0x75 tag .ok
    else s.reply f 0x75 tag .eAudConfig)

/-! The recogniser (R480 to R484, R489, R490). -/

/-- A class is enabled for a group: phrases 1 to 8 by PHRASE_MASK, the siren 9 by SIREN_EN in group 1 (R483). -/
def AudGroup.enabled (x : AudGroup) (g cls : Nat) : Bool :=
  (inRange cls 1 8 && bit x.live.toNat (15 + cls)) || (cls == 9 && g == 1 && bit x.live.toNat 15)

/-- The enabled class with the highest score, the lowest number among equals. -/
def audBest (scores : List Int) : List Nat → Option Nat
  | [] => none
  | c :: cs => match audBest scores cs with
    | some d => if scores.getD c (-128) < scores.getD d (-128) then some d else some c
    | none => some c

/-- A hop of the noise floor, which starts from the first hop's frame energy, and the gate: the new floor, and whether the hop is gated
(R482, Table 14.5). Energies are in 1/200 dB. -/
def AudGroup.gate (x : AudGroup) (energy : Int) : Int × Bool :=
  let f := x.floor.getD energy
  let floor := if energy < f then energy else min energy (f + 1)
  (floor, decide (floor + 200 * ((audGate x.wake : Int) + (if x.warm = 0 then 0 else 6)) ≤ energy))

/-- Open, follow or close the candidate of a group at a hop (R483, R484). -/
def AudGroup.score (x : AudGroup) (g : Nat) (digest : List Byte) (gated : Bool) (scores : List Int) (state : Nat) : AudGroup :=
  let sc := fun (c : Nat) => if gated then scores.getD c (-128) else -128
  match x.cand with
  | some c =>
    if c.matched then x
    else
      let v := sc c.cls
      let c := { c with
        hops := c.hops + 1, best := max c.best v,
        matchRun := if Config.recogMatch digest c.cls ≤ v ∧ gated = true then c.matchRun + 1 else 0,
        rejectRun := if v < Config.recogOpen digest c.cls ∨ gated = false then c.rejectRun + 1 else 0 }
      if 3 ≤ c.matchRun then { x with cand := some { c with matched := true, matchS := x.s + 160 } }
      else if 30 ≤ c.rejectRun ∨ 300 ≤ c.hops then { x with cand := none }
      else { x with cand := some c }
  | none =>
    let en := (List.range 10).filter (x.enabled g)
    if gated && en.any (fun c => decide (Config.recogOpen digest c ≤ sc c)) then
      match audBest scores en with
      | some c =>
        let on := x.onset.getD (x.s, state)
        { x with cand := some { cls := c, onset := on.1, stateAtOnset := on.2, changed := x.onsetChanged, hops := 0, best := sc c,
                                matchRun := if Config.recogMatch digest c ≤ sc c then 1 else 0, rejectRun := 0, matched := false,
                                matchS := 0 } }
      | none => x
    else x

/-- The set-up written since the last boundary changes CLK_SEL or CH_MASK, which restarts the capture (R468). -/
def AudGroup.restarts (x : AudGroup) : Bool := audClk x.cfg != audClk x.live || audMask x.cfg != audMask x.live

/-- Put a set-up written since the last boundary in force: a restart of the capture makes its samples GAP, and a refused pair leaves the
stream chain stopped (R468, R469, R482). -/
def AudGroup.adopt (x : AudGroup) : AudGroup :=
  let x := { x with wake := x.wakeCfg, ind := x.indCfg }
  let y := { x with live := x.cfg, chainOff := !audPairOk x.cfg }
  if !x.restarts then y
  else
    let next := x.s / 256
    let enc := (audMics (audMask x.cfg)).foldl (fun t i =>
      match Tbl.find x.enc i with
      | some e =>
        if x.s % 256 = 0 then Tbl.put t i (AudEnc.start next e.pred e.step false true)
        else Tbl.put t i { e with block := { e.block with header := hdrMark e.block.header false true } }
      | none => Tbl.put t i { AudEnc.start next 0 0 false true with nibbles := List.replicate (x.s % 256) 0 }) []
    { y with enc := enc, chains := [], window := [], features := [], warm := 50, floor := none, onset := none }

/-- A group at a hop boundary: its set-up comes into force, and a restart of its capture or a change of RATE restarts the chains of its streams
(R468). -/
def State.adoptGroup (s : State) (g : Nat) (x : AudGroup) : State :=
  let s := s.setGroup g x.adopt
  if x.restarts || audRate x.cfg != audRate x.live then
    s.setMedia { s.media with streams := s.media.streams.map (fun y => if y.group = g then { y with chains := [] } else y) }
  else s

/-- PCM16 of a wake-chain sample after the high-pass (R465). -/
def pcm16 (x : Int) : Int := clampInt ((x + 128) / 256) (-32768) 32767

/-- RECOGNISER_HOP: a 10 ms hop of a group ends. `fall` and `rise` are the levels of the group's data inputs at the clock's falling and rising
edges, which the wake chains of its captured microphones take while the clock runs; `energy` is the frame energy in 1/200 dB, whose
measure the manual does not give (log entry 112). The recogniser scores its input and the group's candidate follows; without a captured
microphone it scores only background. At the boundary a changed OWNER reseals the group (R460, R463 to R465, R468, R474, R475, R477, R480
to R484, R490). -/
def execRecogniserHop (g : Nat) (fall rise : List (List Bool)) (energy : Int) (s : State) : Res :=
  if !s.pwr.stageADone then .next s
  else
    let x := s.media.group g
    let quiet := x.muted || x.settling
    let mics := audMics (audMask x.live)
    let w : List (Nat × Chain × List Int) := if x.clock then
        mics.map (fun i => (i, Chain.wake (audClk x.live) (micLevels fall rise i) (Tbl.get Chain.reset x.chains i)))
      else mics.map (fun i => (i, Tbl.get Chain.reset x.chains i, []))
    let r := w.foldl (fun (a : Tbl AudBlock × Tbl AudEnc) m =>
      let i := m.1
      let got := m.2.2
      let xs := (List.range 160).map (fun j => pcm16 (got.getD j 0))
      let e := match Tbl.find a.2 i with
        | some e => e
        | none => { AudEnc.start (x.s / 256) 0 0 quiet (x.s % 256 != 0) with nibbles := List.replicate (x.s % 256) 0 }
      let out := audEncode quiet i xs x.s (a.1, e)
      (out.1, Tbl.put a.2 i out.2)) (x.blocks, x.enc)
    let x := { x with blocks := r.1, enc := r.2, chains := w.foldl (fun (t : Tbl Chain) (m : Nat × Chain × List Int) => Tbl.set Chain.reset t m.1 m.2.1) x.chains }
    let scores := fun (x : AudGroup) (gated : Bool) => if s.trust.recogDigest.all (· == 0) then x
      else x.score g s.trust.recogDigest gated (recogScores s.trust.recogDigest x.features) s.pwr.state
    let x := if quiet then { x with onset := none, onsetChanged := false, window := [], features := [] }
      else if mics.isEmpty then scores { x with warm := x.warm - 1, onset := none, onsetChanged := false, window := [], features := [] } false
      else
        let x := x.hear (recogMix ((w.filter (fun m => bit x.live.toNat (24 + m.1))).map (fun m => m.2.2.map pcm16)))
        let (floor, gated) := x.gate energy
        let x := { x with
          floor := some floor, warm := x.warm - 1,
          onset := if gated then (match x.onset with
            | some o => some o
            | none => some (x.s, x.hopState)) else none,
          onsetChanged := gated && x.onsetChanged }
        scores x gated
    let s := if audOwner x.wakeCfg = audOwner x.wake then s.setGroup g x else (s.setGroup g x).closeSession g none
    let s := s.adoptGroup g { s.media.group g with s := x.s + 160, hopState := s.pwr.state }
    .next (match s.media.nextImage with
      | some (svn, d) =>
        if s.media.phraseOpen then s
        else { s with
          media := { s.media with nextImage := none }, trust := { s.trust with recogImageSvn := svn, recogDigest := d } }
      | none => s)

/-! Wake events (R478, R485 to R488). -/

/-- S_UNSEAL of a wake with an onset (R478): 24,000 samples before it, cut by the epoch or by a GAP block. A block that is merely lost cuts
nothing. -/
def AudGroup.unsealAt (x : AudGroup) (onset : Nat) : Nat :=
  let first := roundUp (onset - 24000) 256
  let gaps := (rangeFrom (first / 256) (cdiv onset 256 - first / 256)).filter (fun b => (audMics (audMask x.live)).any (fun i => x.gapAt i b))
  match gaps.getLast? with
  | some b => 256 * (b + 1)
  | none => first

/-- Drop a record for a new one from a full queue: the oldest delivered, else the newest, which counts as lost (R488). -/
def wakeRoom (q : List WakeRec) : List WakeRec × Nat :=
  if q.length < 16 then (q, 0)
  else match q.find? (·.delivered) with
    | some r => (q.erase r, 0)
    | none => (q.dropLast, 1)

/-- A wake event record (Table 10.9). -/
def State.wakeRecord (s : State) (g : Nat) (x : AudGroup) (c : Cand) (from_ : Nat) : List Byte :=
  let before := (rangeFrom (from_ / 256) (cdiv c.onset 256 - from_ / 256))
  let gap := before.any (fun b => (audMics (audMask x.live)).any (fun i => x.badAt i b))
  let flags := b2n (x.warm != 0) + b2n (decide ((c.onset : Int) - from_ < 23745)) * 2 +
    b2n (c.changed || c.stateAtOnset != s.pwr.state) * 4 + b2n (s.pwr.state == 0) * 8 + b2n gap * 16
  toLE 2 ((if c.cls = 9 then 2 else 1) + g * 16 + c.cls * 256) ++ toLE 2 (s.media.eventNo + 1) ++ toLE 1 (wrap 8 c.best) ++
    toLE 1 (clampInt (-(x.floor.getD 0) / 200) 0 255).toNat ++ toLE 2 flags ++ toLE 4 (c.stateAtOnset + s.pwr.state * 16) ++
    toLE 4 (s.media.epoch % 65536) ++ toLE 8 c.onset ++ toLE 8 c.matchS ++ toLE 8 from_ ++ toLE 8 (s.stampFor (audOwner x.wake)) ++
    toLE 4 (audMask x.live) ++ toLE 12 0

/-- WAKE_MATCH: the match decision of a group completes: the group opens, the record enters the wake queue and a Rustle trigger goes
out (R477, R478, R485 to R488, R490, Table 10.10). -/
def execWakeMatch (g : Nat) (s : State) : Res :=
  let x := s.media.group g
  match x.cand with
  | none => .next s
  | some c =>
    if !c.matched then .next s
    else
      let from_ := match x.session with
        | some o => o.from_
        | none => x.unsealAt c.onset
      let rec_ := s.wakeRecord g x c from_
      let own := audOwner x.wake
      let room := wakeRoom s.media.wakes
      let s := s.setGroup g { x with cand := none, session := some { from_ := from_, mask := audMask x.live, last := x.s } }
      .next (s.setMedia { s.media with
        wakes := room.1 ++ [{ raw := rec_, owner := own, delivered := false }], wakesLost := s.media.wakesLost + room.2,
        eventNo := (s.media.eventNo + 1) % 65536, triggers := s.media.triggers ++ [{ owner := own, record := rec_, phrase := true }] })

/-- Send the event of a trigger; a record of the wake queue that has been read or replaced meanwhile sends none (R487, R488). -/
def State.deliverWake (s : State) (t : Trigger) : State :=
  if !t.phrase then s.event t.owner .wake t.record
  else if s.media.wakes.any (fun q => q.raw == t.record && !q.delivered) then
    let s := s.event t.owner .wake t.record
    s.setMedia { s.media with wakes := s.media.wakes.map (fun q => if q.raw == t.record then { q with delivered := true } else q) }
  else s

/-- Send the events that are due to the functions whose link is up, in the order in which their triggers fired (R60, R487). -/
def State.deliverWakes (s : State) : State :=
  s.media.due.foldl (fun (s : State) t =>
    if (s.link (s.linkOf t.owner)).up then (s.setMedia { s.media with due := s.media.due.erase t }).deliverWake t else s) s

/-- RUSTLE_TRIGGER: the oldest Rustle trigger reaches the power manager: its event goes to the owner once the owner's link is up, and it raises Glade, or drives
WAKE_N from Dormant (R59, R60, R455, R599, R602). -/
def execRustleTrigger (s : State) : Res :=
  match s.media.triggers with
  | [] => .next s
  | t :: ts =>
    let s := s.setMedia { s.media with triggers := ts, due := s.media.due ++ [t] }
    .next (s.deliverWakes.rustle t.owner)

/-- SESSION_TIMEOUT: OPEN_TIMEOUT_S have passed since the later of the wake and the last copy request, and the group reseals
(R477). -/
def execSessionTimeout (g : Nat) (s : State) : Res :=
  let x := s.media.group g
  match x.session with
  | some o => if o.last + audTimeout x.wake * 16000 ≤ x.s then .next (s.closeSession g none) else .next s
  | none => .next s

/-- The function is OWNER of a group. -/
def State.audOwns (s : State) (f g : Nat) : Bool := decide (g < 2) && audOwner (s.media.group g).wake == f

/-- The bytes of a copy: blocks in order, microphones ascending (R479). -/
def AudGroup.copyBytes (x : AudGroup) (mask first n fmt : Nat) : List Byte :=
  (rangeFrom (first / 256) n).flatMap (fun b => (audMics mask).flatMap (fun i =>
    match x.block i b with
    | some k => if fmt = 0 then toLE 4 k.header.toNat ++ k.codes else audDecode k
    | none => if fmt = 0 then toLE 4 (audHeader 0 0 false true).toNat ++ List.replicate 128 0 else List.replicate 512 0))

/-- AUD_COPY: OWNER copies `count` blocks from sample `first` for a channel mask; the reply carries the blocks written and those
marked MUTED or GAP (R476, R477, R479). -/
def execAudCopy (f tag g mask epoch first count fmt space part dest : Nat) (s : State) : Res :=
  s.request f 0x70 tag false false (.owner (s.audOwns f g)) true (fun s =>
    let x := s.media.group g
    match x.session with
    | none => s.reply f 0x70 tag .eAudSealed
    | some o =>
      let s := s.setGroup g { x with session := some { o with last := x.s } }
      let n := min count (x.s / 256 - first / 256)
      let bytes := x.copyBytes mask first n fmt
      let blocks := n * (audMics mask).length
      let bad := ((rangeFrom (first / 256) n).flatMap (fun b => (audMics mask).filter (fun i => x.badAt i b))).length
      let done := toLE 4 blocks ++ toLE 4 bad
      if mask &&& o.mask != mask || mask == 0 || first % 256 != 0 || decide (1 < fmt) || !inRange space 1 2 then
        s.reply f 0x70 tag .eAudConfig
      else if epoch ≠ s.media.epoch % 65536 ∨ first + 160000 ≤ x.s then s.reply f 0x70 tag .eAudExpired
      else if first < o.from_ then s.reply f 0x70 tag .eAudSealed
      else if space = 2 then ((s.accountFn f 4 bytes.length).hostWrite f dest bytes).reply f 0x70 tag .ok done
      else
        match s.part part with
        | none => s.reply f 0x70 tag .eAudConfig
        | some y =>
          if y.fn ≠ f ∨ y.clearing = true then s.reply f 0x70 tag .eAudConfig
          else
            match s.stackedErr y part (s.gen part) dest bytes.length with
            | some e => s.reply f 0x70 tag e
            | none => (s.sliceWrite part (s.gen part) dest bytes).reply f 0x70 tag .ok done)

/-- AUD_RESEAL: OWNER reseals a group (R477). -/
def execAudReseal (f tag g : Nat) (s : State) : Res :=
  s.request f 0x71 tag false false (.owner (s.audOwns f g)) true (fun s => (s.closeSession g none).reply f 0x71 tag .ok)

/-! Live streams (R492). -/

/-- Bytes of a stream slot: a 64-byte record and 10 ms of interleaved 32-bit samples. -/
def audSlotBytes (cfg : Word) : Nat := 64 + 4 * audSlotSamples cfg * (audMics (audMask cfg)).length

/-- AUD_STREAM: OWNER starts a live stream of a group into a slot ring of one of its partitions (R492, R493). -/
def execAudStream (f tag g part base slots slotBytes frameSync releaseSync : Nat) (s : State) : Res :=
  s.request f 0x72 tag false false (.owner (s.audOwns f g)) true (fun s =>
    let x := s.media.group g
    if x.muted || x.settling then s.reply f 0x72 tag .audMuted
    else if s.pwr.state < 2 then s.reply f 0x72 tag .audSuspended
    else
      let ok := match s.part part with
        | some y => y.fn == f && !y.clearing && y.ownsStacked base (slots * slotBytes) && s.ownsSync part (s.gen part) frameSync &&
            s.ownsSync part (s.gen part) releaseSync
        | none => false
      if ok && base % 4096 == 0 && inRange slots 1 15 && slotBytes % 4096 == 0 && decide (audSlotBytes x.live ≤ slotBytes) &&
          !x.chainOff then
        let st : AudStream :=
          { group := g, fn := f, part := part, gen := s.gen part, base := base, slots := slots, slotBytes := slotBytes,
            frameSync := frameSync, releaseSync := releaseSync, started := 0, written := 0, recorded := 0,
            chains := [] }
        (s.setMedia { s.media with streams := s.media.streams ++ [st] }).reply f 0x72 tag .ok
      else s.reply f 0x72 tag .eAudConfig)

/-- Replace stream i. -/
def Media.setStream (m : Media) (i : Nat) (x : AudStream) : Media := { m with streams := m.streams.set i x }

/-- The stream chains of a stream over 10 ms of PDM: the stream after them, and the samples of each microphone (R462 to R464). -/
def AudStream.hear (x : AudStream) (live : Word) (pdm : List (List (Bool × Bool))) : AudStream × List (List Int) :=
  let n := cicRatio (pdmClock (audClk live)) (streamRate (audRate live))
  let r := (audMics (audMask live)).map (fun i => (i, Chain.run n (micBits pdm i) (Tbl.get Chain.reset x.chains i)))
  ({ x with chains := r.foldl (fun t e => Tbl.set Chain.reset t e.1 e.2.1) x.chains }, r.map (·.2.2))

/-- AUD_STREAM_SLOT: 10 ms of stream i have been decimated from the levels of the data inputs; they are written into its next slot and
FRAME_SYNC advances, or the slot is skipped and counted while its release has not arrived (R421 to R424, R460, R463, R464, R492). -/
def execAudStreamSlot (i : Nat) (pdm : List (List (Bool × Bool))) (s : State) : Res :=
  match s.media.streams[i]? with
  | none => .next s
  | some x =>
    let g := s.media.group x.group
    if s.errs.halted || g.chainOff || decide (s.pwr.state < 2) then .next s
    else
      let (x, samples) := x.hear g.live pdm
      let n := x.started
      let m := x.written
      let at_ := x.base + m % x.slots * x.slotBytes
      let size := audSlotBytes g.live
      let ok := match s.part x.part with
        | some y => (s.stackedErr y x.part x.gen at_ size).isNone && !s.stale x.part x.gen
        | none => false
      if !ok || !s.slotFree m x.slots x.releaseSync || decide (x.slotBytes < size) then
        .next (s.setMedia (s.media.setStream i { x with started := n + 1 }))
      else
        let t := s.stampFor x.fn
        let rec_ := toLE 4 0 ++ toLE 4 n ++ toLE 8 0 ++ toLE 2 0 ++ toLE 2 (n - x.recorded) ++ toLE 4 x.group ++ toLE 8 t ++
          toLE 8 t ++ toLE 24 0
        let data := (List.range (audSlotSamples g.live)).flatMap (fun k => samples.flatMap (fun l => toLE 4 (wrap 32 (l.getD k 0))))
        let s := s.putSlot x.part at_ [(64, data)] rec_
        let s := s.signal x.frameSync 1 x.part x.gen
        .next (s.setMedia (s.media.setStream i { x with started := n + 1, written := m + 1, recorded := n + 1 }))

/-- WAKE_QUEUE_READ: the OWNER of a group reads up to seven of its records of the wake queue from index `first`, which delivers them (R488,
R616, R718). -/
def execWakeQueueRead (f tag first : Nat) (s : State) : Res :=
  s.request f 0x73 tag true false (.owner ((List.range 2).any (s.audOwns f))) true (fun s =>
    let mine := ((s.media.wakes.filter (fun r => r.owner == f)).drop first).take 7
    let s := s.setMedia { s.media with
      wakes := s.media.wakes.map (fun r => if mine.contains r then { r with delivered := true } else r) }
    s.reply f 0x73 tag .ok (mine.flatMap (·.raw)))

/-- A change of power state while a run of gated hops or a candidate is open (R486, R490). -/
def State.audStateChanged (s : State) : State :=
  (List.range 2).foldl (fun (s : State) g =>
    let x := s.media.group g
    s.setGroup g { x with onsetChanged := true, cand := x.cand.map (fun c => { c with changed := true }) }) s

end Sys2Proof.Machine
end

