-- ==== Sys2Proof/Machine/Minuet.lean ====
section
/-!
DEFINITION. Minuet, pause and restart of contexts, and Pas-de-deux pairs (R347 to R355, R358, R379 to R386, R531, R633).
-/
namespace Sys2Proof.Machine

/-! Minuet. -/

/-- Write to a list of granules taken as one area, in ascending granule order (R338). -/
def State.areaWriteFuel (k : Nat) (area : List Nat) : Nat → Nat → List Byte → State → State
  | 0, _, _, s => s
  | fuel + 1, off, bs, s =>
    if bs.isEmpty then s
    else
      let n := min bs.length (0x100000 - off % 0x100000)
      let g := area.getD (off / 0x100000) 0
      State.areaWriteFuel k area fuel (off + n) (bs.drop n)
        (s.writeMem (clusterBase k + g * 0x100000 + off % 0x100000) (bs.take n))

/-- The pieces of an area range as DPA and length. -/
def areaPieces (k : Nat) (area : List Nat) : Nat → Nat → Nat → List (Nat × Nat)
  | 0, _, _ => []
  | fuel + 1, off, n =>
    if n = 0 then []
    else
      let m := min n (0x100000 - off % 0x100000)
      (clusterBase k + area.getD (off / 0x100000) 0 * 0x100000 + off % 0x100000, m) :: areaPieces k area fuel (off + m) (n - m)

/-- The save area of a partition in a cluster, ascending. -/
def Part.saveAreaUp (x : Part) (k : Nat) : List Nat := (x.saveArea k).reverse

/-- The offset of a core's save slot in the area: the slots follow the partition's cores of the cluster (R338). -/
def Part.slotOff (x : Part) (n : Nat) : Nat := ((x.coresIn (n / 8)).takeWhile (fun m => decide (m < n))).length * x.save64k * 65536

/-- A REAL_TIME descriptor of a partition waits for a core (R347). -/
def State.rtNeeds (s : State) (p n : Nat) : Bool :=
  (s.rtCandidates p).any (fun e => e.2.phase.unstarted && (descMask e.2.raw).contains n)

/-- A core is stopped at a WAIT. -/
def Core.atWait (c : Core) : Bool := match c.run with
  | .waiting _ => true
  | .woken => true
  | _ => false

/-- MINUET_REQUEST: the firmware asks a core that runs NORMAL work to pre-empt it, because a REAL_TIME descriptor needs the
core, its context is paused, or a swap of the core is due and needs it (`migrate`) (R347, R349, R352, R353, R355). A core whose
save slot still holds another descriptor is not asked: that need waits for the running descriptor to end (DESIGN CHOICE, log
entry 156). A core held at its first body instruction abandons its preamble like one at a WAIT (R352, R594). -/
def execMinuetRequest (n : Nat) (migrate : Bool) (s : State) : Res :=
  let c := s.core n
  let migrate := migrate && (Tbl.find s.errs.coreDue n).isSome
  if c.minuetReq || c.resume.isSome || s.errs.halted then .next s
  else
    match c.work with
    | some w =>
      let x := s.ctx w.ctx
      let may := match s.part w.part with
        | some p => p.save64k != 0 && !x.realtime && !p.clearing && (migrate || x.paused || s.rtNeeds w.part n)
        | none => false
      if may && c.run != .idle && c.run != .loaded then
        if c.atWait || s.heldAtBody n then .next (stallOf n s (((s.modeUp n).dropWaits n).setCore n { c.abandon with minuetReq := true }))
        else .next (s.setCore n { c with minuetReq := true })
      else .next s
    | none =>
      match (Tbl.keys s.work.parts).find? (fun p => match s.part p with
        | some x => x.ownsCore n && x.save64k != 0 && !x.clearing
        | none => false) with
      | some p => if (migrate || s.rtNeeds p n) && c.run == .idle then .next (s.yieldSignal p) else .next s
      | none => .next s

/-- The resume block of a core at a tile boundary (R349). -/
def Core.resumeBlock (c : Core) (w : CoreWork) (p : Program) (id off : Nat) : Resume :=
  { s := c.s, a := c.a, td := c.td, tilePos := c.pc, tileId := id, ranges := p.live.getD id [], slotOff := off, prog := p, work := w }

/-- A core has yielded: it keeps its resume block and nothing else of the descriptor (R349). -/
def Core.yielded (c : Core) (r : Option Resume) : Core :=
  { c with
    run := if r.isSome then .yielded else .idle, work := none, prog := none, code := [], pc := 0, tile := none, commitQ := [],
    loops := [], minuetReq := false, resume := r, mode := 0, accSat := false, accNonfin := false }

/-- MINUET_SAVE: a core with a request has reached a tile boundary; its register block and the live ranges of the resume
tile are saved and the yield signal is added (R349, Table 8.2). A poisoned live range ends the save and fails the
descriptor; a stopped program yields without a save, and so does one that has ended, whose core is then free (R343, R353, R355). Nothing
is saved once a Clearing of the partition has begun (R355). -/
def execMinuetSave (n : Nat) (s : State) : Res :=
  if s.errs.halted then .next s else
  let c := s.core n
  match c.minuetReq, c.work, c.prog with
  | true, some w, some p =>
    match s.part w.part with
    | none => .next s
    | some part =>
      if part.clearing then .next s else
      match c.run with
      | .running =>
        match c.tile, c.wordAt c.pc with
        | none, some word =>
          if opcodeOf word ≠ 1 then .next s
          else
            let k := n / 8
            let off := part.slotOff n
            let r := c.resumeBlock w p (bits word 15 0) off
            if r.ranges.any (fun e => s.corePoisoned n e.1 e.2) then
              let s := s.faultDesc n w.ctx w.idx (bits word 15 0) .eMemPoison
              .next ((s.setCore n { s.core n with minuetReq := false }).yieldSignal w.part)
            else
              let bs := r.ranges.flatMap (fun e => s.coreRead n e.1 e.2)
              let s := s.carryPads (r.ranges.flatMap (fun e => rangeFrom (coreBase n + e.1) e.2))
                ((areaPieces k (part.saveAreaUp k) 3 off bs.length).flatMap (fun e => rangeFrom e.1 e.2))
                (State.areaWriteFuel k (part.saveAreaUp k) 3 off bs s)
              .next ((s.setCore n (c.yielded (some r))).yieldSignal w.part)
        | _, _ => if s.heldAtBody n then .next ((s.dropWaits n).setCore n c.abandon) else .next s
      | .stopped _ => .next ((s.setCore n { c with minuetReq := false }).yieldSignal w.part)
      | .ended => .next ((s.freeCore n).setDesc w.ctx w.idx (fun d => { d with freed := true }))
      | _ => .next s
  | _, _, _ => .next s

/-- Move saved live ranges back to their offsets (R354). -/
def State.restoreRanges (n : Nat) : List (Nat × Nat) → List Byte → State → State
  | [], _, s => s
  | r :: rs, bs, s => State.restoreRanges n rs (bs.drop r.2) (s.coreWrite n r.1 (bs.take r.2))

/-- MINUET_RESTORE: the firmware restores a pre-empted descriptor onto its core: the program is reloaded, the live ranges
move back and the rest of the core store is undefined, the registers return, and issue resumes at the resume TILE
(R354). -/
def execMinuetRestore (n : Nat) (host : HostRead) (s : State) : Res :=
  let c := s.core n
  match c.resume, c.run with
  | some r, .yielded =>
    let w := r.work
    let x := s.ctx w.ctx
    match s.part w.part with
    | none => .next s
    | some part =>
      if x.halted || x.paused || part.clearing || s.rtNeeds w.part n || s.coreClosed n || s.errs.halted then .next s
      else
        if s.imageHeld part r.prog.iova r.prog.imageBase then
          .next (s.waitsOn w.part (s.imageTroubled part r.prog.iova r.prog.imageBase)) else
        let s := s.imageReads part r.prog.iova r.prog.imageBase host
        match s.readImage part w.part w.gen (n / 8) r.prog.iova r.prog.imageBase host with
        | .error e =>
          let s := (s.resumeCores w.ctx w.idx).foldl State.dropResume s
          .next (s.failLoad w.ctx w.idx n e)
        | .ok img =>
          let k := n / 8
          let total := r.ranges.foldl (fun acc e => acc + e.2) 0
          let ps := areaPieces k (part.saveAreaUp k) 3 r.slotOff total
          if ps.any (fun e => s.poisoned e.1 e.2) then
            let s := s.setCore n { c with run := .idle, work := some w, resume := none }
            .next (s.faultDesc n w.ctx w.idx r.tileId .eMemPoison)
          else
            let bs := ps.flatMap (fun e => s.readMem e.1 e.2)
            let s := s.countImage w.ctx w.part k r.prog.iova r.prog.imageBase img.length
            let before := s
            let s := (s.clearPoison (coreBase n) coreStoreBytes).undefine (coreBase n) coreStoreBytes
            let s := before.carryPads (ps.flatMap (fun e => rangeFrom e.1 e.2)) (r.ranges.flatMap (fun e => rangeFrom (coreBase n + e.1) e.2))
              (State.restoreRanges n r.ranges bs s)
            let code := imageCode img
            let b := overlayStart 65536 code 0 r.tilePos
            let rest := code.drop b
            .next ((s.setCore n { c with
              run := .running, work := some w, prog := some { r.prog with codeBase := b }, code := rest.take (overlayLen rest),
              pc := r.tilePos, s := r.s, a := r.a, td := r.td, resume := none, compat := r.prog.compat,
              allow := allowFor r.prog.realtime }).noteCompat n w.part)
  | _, _ => .next s

/-! Pause and restart. -/

/-- A function owns a context's group (R545, R549). -/
def State.ownsCtx (s : State) (f n : Nat) : Bool := s.ctxFn n == f

/-- CTX_PAUSE: the host driver pauses a NORMAL context; Minuet then takes its cores (R347). A REAL_TIME context cannot be
paused. -/
def execCtxPause (f tag n : Nat) (s : State) : Res :=
  s.request f 0x31 tag false false (.owner (s.ownsCtx f n)) (!(s.ctx n).realtime) (fun s =>
    (s.setCtx n { s.ctx n with paused := true }).reply f 0x31 tag .ok)

/-! Pas de deux. -/

def pairRegions (r : List Byte) : Nat := fldBits r 0 19 16
def pairBanks (r : List Byte) : Nat := fldBits r 0 21 20 + 1
def pairStride (r : List Byte) : Nat := fld r 0xC 4

/-- Bits of one element of a compared type: those of Table 4.1, and single bytes for raw data (R383). -/
def cmpBits (t : Nat) : Nat := match typeInfo t with
  | some i => i.bits
  | none => 8

/-- Bytes that LENGTH counts by: an element, or a byte where elements are smaller (Table 8.14). -/
def cmpBytes (t : Nat) : Nat := max 1 (cmpBits t / 8)

/-- Region j of a pair record: DPA_A, DPA_B, LENGTH, TYPE, TOL. -/
def pairRegion (r : List Byte) (j : Nat) : Nat × Nat × Nat × Nat × Nat :=
  let o := 0x10 + 32 * j
  (fld r o 8, fld r (o + 8) 8, fld r (o + 0x10) 4, fldBits r (o + 0x14) 5 0, fldBits r (o + 0x14) 31 16)

/-- The checks of R379. -/
def State.pairOk (s : State) (r : List Byte) : Bool :=
  match s.part (pairA r), s.part (pairB r) with
  | some a, some b =>
    let n := pairRegions r
    let span := pairStride r * (pairBanks r - 1)
    fldBits r 0 7 6 == 0 && fldBits r 0 15 14 == 0 && fldBits r 0 31 22 == 0 && inRange n 1 8 &&
    inRange (fldBits r 8 31 16) 1 65535 && pairStride r % 64 == 0 &&
    a.fn == b.fn && a.realtime && b.realtime && !a.clearing && !b.clearing &&
    a.cores.all (fun c => decide (c < 64)) && b.cores.all (fun c => decide (64 ≤ c)) &&
    (List.range n).all (fun j =>
      let (da, db, len, t, _) := pairRegion r j
      (t == 0 || (typeInfo t).isSome) && len % cmpBytes t == 0 && fldBits r (0x24 + 32 * j) 15 6 == 0 && fld r (0x28 + 32 * j) 8 == 0 &&
      a.ownsStacked da (span + len) && b.ownsStacked db (span + len))
  | _, _ => false

/-- The lowest unused pair number. -/
def State.freePair (s : State) : Nat :=
  ((List.range (s.work.pairs.length + 1)).find? (fun i => (Tbl.find s.work.pairs i).isNone)).getD 0

/-- PAIR_CREATE: the firmware checks a pair record and creates the pair, disarmed (R379, R380). -/
def execPairCreate (f tag : Nat) (raw : List Byte) (s : State) : Res :=
  let r := slice raw 0 272
  s.request f 0x50 tag false false (.owner (f == 0 || s.ownsPart f (pairA r))) true (fun s =>
    if !s.pairOk r then s.reply f 0x50 tag .ePairConfig
    else
      let i := s.freePair
      let x : Pair := { raw := r, fn := s.partFn (pairA r), armed := false, round := 0, stopped := false }
      ({ s with work := { s.work with pairs := Tbl.put s.work.pairs i x } } : State).reply f 0x50 tag .ok (toLE 4 i))

/-- PAIR_ARM: PF0 arms a pair, whose rounds count from 1 again, or disarms it (R380). -/
def execPairArm (f tag i : Nat) (arm : Bool) (s : State) : Res :=
  s.request f 0x51 tag false false .pf0 true (fun s =>
    match Tbl.find s.work.pairs i with
    | none => s.reply f 0x51 tag .ePairConfig
    | some x =>
      let x := { x with armed := arm, round := 0, stopped := false }
      ({ s with work := { s.work with pairs := Tbl.put s.work.pairs i x } } : State).reply f 0x51 tag .ok)

/-- ord(x) of a floating element of w bits (R383). -/
def ordOf (w x : Nat) : Int :=
  let m := x % 2 ^ (w - 1)
  if x < 2 ^ (w - 1) then (m : Int) else -(m : Int)

/-- The floating format of a compared type, if it is one (R383). -/
def cmpFmt (t : Nat) : Option FpFmt := match t with
  | 0x08 => some fmtE4M3
  | 0x09 => some fmtE5M2
  | 0x10 => some fmtBF16
  | 0x11 => some fmtFP16
  | 0x12 => some fmtFP32
  | _ => none

/-- Two elements match (R383). -/
def elemMatch (t tol a b : Nat) : Bool :=
  match cmpFmt t with
  | none => a == b
  | some f =>
    let na := (decodeFp f a).isNan
    let nb := (decodeFp f b).isNan
    if na || nb then na && nb else decide ((ordOf (cmpBits t) a - ordOf (cmpBits t) b).natAbs ≤ tol)

/-- The first element of a region that does not match, with both raw values. -/
def State.regionDiff (s : State) (r : List Byte) (bank j : Nat) : Option (Nat × Nat × Nat) :=
  let (da, db, len, t, tol) := pairRegion r j
  let w := cmpBits t
  let off := pairStride r * bank
  let at_ := fun (base i : Nat) => (leNat (s.readMem (base + off + i * w / 8) ((i * w % 8 + w + 7) / 8)) >>> (i * w % 8)) % 2 ^ w
  (List.range (8 * len / w)).findSome? (fun i =>
    if elemMatch t tol (at_ da i) (at_ db i) then none else some (i, at_ da i, at_ db i))

/-- Why a slice does not answer a read for a side of a pair, under the current generation of the side's partition (R205, R298, R309). -/
def State.sliceErr (s : State) (p a n : Nat) : Option Status := match s.part p with
  | some part => s.stackedErr part p (s.gen p) a n
  | none => some .eStoreRange

/-- The done object of a side has reached a round (R381). -/
def State.doneReached (s : State) (i round : Nat) : Bool :=
  s.waitHolds { sync := i, eq := false, target := BitVec.ofNat 32 round }

def pairDoneA (r : List Byte) : Nat := fld r 4 2
def pairDoneB (r : List Byte) : Nat := fld r 6 2

/-- PAIR_ROUND_COMPARE: both DONE objects have reached the next round of an armed pair; the compare unit reads every region
under its own partition's key and advances PASS_SYNC, or stops the pair at the first element that does not match (R380 to
R384). Poison in a region is reported as a mismatch with E_MEM_POISON (R317), and a stack that does not serve the same way with
E_STACK_OFF (R298); a page that is not granted to its side with E_STORE_RANGE (R309); while a slice holds a request of it the unit waits
(R303, R317). -/
def execPairRoundCompare (i : Nat) (s : State) : Res :=
  match Tbl.find s.work.pairs i with
  | none => .next s
  | some x =>
    let r := x.raw
    let n := x.round + 1
    if !x.armed || x.stopped || !s.doneReached (pairDoneA r) n || !s.doneReached (pairDoneB r) n || s.errs.halted then .next s
    else
      let bank := (n - 1) % pairBanks r
      let js := List.range (pairRegions r)
      let ranges := js.flatMap (fun j =>
        let (da, db, len, _, _) := pairRegion r j
        [(pairA r, da + pairStride r * bank, len), (pairB r, db + pairStride r * bank, len)])
      if ranges.any (fun e => s.memHeld e.2.1 e.2.2) then
        .next (ranges.foldl (fun s e => s.waitsOn e.1 (s.memRepairing e.2.1 e.2.2)) s)
      else match ranges.findSome? (fun e => s.sliceErr e.1 e.2.1 e.2.2) with
      | some st => .next (s.pairStop i st (toLE 4 n))
      | none =>
      let count := fun (s : State) j =>
        let (da, db, len, _, _) := pairRegion r j
        ((s.accountStacked none (pairA r) 2 false (da + pairStride r * bank) len).accountStacked none (pairB r) 2 false
          (db + pairStride r * bank) len)
      let s := js.foldl count s
      let bad := js.find? (fun j =>
        let (da, db, len, _, _) := pairRegion r j
        s.poisoned (da + pairStride r * bank) len || s.poisoned (db + pairStride r * bank) len)
      match bad with
      | some j => .next (s.pairStop i .eMemPoison (toLE 4 n ++ toLE 4 j))
      | none =>
        match js.findSome? (fun j => (s.regionDiff r bank j).map (fun d => (j, d))) with
        | some (j, (e, a, b)) =>
          .next (s.pairStop i .ePairMismatch (toLE 4 n ++ toLE 4 j ++ toLE 8 e ++ toLE 8 a ++ toLE 8 b))
        | none =>
          let s := { s with work := { s.work with pairs := Tbl.put s.work.pairs i { x with round := n } } }
          .next (s.signal (fld r 8 2) 1 64 0)

/-- PAIR_TIMEOUT: TIMEOUT_US passes after the first DONE of a round without the second; the pair stops with E_PAIR_TIMEOUT
(R385). -/
def execPairTimeout (i : Nat) (s : State) : Res :=
  match Tbl.find s.work.pairs i with
  | none => .next s
  | some x =>
    let n := x.round + 1
    if x.armed && !x.stopped && (s.doneReached (pairDoneA x.raw) n != s.doneReached (pairDoneB x.raw) n) && !s.errs.halted then
      .next (s.pairStop i .ePairTimeout (toLE 4 n))
    else .next s

end Sys2Proof.Machine
end

