-- ==== Sys2Proof/Machine/Rings.lean ====
section
/-!
DEFINITION. Contexts, doorbells, fetching, and the commands of descriptors (R506 to R536).
-/
namespace Sys2Proof.Machine

/-! Doorbells (R500, R511, R530, R531). -/

/-- A context is the STEP_CONTEXT of a serving record (R522). -/
def State.isStepCtx (s : State) (n : Nat) : Bool :=
  (Tbl.keys s.work.serving).any (fun p => match (s.serving p).raw with
    | some r => fldBits r 0 11 0 == n
    | none => false)

/-- The offset in BAR4 of a context's SQ_TAIL doorbell and of its CQ_HEAD doorbell (R510). -/
def tailOffset (n : Nat) : Nat := n / 64 * 4096 + n % 64 * 64
def headOffset (n : Nat) : Nat := tailOffset n + 4

/-- What a BAR4 write of `size` bytes at an offset reaches: the context and whether it is its CQ_HEAD; nothing where the write is no
naturally aligned 32-bit write to a doorbell word (R510, R511). -/
def bar4Word (off size : Nat) : Option (Nat × Bool) :=
  if size = 4 ∧ off < 0x40000 then
    if off % 64 = 0 then some (off / 64, false)
    else if off % 64 = 4 then some (off / 64, true)
    else none
  else none

/-- A BAR4 read (R510). -/
def bar4Read (_off : Nat) : Word := 0

/-- The module acts on a doorbell: the group belongs to the function and the link is at or above the floor; a doorbell on a
slow link is counted, and none is acted on in the fatal halt or while the module is off or saved (R500, R511, R731). -/
def State.doorbell (s : State) (f n : Nat) (k : State → State) : Res :=
  if s.ctxFn n ≠ f ∨ s.errs.halted = true ∨ s.pwr.aon = false then .next s
  else
    let l := s.linkOf f
    let x := s.link l
    if x.belowFloor then .next (s.setLink l { x with dbIgnored := satAdd x.dbIgnored 1 0xFFFF }) else .next (k s)

/-- A doorbell is ignored and DB_BAD set (R530). -/
def State.dbBad (s : State) (n : Nat) : State := s.setCtx n { s.ctx n with dbBad := true }

/-- The acceptance test of an SQ_TAIL value (R530). -/
def Ctx.acceptsTail (c : Ctx) (v : Nat) : Bool :=
  decide (diff32 v c.sqHead.toNat ≤ 2 ^ c.sqLog2) && decide (0 ≤ sdiff32 v c.sqTail.toNat)

/-- The acceptance test of a CQ_HEAD value (R530). -/
def Ctx.acceptsHead (c : Ctx) (v : Nat) : Bool :=
  decide (0 ≤ sdiff32 v c.cqHead.toNat) && decide (0 ≤ sdiff32 c.cqTail.toNat v)

/-- Act on a doorbell: accept its value, an SQ_TAIL in the order of its arrival (R344), or ignore it (R530). -/
def State.takeBell (s : State) (n : Nat) (b : HeldBell) : State :=
  let c := s.ctx n
  if b.head then (if c.acceptsHead b.value.toNat then s.setCtx n { c with cqHead := b.value } else s.dbBad n)
  else if c.acceptsTail b.value.toNat then s.setCtx n (c.ring b.value b.order)
  else s.dbBad n

/-- The doorbell that arrives next, with its number in the order of arrival (R344). -/
def State.nextBell (s : State) (head : Bool) (v : Nat) : HeldBell :=
  { head := head, value := BitVec.ofNat 32 v, order := s.work.doorbells + 1 }

/-- Number a doorbell of an active context, and keep it for the restart when the context is halted (R344, R531). -/
def State.ringBell (s : State) (n : Nat) (head : Bool) (v : Nat) : State :=
  let b := s.nextBell head v
  let s := { s with work := { s.work with doorbells := b.order } }
  if (s.ctx n).halted then s.setCtx n { s.ctx n with held := (s.ctx n).held ++ [b] } else s.takeBell n b

/-- The doorbells of the contexts of a partition being cleared are counted at its Clearing (Table 12.9 step 2). -/
def State.countBell (s : State) (n : Nat) : State :=
  { s with work := { s.work with clearings := s.work.clearings.map (fun e =>
      (e.1, if e.2.ctxs.contains n then { e.2 with bellsIgnored := e.2.bellsIgnored + 1 } else e.2)) } }

/-- The context's partition is being cleared. -/
def State.ctxClearing (s : State) (n : Nat) : Bool := (s.part (s.ctx n).part).any (·.clearing)

/-- A doorbell word of BAR4 is written by a function. The doorbell rings, unless the context is not active or it is the SQ_TAIL of a
STEP_CONTEXT, which sets DB_BAD, or the context's partition is being cleared; one of a context that its Clearing has disabled is
counted there as well (R511, R530, R533, R560). -/
def State.bar4Write (s : State) (f off size v : Nat) : Res := match bar4Word off size with
  | none => .next s
  | some (n, head) =>
    s.doorbell f n (fun s =>
      if !(s.ctx n).active then (s.countBell n).dbBad n
      else if !head && s.isStepCtx n then s.dbBad n
      else if s.ctxClearing n then s.countBell n
      else s.ringBell n head v)

/-- SQ_TAIL_DOORBELL: the host writes a submission tail in BAR4 (R510, R511, R530, R531, R533). -/
def execSqTailDoorbell (f n v : Nat) (s : State) : Res := s.bar4Write f (tailOffset n) 4 v

/-- CQ_HEAD_DOORBELL: the host writes a completion head in BAR4, which frees completion space (R510, R511, R530, R531). -/
def execCqHeadDoorbell (f n v : Nat) (s : State) : Res := s.bar4Write f (headOffset n) 4 v

/-! Restart. -/

/-- CTX_RESTART: the host driver restarts a halted context: the doorbells held meanwhile are acted on in their order, and descriptors restored
from a Windfall image are answered with ABORTED_BY_WINDFALL; a paused context goes on (R358, R531, R633). -/
def execCtxRestart (f tag n : Nat) (s : State) : Res :=
  s.request f 0x30 tag false false (.owner (s.ownsCtx f n)) true (fun s =>
    let c := s.ctx n
    let descs := c.descs.map (fun d => if d.phase == .restored then { d with phase := .ended, status := .abortedByWindfall } else d)
    let c := { c with halted := false, paused := false, descs := descs }
    let s := c.held.foldl (fun s b => s.takeBell n b) (s.setCtx n { c with held := [] })
    s.reply f 0x30 tag .ok)

/-! Enabling (R514 to R517). -/

/-- The fields of CFG that a write keeps (Table 11.7). -/
def cfgMask : Nat := 0xFFBF1F1F

/-- The checks of R514 on a CFG value. -/
def State.cfgOk (s : State) (n cfg : Nat) : Bool :=
  let c := { s.ctx n with cfg := BitVec.ofNat 32 cfg }
  let f := s.ctxFn n
  match s.part c.part with
  | some p =>
    p.fn == f && !p.clearing && (!c.realtime || p.realtime) && decide (c.entry < s.vectors f) &&
    inRange c.sqLog2 6 16 && inRange c.cqLog2 6 16 && (!c.sqDpa || p.ownsStacked c.sqBase (64 * 2 ^ c.sqLog2))
  | none => false

/-- Clear the eight counters at a base key, with the fraction of ENERGY_UJ (R378). -/
def State.clearAcct (s : State) (base : Nat) : State :=
  let s := { s with work := { s.work with acct := s.work.acct.filter (fun e => !(decide (base ≤ e.1) && decide (e.1 < base + 8))) } }
  s.setLedger { s.pwr.ledger with frac := Tbl.del s.pwr.ledger.frac (base + 6) }

/-- CTX_ENABLE: a CFG write by the owner of the context's group changes ENABLE from 0 to 1; the module checks the set-up and
activates the context, or refuses with a status in CFG_ERR (R514 to R516, R616, R378). A context that still drains after a
disable is refused with E_CTX_CONFIG. -/
def execCtxEnable (f n value : Nat) (s : State) : Res :=
  s.regWrite (s.ctxFn n == f) (fun s =>
    let c := s.ctx n
    if c.enabled || !bit value 31 then s
    else
      let cfg := if c.active then c.cfg.toNat else value &&& cfgMask
      let refuse := fun (st : Status) => s.setCtx n { c with cfg := BitVec.ofNat 32 (cfg % 2 ^ 31), cfgErr := st.code }
      if !s.pwr.fw.running then refuse .eFwAbsent
      else if c.active || !s.cfgOk n cfg then refuse .eCtxConfig
      else
        (s.setCtx n { c with
          cfg := BitVec.ofNat 32 cfg, cfgErr := 0, active := true, halted := false, paused := false,
          dbBad := false, sqHead := 0, sqTail := 0, cqTail := 0, cqHead := 0, descs := [], seqReserved := 0, pending := 0,
          held := [], bells := [] }).clearAcct (8 * n))

/-- CTX_DISABLE: ENABLE changes from 1 to 0: fetching stops, and ACTIVE clears with the last record (R517). -/
def execCtxDisable (f n : Nat) (s : State) : Res :=
  s.regWrite (s.ctxFn n == f) (fun s =>
    let c := s.ctx n
    if c.enabled then
      (s.setCtx n { c with cfg := BitVec.ofNat 32 (c.cfg.toNat % 2 ^ 31) }).settleCtx n
    else s)

/-! Fetching (R519, R520, R524, R534). -/

/-- The index of the next descriptor to fetch. -/
def Ctx.fetchIdx (c : Ctx) : Nat :=
  (c.sqHead.toNat + (c.descs.filter (fun d => d.phase == .fetching)).length) % 2 ^ 32

/-- A descriptor on its way. -/
def Desc.fetch (idx order : Nat) : Desc :=
  { idx := idx, raw := [], phase := .fetching, order := order, status := .ok, accSat := false, accNonfin := false, detail0 := 0,
    detail1 := 0, estimate := 0, resLeft := 0, resC := 0, resOpen := false, drawn := 0, waitSince := 0, voided := false,
    fault := false, stops := [], waitMet := false, freed := false }

/-- The arrival order of the doorbell that first asked for a ring index (R344). -/
def Ctx.orderOf (c : Ctx) (i : Nat) : Nat := match c.bells.find? (fun b => decide (0 < sdiff32 b.1.toNat i)) with
  | some b => b.2
  | none => 0

/-- The doorbells that ask for more than a ring index. -/
def Ctx.bellsPast (c : Ctx) (i : Nat) : List (Word × Nat) := c.bells.filter (fun b => decide (1 < sdiff32 b.1.toNat i))

/-- DESCRIPTOR_FETCH: the module reserves a completion slot and issues the read of the next descriptor (R519). -/
def execDescriptorFetch (n : Nat) (s : State) : Res :=
  let c := s.ctx n
  let i := c.fetchIdx
  let d := diff32 c.sqTail.toNat i
  let clearing := match s.part c.part with
    | some p => p.clearing
    | none => true
  if !c.active || !c.enabled || c.halted || clearing || s.errs.halted || !s.pwr.fw.running || !inRange d 1 (2 ^ c.sqLog2) then
    .next s
  else if !c.cqFree then .next s
  else
    let s := s.setCtx n { c with descs := c.descs ++ [Desc.fetch i (c.orderOf i)], bells := c.bellsPast i }
    .next (if c.sqDpa then s else s.hostRead (s.ctxFn n) (c.sqBase + i % 2 ^ c.sqLog2 * 64) 64 5)

/-- Reserved bits and ranges of a descriptor's header and body (Tables 11.10 and 11.11); a CAMERA body is checked by its own
command. -/
def descFormatOk (r : List Byte) : Bool :=
  let op := fld r 0 1
  decide (op ≤ 4) && fldBits r 0 31 12 == 0 && (op == 1 || !bit (fld r 0 4) 11) && fldBits r 0xC 31 18 == 0 &&
  zeroBytes r 0x18 8 &&
  (match op with
    | 0 => zeroBytes r 0x20 32
    | 1 => fld r 0x20 8 % 64 == 0 && fld r 0x2E 2 == 0
    | 2 => fld r 0x20 8 % 64 == 0 && fld r 0x28 8 % 64 == 0 && fld r 0x30 4 % 64 == 0 && fld r 0x30 4 != 0 &&
        fldBits r 0x34 31 2 == 0 && zeroBytes r 0x38 8
    | 4 => zeroBytes r 0x28 24
    | _ => true)

/-- A range of device memory lies in a partition's grant: its pages, granules and core stores (R205, R524). -/
def Part.grants (x : Part) (a n : Nat) : Bool :=
  if a < stackedEnd then x.ownsStacked a n
  else if 0x4000000000 ≤ a ∧ a < clusterEnd then
    let k := (a - 0x4000000000) / 0x1000000
    x.ownsGranules k (a - clusterBase k) n
  else if clusterEnd ≤ a ∧ a < coreEnd then
    let c := (a - clusterEnd) / 0x200000
    x.ownsCore c && decide (a - coreBase c + n ≤ coreStoreBytes)
  else false

/-- The first check of R524 that a descriptor of a context fails. -/
def State.descErr (s : State) (n : Nat) (part : Part) (r : List Byte) : Option Status :=
  let op := fld r 0 1
  let p := (s.ctx n).part
  let g := s.gen p
  let cores := descMask r
  if !descFormatOk r then some .eDescFormat
  else if op = 1 ∧ (cores.isEmpty || cores.any (fun m => !part.ownsCore m)) = true then some .eCoreMask
  else if op = 1 ∧ bit (fld r 0 4) 11 = false ∧ part.grants (fld r 0x20 8) 0x40 = false then some .eStoreRange
  else if op = 2 ∧ ((!bit (fld r 0x34 4) 0 && !part.grants (fld r 0x20 8) (fld r 0x30 4)) ||
      (!bit (fld r 0x34 4) 1 && !part.grants (fld r 0x28 8) (fld r 0x30 4))) = true then some .eStoreRange
  else if op = 4 ∧ part.ownsStacked (fld r 0x20 8) 64 = false then some .eStoreRange
  else if bit (fld r 0xC 4) 16 = true ∧ s.ownsSync p g (fld r 0xC 2) = false then some .eSyncOwner
  else if fld r 0x16 2 ≠ 0 ∧ s.ownsSync p g (fld r 0x14 2) = false then some .eSyncOwner
  else if op = 3 ∧ s.media.cmdContext (r.drop 0x20) ≠ some n then some .eCamConfig
  else if s.namesRetired r then some .eCoreRetired
  else if bit (fld r 0 4) 8 = false ∧ s.oversize part.fn (s.pwr.ledger.estimate r) = true then some .eEnergyOversize
  else none

/-- A refused fetch halts the context, drops what is still on its way and writes an unsolicited record (R534). -/
def State.fetchRefused (s : State) (n : Nat) (st : Status) : State :=
  let c := s.ctx n
  let s := s.setCtx n { c with descs := c.descs.filter (fun d => !(d.phase == .fetching)) }
  let s := s.haltCtx n st
  (s.writeRecord n { status := st, sat := false, nonfin := false, unsolicited := true, tag := 0, detail0 := 0, detail1 := 0,
                     energy := 0 } false).settleCtx n

/-- A descriptor has arrived: it is copied, checked, its wait is registered, and SQ_HEAD advances (R198, R520, R524, R596). -/
def State.arrive (s : State) (n : Nat) (d : Desc) (part : Part) (raw : List Byte) : State :=
  let c := s.ctx n
  let s := s.setCtx n { c with sqHead := c.sqHead + 1 }
  match s.descErr n part raw with
  | some e => s.setDesc n d.idx (fun x => { x with raw := raw, phase := .ended, status := e })
  | none =>
    let met := match descWait raw with
      | some w => s.waitHolds w
      | none => true
    s.setDesc n d.idx (fun x => { x with raw := raw, phase := .queued, waitMet := met })

/-- The fetch of a descriptor has to wait for a repair or for a link that retrains (R317, R361, R501). -/
def State.fetchTroubled (s : State) (n at_ : Nat) : Bool :=
  if (s.ctx n).sqDpa then s.memRepairing at_ 64 else (s.link (s.linkOf (s.ctxFn n))).retraining

/-- The fetch of a descriptor has to wait: for that, or for a stack at 105 °C or more (R303). -/
def State.fetchHeld (s : State) (n at_ : Nat) : Bool := s.fetchTroubled n at_ || ((s.ctx n).sqDpa && s.memHeld at_ 64)

/-- A fetch that was on its way when its partition's Clearing began arrives: its context is halted by nothing, and a refused one, or one
under the old generation in stacked memory, is a discarded transfer (R309, R562); it counts with the poisoned reads (DESIGN CHOICE, log
entry 193). -/
def State.lateFetch (s : State) (n : Nat) (refused : Bool) : State :=
  match (Tbl.keys s.work.clearings).find? (fun p => match Tbl.find s.work.clearings p with
    | some j => j.fetches.contains n
    | none => false) with
  | none => s
  | some p => match Tbl.find s.work.clearings p with
    | some j =>
      let s := { s with work := { s.work with clearings := Tbl.put s.work.clearings p { j with fetches := j.fetches.erase n } } }
      if refused || (s.ctx n).sqDpa then s.countStale p false else s
    | none => s

/-- DESCRIPTOR_ARRIVE: the oldest fetched descriptor of a context arrives from the host, or from the partition's grant when
SQ_DPA is set (R520, R524, R528, R534); a slice or a retraining link can hold the fetch (R303, R317, R501). -/
def execDescriptorArrive (n : Nat) (host : HostRead) (s : State) : Res :=
  if s.errs.halted then .next s else
  let c := s.ctx n
  match c.descs.find? (fun d => d.phase == .fetching), s.part c.part with
  | some d, some part =>
    let at_ := c.sqBase + d.idx % 2 ^ c.sqLog2 * 64
    if s.fetchHeld n at_ then .next (s.waitsOn c.part (s.fetchTroubled n at_))
    else if c.sqDpa then
      match s.stackedErr part c.part (s.gen c.part) at_ 64 with
      | some e => .next (s.fetchRefused n e)
      | none =>
        if s.poisoned at_ 64 then .next (s.fetchRefused n .eMemPoison)
        else .next ((s.accountStacked (some n) c.part 2 false at_ 64).arrive n d part (s.readMem at_ 64))
    else
      match host with
      | .refused => .next (s.fetchRefused n .eIovaFault)
      | .data bs => .next ((s.account (some n) c.part 3 64).arrive n d part (slice bs 0 64))
  | none, _ => .next (s.lateFetch n (host == .refused))
  | some _, none => .next s

/-! The work of descriptors. -/

/-- A started descriptor of an opcode that has not ended. -/
def State.runningDesc (s : State) (n idx op : Nat) : Option Desc :=
  match s.desc n idx with
  | some d => if d.phase == .running && fld d.raw 0 1 == op && !s.errs.halted then some d else none
  | none => none

/-- NOP: a started NOP descriptor has waited as asked and ends (R525). -/
def execNop (n idx : Nat) (s : State) : Res :=
  match s.runningDesc n idx 0 with
  | some _ => .next (s.endDesc n idx .ok)
  | none => .next s

/-- COMPUTE: a started compute descriptor loads its program onto every core it names, and they begin together (R343, R345,
R786). `host` is what the host answers when the program is an IOVA. -/
def execCompute (n idx : Nat) (host : HostRead) (s : State) : Res :=
  match s.runningDesc n idx 1 with
  | some _ => .next ((s.descCores n idx).foldl (fun s m => s.loadCore m host) s)
  | none => .next s

/-- The cluster whose tile mover runs a copy: the one that holds the destination's or the source's store, else the
partition's lowest (R526). -/
def Part.copyCluster (x : Part) (r : List Byte) : Nat :=
  let store := fun (a : Nat) => if 0x4000000000 ≤ a ∧ a < clusterEnd then some ((a - 0x4000000000) / 0x1000000)
    else if clusterEnd ≤ a ∧ a < coreEnd then some ((a - clusterEnd) / 0x1000000) else none
  let dst := if bit (fld r 0x34 4) 1 then none else store (fld r 0x28 8)
  let src := if bit (fld r 0x34 4) 0 then none else store (fld r 0x20 8)
  (dst.orElse (fun _ => src)).getD ((x.cores.headD 0) / 8)

/-- The bytes of a copy in pieces of 64 bytes, with their poison. -/
def copyPieces (x : MoveSrc) (s : State) (n : Nat) : List Piece :=
  joinPieces ((List.range (n / 64)).map (fun i => { off := 64 * i, data := x.read s (64 * i) 64, poison := x.bad s (64 * i) 64 }))

/-- Run a copy (R119, R205, R207, R219, R315, R526, R667): the state after its writes and its status. -/
def State.runCopy (s : State) (n : Nat) (part : Part) (r : List Byte) (host : HostRead) : State × Status :=
  let p := (s.ctx n).part
  let g := s.gen p
  let k := part.copyCluster r
  let len := fld r 0x30 4
  let src := fld r 0x20 8
  let dst := fld r 0x28 8
  let srcIova := bit (fld r 0x34 4) 0
  let dstIova := bit (fld r 0x34 4) 1
  let data := match host with
    | .data d => d
    | .refused => []
  let srcErr := if srcIova then (if host == .refused || decide (data.length < len) then some Status.eIovaFault else none)
    else s.reachErr part p g k false src len
  match srcErr, (if dstIova then s.egressErr p dst len else s.reachErr part p g k true dst len) with
  | some e, _ => (if srcIova then s.hostRead part.fn src len 3 else s, e)
  | none, some e => (s, e)
  | none, none =>
    let x : MoveSrc := { iova := srcIova, base := src, stale := false, host := data }
    let ps := copyPieces x s len
    let before := s
    let s := if srcIova then (((s.account (some n) p 3 len).account (some n) p 5 len).hostRead part.fn src len 3)
      else if src < stackedEnd then s.accountStacked (some n) p (k / 8) false src len
      else s
    let s := if dstIova then s.egress (some n) part.fn p dst len ps
      else if dst < stackedEnd then (s.accountStacked (some n) p (k / 8) true dst len).writePieces dst ps
      else s.writePieces dst ps
    let s := if srcIova || dstIova then s else before.carryPads (rangeFrom src len) (rangeFrom dst len) s
    (s, if ps.any (·.poison) then .eMemPoison else .ok)

/-- A copy meets a repair or a link that retrains (R361, R501, R701). -/
def State.copyTroubled (s : State) (f : Nat) (r : List Byte) : Bool :=
  let host := fun (i : Nat) => bit (fld r 0x34 4) i
  (!host 0 && s.memRepairing (fld r 0x20 8) (fld r 0x30 4)) || (!host 1 && s.memRepairing (fld r 0x28 8) (fld r 0x30 4)) ||
    ((host 0 || host 1) && (s.link (s.linkOf f)).retraining)

/-- A copy has to wait: for that, for a stack at 105 °C or more, or for a descriptor slot of the tile mover that carries it, which it
holds while it runs (R114, R120, R303, R526). -/
def State.copyWaits (s : State) (part : Part) (r : List Byte) : Bool :=
  let host := fun (i : Nat) => bit (fld r 0x34 4) i
  s.copyTroubled part.fn r || (!host 0 && s.memHeld (fld r 0x20 8) (fld r 0x30 4)) ||
    (!host 1 && s.memHeld (fld r 0x28 8) (fld r 0x30 4)) || (s.freeSlot (part.copyCluster r)).isNone

/-- COPY: a started copy descriptor runs on a cluster's tile mover and ends with its status (R526, R667). -/
def execCopy (n idx : Nat) (host : HostRead) (s : State) : Res :=
  match s.runningDesc n idx 2, s.part (s.ctx n).part with
  | some d, some part =>
    let r := s.runCopy n part d.raw host
    if s.copyWaits part d.raw then .next (s.waitsOn (s.ctx n).part (s.copyTroubled part.fn d.raw))
    else .next (r.1.endDesc n idx r.2)
  | _, _ => .next s

/-- POST: a started post descriptor is read and handed to the post engine's queue (R244). -/
def execPost (n idx : Nat) (s : State) : Res :=
  match s.runningDesc n idx 4, s.part (s.ctx n).part with
  | some d, some part =>
    let p := (s.ctx n).part
    let a := fld d.raw 0x20 8
    let u := s.cpu.post
    if (u.handed ++ u.queue ++ u.run.toList).any (fun j => j.ctx == n && j.idx == idx) then .next s
    else if s.memHeld a 64 then .next (s.waitsOn p (s.memRepairing a 64))
    else
      match s.stackedErr part p (s.gen p) a 64 with
      | some e => .next (s.endDesc n idx e)
      | none =>
        if s.poisoned a 64 then .next (s.endDesc n idx .eMemPoison)
        else
          let s := s.accountStacked (some n) p 2 false a 64
          let j : PostJob := { raw := s.readMem a 64, fn := part.fn, part := p, gen := s.gen p, ctx := n, idx := idx }
          .next (s.setPost { s.cpu.post with handed := s.cpu.post.handed ++ [j] })
  | _, _ => .next s

/-! Interrupts (R535, R536). -/

/-- IRQ_MODERATION_TIMER: TIME_US has passed since the oldest pending record of a context, and a message goes out (R535). -/
def execIrqModerationTimer (n : Nat) (s : State) : Res :=
  let c := s.ctx n
  if 0 < c.pending ∧ bits c.mod.toNat 25 16 ≠ 0 ∧ s.errs.halted = false then .next (s.sendMsg (s.ctxFn n) c.entry) else .next s

/-- VECTOR_UNMASK: the host unmasks a vector by a write of BAR0; with its pending bit set one message is sent (R536, R731). -/
def execVectorUnmask (f v : Nat) (s : State) : Res :=
  let x := s.fn f
  if s.errs.halted || !s.pwr.aon then .next s
  else if Tbl.get true x.masked v then
    let was := Tbl.get false x.pba v
    let s := s.setFn f { x with masked := Tbl.set true x.masked v false, pba := Tbl.set false x.pba v false }
    .next (if was then s.sendMsg f v else s)
  else .next s

end Sys2Proof.Machine
end

