-- ==== Sys2Proof/Machine/Stream.lean ====
section
/-!
DEFINITION. Weight streams (R318 to R324).
-/
namespace Sys2Proof.Machine

/-- The half of a stream that takes segment n holds granules of a stream record (R318, R320). -/
def granulesMeet (a b : List Byte) : Bool :=
  decide (streamFirst a < streamFirst b + 2 * streamHalf b) && decide (streamFirst b < streamFirst a + 2 * streamHalf a)

/-- A stream runs: it has not been stopped and, without LOOP, has not filled its last segment (R321, R324). -/
def WStream.live (w : WStream) : Bool := !w.stopped && (streamLoop w.raw || decide (w.filled < streamN w.raw))

/-- The checks of R320 on a record. Granules of the Minuet save area are the partition's own, so a record may name them; the fill moves
then fail with E_STORE_RANGE (R338). -/
def State.streamOk (s : State) (part : Part) (p k : Nat) (r : List Byte) : Bool :=
  let tbl := fld r 0 8
  let n := streamN r
  let h := streamHalf r
  tbl % 64 == 0 && inRange n 1 65535 && inRange (streamConsumers r) 1 8 && fldBits r 0xC 7 4 == 0 && inRange h 1 8 &&
  fldBits r 0xC 31 13 == 0 && zeroBytes r 0x14 12 && decide (streamFirst r + 2 * h ≤ 16) &&
  (rangeFrom (streamFirst r) (2 * h)).all (part.ownsGranule k) &&
  (match Tbl.find s.work.streams (16 * p + k) with
    | some w => !w.live || !granulesMeet w.raw r
    | none => true) &&
  part.ownsStacked tbl (16 * n) && s.ownsSync p (s.gen p) (streamFilled r) && s.ownsSync p (s.gen p) (streamReleased r)

/-- The checks of R320 on the segment table (R319). -/
def State.segmentsOk (s : State) (part : Part) (r : List Byte) : Bool :=
  (List.range (streamN r)).all (fun i =>
    let e := s.readMem (fld r 0 8 + 16 * i) 16
    fld e 0 8 % 64 == 0 && fld e 8 4 % 64 == 0 && decide (fld e 8 4 ≤ streamHalf r * 0x100000) && fld e 12 4 == 0 &&
      part.ownsStacked (fld e 0 8) (fld e 8 4))

/-- The answer to a stream record: a segment table that cannot be read gives its own status (R298, R317, R320, log entry 192). -/
def State.streamErr (s : State) (part : Part) (p k : Nat) (r : List Byte) : Option Status :=
  if !s.streamOk part p k r then some .eStreamConfig
  else match s.unreadable (fld r 0 8) (16 * streamN r) with
    | some st => some st
    | none => if s.segmentsOk part r then none else some .eStreamConfig

/-- The largest piece a fill move carries; how the firmware cuts a fill into moves is its own choice (DESIGN CHOICE, log
entry 62). -/
def fillPiece : Nat := 131072

/-- A fill move: n bytes copied as a packed linear tile of four rows (R319, Table 4.3). -/
def fillMove (src dst n sync add : Nat) : List Byte :=
  let fmt := 1 + 3 * 64 + 1 * 256
  toLE 8 src ++ toLE 8 dst ++ toLE 2 4 ++ toLE 2 (n / 4) ++ toLE 4 0 ++ toLE 2 fmt ++ toLE 2 fmt ++ List.replicate 24 0 ++
  toLE 2 sync ++ toLE 2 add ++ List.replicate 8 0

/-- The moves that fill segment n of a stream: the last one adds 1 to FILLED_SYNC, the others signal nothing (R321). -/
def fillMoves (r entry : List Byte) (k n : Nat) : List (List Byte) :=
  let src := fld entry 0 8
  let len := fld entry 8 4
  let dst := streamHalfBase r k n
  let c := cdiv len fillPiece
  (List.range c).map (fun i => fillMove (src + i * fillPiece) (dst + i * fillPiece) (min fillPiece (len - i * fillPiece))
    (streamFilled r) (if i + 1 = c then 1 else 0))

/-- Segment n exists (R321). -/
def WStream.has (w : WStream) (n : Nat) : Bool := streamLoop w.raw || decide (n < streamN w.raw)

/-- The DPA of the table entry of a stream's next segment (R321). -/
def WStream.nextEntry (w : WStream) : Nat := fld w.raw 0 8 + 16 * (if streamLoop w.raw then w.next % streamN w.raw else w.next)

/-- Start the fill of a stream's next segment: its half holds undefined bytes until the fill has ended (R322). The moves of the
segment but the last are posted; a single one at once. A table entry in a stack that does not serve, or one that reads as poison, fails
the fill (R298, R317, R323), and a segment of no bytes is filled at once. -/
def State.startFill (s : State) (w : WStream) : State :=
  let k := w.cluster
  let at_ := w.nextEntry
  let seg := w.next
  let s := s.partRead w.part at_ 16
  let s := s.undefine (streamHalfBase w.raw k seg) (streamHalf w.raw * 0x100000)
  match s.unreadable at_ 16 with
  | some st => (s.setStream w).failStream w.part k st
  | none =>
    let moves := fillMoves w.raw (s.readMem at_ 16) k seg
    match moves.reverse with
    | [] =>
      (s.setStream { w with next := seg + 1, filled := w.filled + 1 }).signal (streamFilled w.raw) 1 w.part (s.gen w.part)
    | [m] => (s.setStream { w with next := seg + 1 }).postFill w seg m
    | last :: rest =>
      rest.reverse.foldl (fun s m => s.postFill w seg m) (s.setStream { w with next := seg + 1, tails := w.tails ++ [(seg, last)] })

/-- Set a partition's own sync object (R201, R321). -/
def State.zeroSync (s : State) (i : Nat) : State := match s.syncObj i with
  | some o => s.resetSyncValue i o 0
  | none => s

/-- Start the next fill of a stream that runs and has filled or begun `n` segments, when there is one more (R321). -/
def State.fillNext (s : State) (p k n : Nat) : State :=
  match Tbl.find s.work.streams (16 * p + k) with
  | some w => if w.next = n ∧ w.stopped = false ∧ w.has n = true then s.startFill w else s
  | none => s

/-- STREAM_REGISTER: the firmware checks a cluster's stream record and starts the stream: both sync objects are set to 0
and segments 0 and 1 begin to fill (R320, R321). A record whose granules lie apart from those of the cluster's running stream
replaces that stream, and the fills of a cluster whose domain is off wait for it (DESIGN CHOICE, log entry 62). The message waits while a slice holds the segment table (R303, R317). -/
def execStreamRegister (f tag p k : Nat) (raw : List Byte) (s : State) : Res :=
  if s.ownsPart f p && s.memHeld (fld raw 0 8) (16 * streamN raw) then .next s else
  s.request f 0x41 tag false false (.owner (s.ownsPart f p)) true (fun s =>
    match s.part p with
    | none => s.reply f 0x41 tag .eStreamConfig
    | some part =>
      let r := slice raw 0 32
      match s.streamErr part p k r with
      | some st => s.reply f 0x41 tag st
      | none =>
        let s0 := s
        let s := match Tbl.find s.work.streams (16 * p + k) with
          | some w => if w.live then s.haltStream w else s
          | none => s
        let s := (s.zeroSync (streamFilled r)).zeroSync (streamReleased r)
        let w : WStream := {
          raw := r, part := p, cluster := k, next := 0, filled := 0, tails := [], stopAsked := false, stopped := false }
        let s := if s.domainOn (clusterIsland k) then (s.startFill w).fillNext p k 1 else s.setStream w
        (s0.stallAll s).reply f 0x41 tag .ok)

/-- STREAM_FILL_START: RELEASED_SYNC has reached (n − 1) · CONSUMERS and the firmware starts the fill of segment n ≥ 2, or of a segment 0
or 1 that waited for the cluster's domain (R321, log entry 62), unless a slice holds its table entry (R303, R317). -/
def execStreamFillStart (p k : Nat) (s : State) : Res :=
  match Tbl.find s.work.streams (16 * p + k) with
  | some w =>
    let need : SyncWait := {
      sync := streamReleased w.raw, eq := false, target := BitVec.ofNat 32 ((w.next - 1) * streamConsumers w.raw) }
    if w.has w.next && !w.stopAsked && !w.stopped && (decide (w.next < 2) || s.waitHolds need) && !s.errs.halted &&
        s.domainOn (clusterIsland k) && !s.memHeld w.nextEntry 16 then
      .next (s.stallAll (s.startFill w))
    else .next s
  | none => .next s

/-- STREAM_STOP: a message asks a stream to stop at its next segment boundary (R324). -/
def execStreamStop (f tag p k : Nat) (s : State) : Res :=
  s.request f 0x42 tag false false (.owner (s.ownsPart f p)) true (fun s =>
    match Tbl.find s.work.streams (16 * p + k) with
    | some w => (s.setStream { w with stopAsked := true }).reply f 0x42 tag .ok
    | none => s.reply f 0x42 tag .eStreamConfig)

/-- STREAM_STOP_AT_BOUNDARY: a stream asked to stop has no fill in flight, and stops (R324). -/
def execStreamStopAtBoundary (p k : Nat) (s : State) : Res :=
  if s.errs.halted then .next s else
  match Tbl.find s.work.streams (16 * p + k) with
  | some w => if w.stopAsked && !w.stopped && w.filled == w.next then .next (s.stallAll (s.haltStream w)) else .next s
  | none => .next s

end Sys2Proof.Machine
end

