-- ==== Sys2Proof/Machine/CameraCtl.lean ====
section
/-!
DEFINITION. Ports, frame sync, camera contexts and camera commands (R391 to R407, R436, R445 to R454, R456, R740 to R742, R756).
-/
namespace Sys2Proof.Machine

/-! Ports (R392 to R399). -/

/-- A switch closes and the bring-up begins (R393, R396). -/
def Port.close (x : Port) : Port :=
  { x with en := true, st := 1, retrains := 0, attempts := 0, gear := 0, link := 0, retrain := false }

/-- A switch opens: the link ends and any open frame closes (R394). A link that failed to train stays failed until EN changes
(R397). -/
def State.openSwitch (s : State) (p st : Nat) : State :=
  let s := s.closePort p
  let x := s.media.port p
  s.setPort p { x with st := st, gear := 0, link := if x.link = 4 then 4 else 0, current := 0 }

/-- OPEN and OVERCURRENT clear where 1 is written (Table 9.2). -/
def Port.clearPoc (x : Port) (value : Nat) : Port :=
  { x with opened := x.opened && !bit value 9, overcurrent := x.overcurrent && !bit value 8 }

/-- A port's domain powers up: what was written meanwhile acts, and the switch closes while EN = 1. A latched fault keeps it open, and a
failed link stays failed, unless EN was written 0 meanwhile (R55, R393, R394, R396, R397). -/
def Port.powerUp (x : Port) : Port :=
  let x := if bit x.late 0 then { x with st := 0, link := 0, gear := 0 } else x
  let x := { x.clearPoc x.late with late := 0 }
  if !x.en || x.st != 0 then x else if x.link = 4 then { x with st := 1 } else x.close

/-- A group's domain powers up. -/
def State.groupUp (s : State) (g : Nat) : State :=
  (rangeFrom (4 * g) 4).foldl (fun (s : State) p => s.setPort p (s.media.port p).powerUp) s

/-- The fields of CAM_POC[n] other than EN as written: ILIM at once, the write-one-to-clear bits while the group's domain is on and otherwise
when it powers up (R55, R56, Table 9.2). -/
def State.writePoc (s : State) (n value : Nat) : State :=
  let x := { s.media.port n with ilim := bits value 7 4 }
  s.setPort n (if s.groupOn (n / 4) then x.clearPoc value else { x with late := x.late ||| (value &&& 0x300) })

/-- CAM_POC_EN_WRITE: PF0 writes CAM_POC[n]: EN closes or opens the switch, with the other fields of the register. While the group's
domain is off the write acts when it powers up; from Sprout up EN = 1 powers it (R55, R56, R392, R393, R396, R568, Table 9.2). -/
def execCamPocEnWrite (f n value : Nat) (s : State) : Res :=
  s.regWrite (f == 0) (fun s =>
    let en := bit value 0
    if s.groupOn (n / 4) then
      let s := (if en then s else s.openSwitch n 0).writePoc n value
      let x := s.media.port n
      s.setPort n (if !en then { x with en := false, link := 0 } else if x.en then x else x.close)
    else
      let s := s.writePoc n value
      let x := s.media.port n
      let s := s.setPort n { x with en := en, late := if en then x.late else x.late ||| 1 }
      if s.groupOn (n / 4) then s.groupUp (n / 4) else s)

/-- POC_OVERCURRENT: the current breaks its limit; the switch opens with a latched fault and the owner hears E_CAM_POWER (R393,
R394, R416). -/
def execPocOvercurrent (n : Nat) (s : State) : Res :=
  let x := s.media.port n
  if x.st = 1 ∨ x.st = 2 then
    let s := s.openSwitch n 3
    .next ((s.setPort n { s.media.port n with overcurrent := true }).event x.owner .eCamPower (toLE 4 n))
  else .next s

/-- POC_OPEN_DETECT: `current` mA is measured, and has flowed for 100 ms: CURRENT takes it, and below 10 mA OPEN is set (R392,
R756). Every measurement of CURRENT comes as this command (DESIGN CHOICE, log entry 173). -/
def execPocOpenDetect (n current : Nat) (s : State) : Res :=
  let x := s.media.port n
  if x.st = 2 then .next (s.setPort n { x with opened := x.opened || decide (current < 10), current := min current 1023 })
  else .next s

/-- The bytes of one register write on the tunnelled I2C: address, register, value (R446, Table 9.4 REG16). -/
def i2cWrite (prof : List Byte) (w : Nat) : List Byte :=
  toLE 1 (profAddr prof) ++ toLE 1 (bits w 15 8) ++ toLE 1 (bits w 7 0) ++
    (if profReg16 prof then toLE 1 (bits w 31 24) ++ toLE 1 (bits w 23 16) else toLE 1 (bits w 23 16))

/-- Send register writes up the uplink. -/
def State.uplinkWrites (s : State) (p : Nat) (prof : List Byte) (ws : List Nat) : State :=
  ws.foldl (fun s w => s.emit (.uplink p (i2cWrite prof w))) s

/-- The profile a port trains by, empty when its slot was never written (R389). -/
def State.portProfile (s : State) (p : Nat) : List Byte := (Tbl.find s.media.profiles (s.media.port p).slot).getD []

/-- DEFAULT_EXP is written as exposure identifier 0 of a context when its port is up, and otherwise once it comes up (R407, R456, Table
9.3). -/
def State.defaultExp (s : State) (c : Nat) : State :=
  match s.media.cam c with
  | some x =>
    if (s.media.port x.port).link = 3 then
      (s.setCam c { x with expDue := false }).uplinkWrites x.port x.profile ((List.range 4).map (profExp x.profile))
    else s.setCam c { x with expDue := true }
  | none => s

/-- The contexts of a port that wait for it to come up get their DEFAULT_EXP. -/
def State.dueExps (s : State) (p : Nat) : State :=
  (Tbl.keys s.media.ctxs).foldl (fun s c => match s.media.cam c with
    | some x => if x.port = p ∧ x.expDue = true ∧ x.suspended = false then s.defaultExp c else s
    | none => s) s

/-- PORT_BRING_UP: the switch has ramped and settled, and the link has failed to train `fails` times before it trained, or three
times; a first bring-up writes the init list, a retraining does not; then DEFAULT_EXP where a context waits for it (R389, R396 to R398, Table 9.3). A port without a stored profile
cannot train, and one that has failed only powers its switch. -/
def execPortBringUp (n fails : Nat) (s : State) : Res :=
  let x := s.media.port n
  let prof := s.portProfile n
  if !s.errs.halted && x.st == 1 && x.link == 4 then .next (s.setPort n { x with st := 2 })
  else if s.errs.halted || !(x.en && (x.st == 1 || x.st == 2) && decide (x.link < 2)) then .next s
  else if 3 ≤ fails ∨ prof = [] then
    .next ((s.setPort n { x with st := 2, attempts := 3, link := 4, gear := 0 }).event x.owner .eCamLink (toLE 4 n))
  else
    let s := s.setPort n { x with st := 2, attempts := fails, link := 3, gear := profGear prof, retrain := false }
    .next ((if x.retrain then s
      else s.uplinkWrites n prof ((List.range (profInit prof)).map (fun i => fld prof (0x1980 + 4 * i) 4))).dueExps n)

/-- APHY_LINK_LOSS: a trained link drops; any open frame closes and the port retrains (R398, R416, R756). -/
def execAphyLinkLoss (n : Nat) (s : State) : Res :=
  let x := s.media.port n
  if x.link = 2 ∨ x.link = 3 then
    let s := s.closePort n
    .next (s.setPort n { s.media.port n with
      link := 1, gear := 0, attempts := 0, retrains := satAdd x.retrains 1 0xFF, retrain := x.link == 3 })
  else .next s

/-- CAM_PORT_OWNER_WRITE: PF0 assigns a port; refused while a context that a function started runs on it (R391, R740). -/
def execCamPortOwnerWrite (f n value : Nat) (s : State) : Res :=
  s.regWrite (f == 0) (fun s =>
    let x := s.media.port n
    let fn := bits value 4 0
    if fn ≠ x.owner ∧ s.media.ctxs.any (fun e => !e.2.dflt && e.2.port == n) = true then s.setPort n { x with ownerRefused := true }
    else s.setPort n { x with owner := fn, ownerRefused := false })

/-! Port map and profiles (R395, R401). -/

/-- Entry n of a port map: ENABLE and the profile slot. -/
def mapEnable (m : List Byte) (n : Nat) : Bool := bit (fld m (4 * n) 4) 0
def mapSlot (m : List Byte) (n : Nat) : Nat := fldBits m (4 * n) 7 4

/-- CAM_PORT_MAP: PF0 stores a port map for the next start (R395). -/
def execCamPortMap (f tag : Nat) (raw : List Byte) (s : State) : Res :=
  let m := slice raw 0 64
  s.request f 0x61 tag false false .pf0 (raw.length == 64) (fun s =>
    if (List.range 16).all (fun n => fldBits m (4 * n) 3 1 == 0 && fldBits m (4 * n) 31 8 == 0 &&
        (!mapEnable m n || (Tbl.find s.media.profiles (mapSlot m n)).isSome)) then
      (s.setMedia { s.media with portMap := m }).reply f 0x61 tag .ok
    else s.reply f 0x61 tag .eCamConfig)

/-- A parameter block with every value in its field (Table 9.9). -/
def paramsOk (b : List Byte) : Bool :=
  (List.range 4).all (fun c => fldBits b (4 * c) 31 20 == 0) && fldBits b 0x10 31 20 == 0 && decide (fld b 0x1C 4 ≤ 256) &&
  fldBits b 0x20 31 20 == 0 && zeroBytes b 0x36 2 && (List.range 3).all (fun i => fldBits b (0x38 + 4 * i) 31 21 == 0) &&
  zeroBytes b 0x56 2 && (List.range 3).all (fun i => fldBits b (0x58 + 4 * i) 31 17 == 0) && zeroBytes b 0x64 28

/-- A size lies in 64 to 8,192 and is even (Table 9.1). -/
def sizeOk (n : Nat) : Bool := decide (64 ≤ n) && decide (n ≤ 8192) && n % 2 == 0

/-- The checks of R401 on a camera profile. -/
def profileOk (r : List Byte) : Bool :=
  sizeOk (profWidth r) && sizeOk (profHeight r) && fldBits r 0 15 14 == 0 && fldBits r 0 31 30 == 0 &&
  inRange (profType r) 0x2A 0x2F && inRange (profGear r) 1 5 && (bit (fld r 4 4) 11 || decide (profGear r ≤ 3)) &&
  inRange (profDelay r) 1 4 && decide (fldBits r 4 18 16 ≤ 4) && fldBits r 4 31 28 == 0 && decide (fldBits r 8 7 0 ≤ 100) &&
  fldBits r 8 15 12 == 0 && decide (profInit r ≤ 256) && fldBits r 0x14 31 20 == 0 && zeroBytes r 0x18 8 &&
  (List.range 48).all (fun i => fldBits r (0x20 + 4 * i) 31 20 == 0) && profX0 r 0 == 0 &&
  (List.range 15).all (fun i => decide (profX0 r i < profX0 r (i + 1))) && zeroBytes r 0xF0 16 && paramsOk (profParams r)

/-- CAM_PROFILE: PF0 writes piece `index` of 480 bytes of a profile slot; the last of the 18 pieces completes the 8 KiB, which is
checked and stored (R401, Table 17.5). -/
def execCamProfile (f tag slot index : Nat) (data : List Byte) (s : State) : Res :=
  let n := if index = 17 then 32 else 480
  s.request f 0x60 tag false false .pf0 (decide (slot < 16) && decide (index < 18) && data.length == n) (fun s =>
    let sofar := match s.media.staging with
      | some (k, bs) => if k = slot then bs else []
      | none => []
    let base := if index = 0 then [] else sofar
    if base.length ≠ 480 * index then (s.setMedia { s.media with staging := none }).reply f 0x60 tag .eCamConfig
    else
      let all := base ++ data
      if index < 17 then (s.setMedia { s.media with staging := some (slot, all) }).reply f 0x60 tag .ok
      else
        let s := s.setMedia { s.media with staging := none }
        if profileOk all then (s.setMedia { s.media with profiles := Tbl.put s.media.profiles slot all }).reply f 0x60 tag .ok
        else s.reply f 0x60 tag .eCamConfig)

/-! Frame sync (R402, R403, R741). -/

def Media.source (m : Media) (g : Nat) : FsyncSrc := Tbl.get FsyncSrc.reset m.fsync g
def State.setSource (s : State) (g : Nat) (x : FsyncSrc) : State :=
  s.setMedia { s.media with fsync := Tbl.set FsyncSrc.reset s.media.fsync g x }

/-- The period a written value acts as (Table 18.13). -/
def fsyncPeriod (v : Nat) : Nat := max 160000 (min 38400000 v)

/-- The generator drives a rising edge: a pulse of the written high time and a period of the written length begin (R403, R741). -/
def FsyncSrc.drive (x : FsyncSrc) (now : Nat) : FsyncSrc :=
  { x with period := fsyncPeriod x.reg, due := true, rise := some now, pulse := max 1 x.width }

/-- The land FSYNCg: what the generator drives at a tick of the crystal clock, nothing outside output mode (R741). -/
def FsyncSrc.level (x : FsyncSrc) (now : Nat) : Option Bool :=
  if x.mode = 1 then some (x.rise.any (fun t => decide ((now - t) * 5 < x.pulse * 192))) else none

/-- CAM_FSYNC_CTRL_WRITE: PF0 sets a source's mode and high time. A generator that enters output mode drives its first rising edge; one that
leaves it stops driving, a pulse cut short; the high time waits for the next edge; MODE 3 acts as 0 (R741). -/
def execCamFsyncCtrlWrite (f g value : Nat) (s : State) : Res :=
  s.regWrite (f == 0) (fun s =>
    let x := s.media.source g
    let mode := bits value 1 0
    let y := { x with mode := mode, width := bits value 15 8 }
    s.setSource g (if mode = 1 then (if x.mode = 1 then y else y.drive s.host.refTicks) else { y with due := false, rise := none }))

/-- CAM_FSYNC_PERIOD_WRITE: PF0 changes a generator's period, which takes effect at its next edge (R403). -/
def execCamFsyncPeriodWrite (f g value : Nat) (s : State) : Res :=
  s.regWrite (f == 0) (fun s => s.setSource g { s.media.source g with reg := value })

/-- FSYNC_GENERATOR_EDGE: a generator's period expires: it drives a rising edge and begins a period of the written length
(R403, R741). -/
def execFsyncGeneratorEdge (g : Nat) (s : State) : Res :=
  let x := s.media.source g
  if x.mode = 1 then .next (s.setSource g (x.drive s.host.refTicks)) else .next s

/-- FSYNC_EDGE: a source's rising edge goes up the uplink of every port with a context that forwards it (R402). -/
def execFsyncEdge (g : Nat) (s : State) : Res :=
  let x := s.media.source g
  if x.mode = 2 ∨ (x.mode = 1 ∧ x.due = true) then
    let ports := (s.media.ctxs.filter (fun e => !e.2.suspended && camFsync e.2.raw == some g && (s.media.port e.2.port).link == 3)).map
      (fun e => e.2.port)
    .next (ports.eraseDups.foldl (fun s p => s.emit (.fsync p)) (s.setSource g { x with due := false }))
  else .next s

/-! Contexts (R400, R404 to R407, R436, R456). -/

/-- The ranges that hold of every output descriptor, statistics and disabled ones included, and the rule that a crop stays within the
frame (Table 9.6, R405). A disabled output may hold SPACE 0, no slots and any FORMAT and VTYPE (DESIGN CHOICE, log entry 194). -/
def outFields (d : OutDesc) (o w h : Nat) : Bool :=
  d.base % 4096 == 0 && decide (d.space ≤ 2) && decide (d.downX ≤ 2) && decide (d.downY ≤ 2) && d.slotBytes % 4096 == 0 &&
  d.cropX % 2 == 0 && d.cropY % 2 == 0 && decide (d.cropX + d.cropW ≤ w) && decide (d.cropY + d.cropH ≤ h) &&
  d.cropW % 2 ^ d.downX == 0 && d.cropH % 2 ^ d.downY == 0 && d.pitch % 64 == 0 && (o != 2 || d.mirrorBase % 4096 == 0)

/-- The further rules of an enabled output that concern its descriptor alone (Table 9.6, R405, R430). -/
def outOk (d : OutDesc) (o : Nat) : Bool :=
  let x := 2 ^ d.downX
  let y := 2 ^ d.downY
  (d.space == 1 || (d.space == 2 && o != 2)) && inRange d.slots 1 15 &&
  (o == 3 && decide (8192 ≤ d.slotBytes) ||
    (o != 3 &&
      ((o == 0 && decide (d.format ≤ 2)) || (o == 1 && inRange d.format 3 4) || (o == 2 && inRange d.format 5 6)) &&
      (o != 2 || [0x01, 0x02, 0x08, 0x11].contains d.vtype) && decide (0 < d.cropW) && decide (0 < d.cropH) &&
      d.cropW % (if inRange d.format 2 4 then 2 * x else x) == 0 && d.cropH % (if inRange d.format 3 4 then 2 * y else y) == 0 &&
      decide (4096 + d.dataBytes ≤ d.slotBytes)))

/-- Reserved bits of an output descriptor, and the mirror fields of outputs that have no mirror (Table 9.6). -/
def outReserved (raw : List Byte) (o : Nat) : Bool :=
  fldBits raw (0x28 + 48 * o) 31 22 == 0 && fldBits raw (0x48 + 48 * o) 31 7 == 0 && (o == 2 || !bit (fld raw (0x48 + 48 * o) 4) 6)

/-- The cases of R405 with MIRROR_EN = 1: another partition of the sender, the mirror ring within its grant, its sync objects (R426). -/
def State.mirrorOk (s : State) (f p : Nat) (d : OutDesc) : Bool :=
  d.mirrorPart != p &&
  (match s.part d.mirrorPart with
    | some y => y.fn == f && !y.clearing && y.ownsStacked d.mirrorBase (d.slots * d.slotBytes)
    | none => false) &&
  s.ownsSync d.mirrorPart (s.gen d.mirrorPart) d.mirrorFrame && s.ownsSync d.mirrorPart (s.gen d.mirrorPart) d.mirrorRelease

/-- The checks of R405 on a record from a function. -/
def State.camOk (s : State) (f : Nat) (r prof : List Byte) : Bool :=
  let port := fldBits r 0 3 0
  let vc := fldBits r 0 5 4
  let p := fldBits r 4 5 0
  let w := profWidth prof
  let h := profHeight prof
  let gear := [0, 2, 4, 8, 12, 16].getD (profGear prof) 0
  fldBits r 0 7 6 == 0 && fldBits r 0 31 27 == 0 && fldBits r 4 7 6 == 0 && fldBits r 4 15 12 == 0 && fldBits r 0x14 31 12 == 0 &&
  fldBits r 0xF8 15 8 == 0 && fldBits r 0xFC 31 20 == 0 &&
  decide (1 ≤ camRows8 r) && inRange (camRawSlots r) 2 15 && inRange (camRate r) 100 24000 &&
  camRawBase r % 4096 == 0 && camTnr r % 4096 == 0 &&
  inRange (camZoneCount r) 1 192 && inRange (camMotionFrames r) 1 15 &&
  !s.media.ctxs.any (fun e => !e.2.dflt && e.2.port == port && e.2.vc == vc) &&
  decide (w * h * rawBits (profType prof) * camRate r ≤ gear * 1000000000 * 85) && decide (rawFrame prof ≤ camSlotBytes r) &&
  (match s.part p with
    | some x =>
      let g := s.gen p
      x.fn == f && !x.clearing && x.ownsStacked (camRawBase r) (camRawSlots r * camSlotBytes r) &&
      (camTnr r == 0 || x.ownsStacked (camTnr r) (w * h * 8)) &&
      (List.range 4).all (fun o =>
        let d := outDesc r o
        outReserved r o && outFields d o w h && (!d.mirror || s.mirrorOk f p d) && (!d.enable ||
          (outOk d o && (d.space == 2 || x.ownsStacked d.base (d.slots * d.slotBytes)) && s.ownsSync p g d.frameSync &&
            s.ownsSync p g d.releaseSync)))
    | none => false)

/-- A context at its start (R407). -/
def camNew (raw prof : List Byte) (f p gen mgen : Nat) (dflt : Bool) : CamCtx :=
  { raw := raw, fn := f, part := p, gen := gen, mirrorGen := mgen, dflt := dflt, port := fldBits raw 0 3 0, vc := fldBits raw 0 5 4,
    pipe := fldBits raw 0 13 12, profile := prof, stopAsked := false, suspended := false, watch := none, expDue := false, started := 0,
    isOpen := false, dropping := false, frames := [], bank := profParams prof, seq := 0, pend := none, lastSeq := 0, reqs := [],
    lastExp := 0, prev := none, prevRows := 0, prevFilled := [], written := [], recorded := [], refs := [], moving := 0,
    lastStats := [] }

/-- The sync objects a context's outputs start with at 0 (R407). -/
def camSyncs (raw : List Byte) : List Nat :=
  (List.range 4).flatMap (fun o =>
    let d := outDesc raw o
    if d.enable then [d.frameSync, d.releaseSync] ++ (if o == 2 && d.mirror then [d.mirrorFrame, d.mirrorRelease] else []) else [])

/-- CAM_CTX_START: a function starts a camera context; the reply carries its number, the lowest free one (R391, R400, R404 to R407,
R436, R742). -/
def execCamCtxStart (f tag : Nat) (raw : List Byte) (s : State) : Res :=
  let r := slice raw 0 256
  s.request f 0x62 tag false false (.owner ((s.media.port (fldBits r 0 3 0)).owner == f)) (raw.length == 256) (fun s =>
    let port := fldBits r 0 3 0
    let pipe := fldBits r 0 13 12
    let p := fldBits r 4 5 0
    match (List.range 16).find? (fun c => (s.media.cam c).isNone), Tbl.find s.media.profiles (fldBits r 0 11 8) with
    | some c, some prof =>
      if !s.camOk f r prof then s.reply f 0x62 tag .eCamConfig
      else
        let x := camNew r prof f p (s.gen p) (s.gen (outDesc r 2).mirrorPart) false
        let m := s.media.setCam c x
        let l := m.pipeLoad pipe
        if 144000000000 * l.2 < l.1 then s.reply f 0x62 tag .eIspOverload
        else
          let dark := !s.groupOn (port / 4)
          let s := (camSyncs r).foldl State.zeroSync (s.setMedia m)
          let s := s.setPort port { s.media.port port with slot := fldBits r 0 11 8 }
          let s := (if dark && s.groupOn (port / 4) then s.groupUp (port / 4) else s).defaultExp c
          let s := s.setMedia (s.media.unshow pipe c)
          let s := match s.media.cam (16 + port) with
            | some d => (s.setCam (16 + port) { d with stopAsked := true }).camSettle (16 + port)
            | none => s
          (s.writeLoad pipe).reply f 0x62 tag .ok (toLE 4 c)
    | _, _ => s.reply f 0x62 tag .eCamConfig)

/-- CAM_CTX_STOP: a function stops a context at the next frame boundary (R404, R742). -/
def execCamCtxStop (f tag c : Nat) (s : State) : Res :=
  let own := decide (c < 16) && (match s.media.cam c with
    | some x => x.fn == f
    | none => false)
  s.request f 0x63 tag false false (.owner own) true (fun s =>
    match s.media.cam c with
    | some x => (((s.setCam c { x with stopAsked := true }).camSettle c).writeLoad x.pipe).reply f 0x63 tag .ok
    | none => s.reply f 0x63 tag .eCamConfig)

/-- CAM_DEFAULT_STATS: PF0 reads piece `index` of 480 bytes of the latest statistics record of a port's default context; empty when
there is none (R400, R616). -/
def execCamDefaultStats (f tag port index : Nat) (s : State) : Res :=
  s.request f 0x64 tag true false .pf0 (decide (port < 16)) (fun s =>
    let r := match s.media.cam (16 + port) with
      | some x => x.lastStats
      | none => []
    s.reply f 0x64 tag .ok ((r.drop (480 * index)).take 480))

/-- Start the default context of an enabled port, in inline mode on pipe p mod 4 (R400). -/
def State.startDefault (s : State) (p : Nat) (prof : List Byte) : State :=
  let raw := toLE 4 (p + p % 4 * 2 ^ 12) ++ List.replicate 252 0
  (s.setCam (16 + p) (camNew raw prof 0 0 0 0 true)).defaultExp (16 + p)

/-! Changes of state (R394, R455, R456). -/

/-- The open frame of a context goes on inline on the watch pipe; its lines received so far lie in stacked memory, which sleeps, and
count as lines that the pipe has not read (R437, R455; DESIGN CHOICE, log entry 194). -/
def CamFrame.toWatch (p : Nat) (f : CamFrame) : CamFrame :=
  if f.watch.isSome then f
  else { f with
    watch := some p, filled := (List.range f.rows).map (fun y => (y, 0)) ++ f.filled, lost := f.lost || f.rows != 0, goes := [],
    tnrOff := true }

/-- Entry to Seed or Dormant: contexts of the watch go on inline on the watch pipe, the others stop and report CTX_SUSPENDED and lose what
their pipe holds of them, motion references and statistics included; the switches of groups that turn off open, but a latched fault
stays latched (R54, R393, R394, R455, R456). A context of the watch keeps its motion references (DEDUCED, log entry 174). -/
def State.camSuspend (s : State) (watch : Option (Nat × Nat)) : State :=
  let s := s.setMedia (s.media.showPipes watch)
  let s := (Tbl.keys s.media.ctxs).foldl (fun s c => match s.media.cam c with
    | some x =>
      if x.suspended then s
      else if x.keeps watch then
        let frames := if x.isOpen && !x.dropping then x.frames.getLast?.toList.map (CamFrame.toWatch ((watch.map (·.2)).getD 0)) else []
        s.setCam c { x with watch := watch.map (·.2), frames := frames, prev := none }
      else
        let s := s.setCam c { x with
          suspended := true, frames := [], isOpen := false, dropping := false, prev := none, watch := none,
          refs := [], moving := 0, lastStats := [] }
        if x.dflt then s else s.event x.fn .ctxSuspended (toLE 4 c)
    | none => s) s
  let s := (List.range 4).foldl (fun (s : State) p => s.setMedia (s.media.setPipe p { s.media.pipe p with run := none, held := none })) s
  (List.range 16).foldl (fun s p => if watch.map (·.1) = some (p / 4) ∨ (s.media.port p).st = 3 then s else s.openSwitch p 0) s

/-- The domains power up again: suspended contexts resume, the groups they or an enabled port need power up, and the switches close while
EN = 1 (R55, R56, R394, R396, R456). -/
def State.camResume (s : State) : State :=
  let back := (Tbl.keys s.media.ctxs).filter (fun c => (s.media.cam c).any (·.suspended))
  let s := back.foldl (fun (s : State) c => match s.media.cam c with
    | some x => s.setCam c { x with
        suspended := false, reqs := [], bank := profParams x.profile, seq := 0, pend := none, prev := none }
    | none => s) s
  let s := (List.range 4).foldl (fun (s : State) g => if s.groupOn g then s.groupUp g else s) s
  let s := s.setMedia { s.media with shown := s.media.shown.filter (fun e =>
    if e.1 < 16 then !s.pipeOn e.1 else (s.media.cam (e.1 - 16)).isNone) }
  back.foldl State.defaultExp s

/-! Commands (R445 to R454). -/

def camOp (r : List Byte) : Nat := fldBits r 0 3 0
def camCount (r : List Byte) : Nat := fldBits r 0 23 16

/-- Every field of a command lies in its range and no reserved bit is set (R25, R445, Table 9.15). -/
def camCmdOk (r : List Byte) : Bool :=
  let n := camCount r
  fldBits r 0 7 6 == 0 && fldBits r 0 15 12 == 0 && fldBits r 0 31 24 == 0 && fldBits r 4 31 16 == 0 && zeroBytes r 0xC 4 &&
  match camOp r with
  | 1 => inRange n 1 4
  | 2 => inRange n 1 64 && inRange (fldBits r 0 5 4) 1 2
  | 3 => inRange n 1 4
  | 4 => inRange (fldBits r 0 5 4) 1 2
  | _ => false

/-- CAMERA: a started camera descriptor is checked and put into its port's queue of 16 (R391, R445, R458). -/
def execCamera (n idx : Nat) (s : State) : Res :=
  match s.runningDesc n idx 3 with
  | none => .next s
  | some d =>
    let r := slice d.raw 0x20 32
    if s.media.ports.any (fun e => e.2.queue.any (fun q => q.ctx == n && q.idx == idx)) then .next s
    else
      match s.media.cam (fldBits r 0 11 8) with
      | some x =>
        let q := (s.media.port x.port).queue
        if !camCmdOk r || x.fn != s.ctxFn n then .next (s.endDesc n idx .eCamConfig)
        else if 16 ≤ q.length then .next (s.endDesc n idx .eCamCmdFull)
        else .next (s.setPort x.port { s.media.port x.port with
          queue := q ++ [{ ctx := n, idx := idx, part := (s.ctx n).part, raw := r }] })
      | none => .next (s.endDesc n idx .eCamConfig)

/-- A slice that does not serve for now holds the access of a command to its buffer (R303, R701). -/
def State.camCmdHeld (s : State) (q : CamCmd) : Bool :=
  fldBits q.raw 0 5 4 == 1 &&
    ((camOp q.raw == 2 && s.memHeld (fld q.raw 0x10 8) (camCount q.raw)) || (camOp q.raw == 4 && s.memHeld (fld q.raw 0x10 8) 6272))

/-- Take the command of an OP from the head of a port's queue and run it over its camera context; a command whose context is gone,
or has started anew for another function or on another port (log entry 207), ends with E_CAM_CONFIG (R445). -/
def State.camRun (s : State) (p op : Nat) (k : CamCmd → Nat → CamCtx → State → State) : Res :=
  let x := s.media.port p
  match x.queue with
  | [] => .next s
  | q :: rest =>
    if s.errs.halted || camOp q.raw != op || s.camCmdHeld q then .next s
    else
      let s := s.setPort p { x with queue := rest }
      let c := fldBits q.raw 0 11 8
      match s.media.cam c with
      | some cam =>
        if cam.fn ≠ s.ctxFn q.ctx ∨ cam.port ≠ p then .next (s.endDesc q.ctx q.idx .eCamConfig) else .next (k q c cam s)
      | none => .next (s.endDesc q.ctx q.idx .eCamConfig)

/-- The write slots of a command. -/
def camWrites (r : List Byte) : List Nat := (List.range (camCount r)).map (fun i => fld r (0x10 + 4 * i) 4)

/-- Send the writes of a command of which `acked` are acknowledged: nothing follows the first that is not, and a port without a link
answers nothing (R446, R447). The second part says that all were. -/
def State.sendWrites (s : State) (p : Nat) (prof : List Byte) (ws : List Nat) (acked : Nat) : State × Bool :=
  let n := if (s.media.port p).link = 3 then acked else 0
  (s.uplinkWrites p prof (ws.take (n + 1)), decide (ws.length ≤ n))

/-- SENSOR_WRITE: the command at the head of a port's queue writes sensor registers (R446, R447). -/
def execSensorWrite (p acked : Nat) (s : State) : Res :=
  s.camRun p 1 (fun q _ x s =>
    let r := s.sendWrites p x.profile (camWrites q.raw) acked
    r.1.endDesc q.ctx q.idx (if r.2 then .ok else .eSensorNack))

/-- Write bytes of a command to PTR, under the partition of its ring (R205, R206, R667). -/
def State.camStore (s : State) (q : CamCmd) (bs : List Byte) : State × Status :=
  let a := fld q.raw 0x10 8
  let p := q.part
  match s.part p with
  | none => (s, .eStoreRange)
  | some x =>
    if fldBits q.raw 0 5 4 = 1 then
      match s.stackedErr x p (s.gen p) a bs.length with
      | some e => (s, e)
      | none => ((s.accountStacked (some q.ctx) p 2 true a bs.length).writeMem a bs, .ok)
    else
      match s.egressErr p a bs.length with
      | some e => (s, e)
      | none => (s.egress (some q.ctx) x.fn p a bs.length [{ off := 0, data := bs, poison := false }] false, .ok)

/-- SENSOR_READ: the command at the head of a port's queue reads sensor registers into its buffer; `answer` is what the sensor sends,
refused when a byte is not acknowledged (R446, R447). -/
def execSensorRead (p : Nat) (answer : HostRead) (s : State) : Res :=
  s.camRun p 2 (fun q _ x s =>
    let n := camCount q.raw
    let reg := fld q.raw 4 2
    let s := s.emit (.uplink p (toLE 1 (profAddr x.profile) ++ toLE 1 (bits reg 15 8) ++ toLE 1 (bits reg 7 0)))
    match answer with
    | .refused => s.endDesc q.ctx q.idx .eSensorNack
    | .data bs =>
      if (s.media.port p).link ≠ 3 ∨ bs.length < n then s.endDesc q.ctx q.idx .eSensorNack
      else
        let r := s.camStore q (bs.take n)
        (r.1.setDesc q.ctx q.idx (fun d => { d with detail0 := if r.2 == .ok then n else 0 })).endDesc q.ctx q.idx r.2)

/-- EXPOSURE: the command at the head of a port's queue writes exposure registers; when all are acknowledged the request gets the next
identifier and the target frame n_w + PIPE_DELAY (R446 to R449). -/
def execExposure (p acked : Nat) (s : State) : Res :=
  s.camRun p 3 (fun q c x s =>
    let ws := camWrites q.raw
    let r := s.sendWrites p x.profile ws acked
    if !r.2 then r.1.endDesc q.ctx q.idx .eSensorNack
    else
      let id := x.lastExp % 65535 + 1
      let t := x.started + profDelay x.profile - 1
      let s := r.1.setCam c { x with lastExp := id, reqs := { id := id, target := t, writes := ws } :: x.reqs }
      (s.setDesc q.ctx q.idx (fun d => { d with detail0 := id, detail1 := t % 2 ^ 32 })).endDesc q.ctx q.idx .ok)

/-- ISP_PARAMS: the command at the head of a port's queue loads a parameter block into its context's pending bank, replacing one that
waits there (R453, R454). -/
def execIspParams (p : Nat) (host : HostRead) (s : State) : Res :=
  s.camRun p 4 (fun q c x s =>
    let a := fld q.raw 0x10 8
    let load := fun (bs : List Byte) (s : State) =>
      let n := x.lastSeq % 65535 + 1
      let s := s.setCam c { x with lastSeq := n, pend := some (bs, n, fld q.raw 8 4) }
      (s.setDesc q.ctx q.idx (fun d => { d with detail0 := n })).endDesc q.ctx q.idx .ok
    if fldBits q.raw 0 5 4 = 1 then
      match s.part q.part with
      | none => s.endDesc q.ctx q.idx .eStoreRange
      | some part =>
        match s.stackedErr part q.part (s.gen q.part) a 6272 with
        | some e => s.endDesc q.ctx q.idx e
        | none =>
          if s.poisoned a 6272 then s.endDesc q.ctx q.idx .eMemPoison
          else load (s.readMem a 6272) (s.accountStacked (some q.ctx) q.part 2 false a 6272)
    else
      match s.part q.part with
      | none => s.endDesc q.ctx q.idx .eIovaFault
      | some part =>
        let s := s.hostRead part.fn a 6272 3
        match host with
        | .refused => s.endDesc q.ctx q.idx .eIovaFault
        | .data bs => load (slice bs 0 6272) (s.account (some q.ctx) q.part 3 6272))

end Sys2Proof.Machine
end

