-- ==== Sys2Proof/Machine/CoreEvents.lean ====
section
/-!
DEFINITION. Link parity failures and core reset (R91 to R99, R128, Tables 2.6, 2.7 and 16.6).
-/
namespace Sys2Proof.Machine

/-- 24 hours of powered time in periods of the reference counter (Table 16.6). -/
def dayTicks : Nat := 24 * 3600 * 38400000

/-- An engine has failed at `now` and four times in all within 24 hours (Table 16.6). -/
def Core.failsOften (c : Core) (e now : Nat) : Bool :=
  decide (4 ≤ ((Tbl.get [] c.recent e).filter (fun t => decide (now ≤ t + dayTicks))).length)

/-- A parity failure on a link of an engine is counted, with the time of the engine's last four (Table 2.6, Table 16.6). -/
def Core.countParity (c : Core) (e link now : Nat) : Core :=
  { c with
    parity := Tbl.set 0 c.parity (16 * e + link) (Tbl.get 0 c.parity (16 * e + link) + 1)
    recent := Tbl.set [] c.recent e ((now :: Tbl.get [] c.recent e).take 4) }

/-- The log ring's entry of an event of a core, at a level (Table 2.6 step 5, R720; the level is the firmware's, log entry 183). -/
def State.logCore (s : State) (n level : Nat) (code : Status) : State :=
  let p := (s.coreOwner n).getD 0
  s.logWrite level (coreIsland n) (if (s.coreOwner n).isSome then s.partFn p else 0) p code

/-- LINK_PARITY_FAILURE: a receiver finds a parity failure on link `link` (0–3 A rows, 4–7 B columns, 8–11 drains) of
a logical engine, discards the entry and places the engine in freeze mode; when the resent entry fails again the tile
aborts (R93, R94, Table 2.6). The failure is counted, logged, a core reset is scheduled, and a condition of R361 fails. A failure that
arose with one which has just aborted the tile is counted too (R95). -/
def execLinkParityFailure (n engine link : Nat) (resendFails : Bool) (s : State) : Res :=
  if s.errs.halted then .next s else
  let c := s.core n
  if c.tile = none ∧ c.run ≠ .stopped .eLinkParity then .next s
  else
    let c := { c.countParity engine link s.host.refTicks with freeze := Tbl.set false c.freeze engine true, resetDue := true }
    let swap := resendFails || c.failsOften engine s.host.refTicks
    let c := if swap && !c.swapDue.contains engine then { c with swapDue := c.swapDue ++ [engine] } else c
    let s := s.setCore n c
    let s := match c.work with
      | some w => s.wcetVoid 0 w.part
      | none => s
    if resendFails then
      let s := if c.tile.isSome then s.abortTile n .eLinkParity else s
      .next ((s.contained .eLinkParity (coreIsland n) (n + 256 * engine)).logCore n 0 .eLinkParity)
    else .next ((s.corrected .eLinkParity (coreIsland n) (n + 256 * engine)).logCore n 1 .eLinkParity)

/-- The physical engine that bears a logical number: the spare of its last record, or its own position; spare S j is
position 64 + j. The records before the core's own replacement name engines of the core it replaced. -/
def State.enginePos (s : State) (n engine : Nat) : Nat :=
  match s.errs.spares.reverse.find? (fun r => (r.kind == 0 && r.logical == n + 256 * engine) || (r.kind == 1 && r.logical == n)) with
  | some r => if r.kind = 0 then r.spare else engine
  | none => engine

/-- Apply one pending engine swap of a core, for a failed self-test or for link parity: the next spare of S0–S3 takes the logical number,
no failure of its own behind it, and the swap is recorded; without a spare left SPARE_EXHAUSTED is raised and the core needs migration (R128, R703). -/
def State.swapEngine (n : Nat) (s : State) (engine : Nat) : State :=
  let used := Tbl.get 0 s.errs.enginesUsed n
  if used < 4 then
    let c := s.core n
    let s := s.setCore n { c with recent := Tbl.del c.recent engine, failed := c.failed.filter (· != engine) }
    let s := s.spareRecord 0 (if c.failed.contains engine then 4 else 1) (n + 256 * engine) (s.enginePos n engine) (64 + used) (coreIsland n)
    { s with errs := { s.errs with enginesUsed := Tbl.set 0 s.errs.enginesUsed n (used + 1) } }
  else
    let owner := (s.coreOwner n).map s.partFn
    let s := { s with errs := { s.errs with coreDue := Tbl.put s.errs.coreDue n 7 } }
    s.spareExhausted owner.toList (coreIsland n)

/-- What a core reset leaves of a core: its compatibility setting, and the controller's counts for it (R99, Table 2.7). -/
def Core.cleared (c : Core) : Core :=
  { Core.reset with compat := c.compat, parity := c.parity, recent := c.recent, failed := c.failed, allow := c.allow, lastTile := c.lastTile }

/-- Steps 3 and 4 of Table 2.7: the core is cleared and its pending engine swaps are applied. -/
def State.resetCore (s : State) (n : Nat) : State :=
  let c := s.core n
  c.swapDue.foldl (State.swapEngine n) (s.setCore n c.cleared)

/-- The core holds no descriptor's live state: it is between descriptors or has yielded (R98, R698). A core whose program has ended works
for its descriptor until that ends or the core yields (R343, R353). -/
def Core.quiet (c : Core) : Bool := c.work.isNone && (c.run == .idle || c.run == .yielded)

/-- CORE_RESET: the cluster controller resets a core at a tile boundary (R98, R99, Table 2.7): the sequencer, vector
registers, accumulators and freeze mode are cleared, pending engine swaps applied; the core store and the
compatibility setting stay. The reset waits while a Minuet request is open in the core (R98, R355). -/
def execCoreReset (n : Nat) (s : State) : Res :=
  if s.errs.halted then .next s else
  let c := s.core n
  if c.quiet && c.tile.isNone && !c.minuetReq then
    let s := s.resetCore n
    .next (s.setCore n { s.core n with run := c.run, work := c.work, resume := c.resume })
  else .next s

end Sys2Proof.Machine
end

