-- ==== Sys2Proof/Machine/Engine.lean ====
section
/-!
DEFINITION. The engines' instructions MMA, DRAIN and REQUANT (R62 to R65, R80 to R82, R134 to R158, R173, R777,
R778, R789).
-/
namespace Sys2Proof.Machine

/-- Geometry of the shapes of Table 2.3: M, N, K, engines. -/
def shapeDims (shape : Nat) : Option (Nat × Nat × Nat × Nat) :=
  match shape with
  | 0 => some (4, 4, 4, 1)
  | 1 => some (16, 16, 16, 16)
  | 2 => some (8, 8, 32, 16)
  | 3 => some (32, 32, 8, 64)
  | 4 => some (4, 4, 64, 16)
  | 5 => some (64, 4, 4, 16)
  | 6 => some (32, 32, 32, 64)
  | _ => none

/-- The first engine an instance uses, or none where R789 stops issue: `engine` is the full engine number a shape 0
instruction names, `lo` the field that must be 0 for every other shape. -/
def firstEngine (shape group engine lo : Nat) (g0 : Bool) : Option Nat :=
  if shape = 0 then (if g0 && group != 0 then none else some engine)
  else if lo ≠ 0 then none
  else if shape = 3 ∨ shape = 6 then (if group = 0 then some 0 else none)
  else some (16 * group)

/-- The engine that holds C block b of an instance (R778). -/
def blockEngine (shape e0 b : Nat) : Nat :=
  if shape = 2 then e0 + 4 * b else if shape = 4 then e0 + 15 else e0 + b

/-- The accumulator key of element (m, n) of an instance (R778). -/
def cKey (shape e0 slot dimN m n : Nat) : Nat :=
  accKey (blockEngine shape e0 ((m / 4) * (dimN / 4) + n / 4)) slot ((m % 4) * 4 + n % 4)

/-- The engines whose slot an instance's C blocks lie in. -/
def cEngines (shape e0 dimM dimN : Nat) : List Nat :=
  (List.range ((dimM / 4) * (dimN / 4))).map (blockEngine shape e0)

/-- Rows of Table 3.2: some true for an integer accumulator, some false for FP32, none for a pair outside it.
Code weights stand only on the B side (R134). -/
def pairKind (a b : Nat) : Option Bool :=
  let fp8 := fun t : Nat => t == 8 || t == 9
  let h16 := fun t : Nat => t == 0x10 || t == 0x11
  if isIntType a && isIntType b then some true
  else if fp8 a && fp8 b then some false
  else if isMxType a && isMxType b then some false
  else if (h16 a || a == 0x12) && a == b then some false
  else if (fp8 a || h16 a) && isCodeType b then some false
  else none

/-- K elements per step: 8 when both operands are INT4 or both MXFP4, else 4 (Table 3.2, R63). -/
def kPerStep (a b : Nat) : Nat := if (a == 3 && b == 3) || (a == 0x0E && b == 0x0E) then 8 else 4

/-- The two operands of an instance and its place in them. -/
structure MmaArgs where
  shape : Nat
  e0 : Nat
  slot : Nat
  zero : Bool
  trans : Bool
  ta : TDesc
  tb : TDesc
  m0 : Nat
  n0 : Nat
  k0 : Nat
  dimM : Nat
  dimN : Nat
  /-- K covered by the instance, twice the named K in INT4 and MXFP4 (R82) -/
  dimK : Nat
  kp : Nat
  base : Nat
  deriving DecidableEq, Repr

/-- Outer and inner index of B element (k, n): axes swapped with a transposed-B flag (R103). -/
def MmaArgs.bIdx (x : MmaArgs) (k n : Nat) : Nat × Nat := if x.trans then (k, n) else (n, k)

/-- The product term of one MAC position and one k, in a floating pair (R142, R148, R162). Each product takes the scales of its
own block of 32, in a step that straddles two blocks as well (DEDUCED, log entry 152). -/
def MmaArgs.fpTerm (s : State) (x : MmaArgs) (m n k : Nat) : Num :=
  let a := fpElem x.ta.type x.ta.subtype (x.ta.elem s (x.base + x.ta.base) m k)
  let (o, i) := x.bIdx k n
  let rawB := x.tb.elem s (x.base + x.tb.base) o i
  if isCodeType x.tb.type then a.mul (x.tb.centroid s (x.base + x.tb.base) o i rawB)
  else
    let p := a.mul (fpElem x.tb.type x.tb.subtype rawB)
    if isMxType x.ta.type then
      let xa := x.ta.scale s (x.base + x.ta.base) m (k / 32)
      let xb := x.tb.scale s (x.base + x.tb.base) o (i / 32)
      if xa = 255 ∨ xb = 255 then .nan else p.scale ((xa : Int) + (xb : Int) - 254)
    else p

/-- The exact product of one MAC position and one k, in an integer pair (R137). With ZP_MODE 2 the zero point is that of the
output column n (R136, R178), of a transposed B operand as well (DEDUCED, log entry 151). -/
def MmaArgs.intTerm (s : State) (x : MmaArgs) (m n k : Nat) : Int :=
  let aAt := x.base + x.ta.base
  let bAt := x.base + x.tb.base
  let a := intElem x.ta.type (x.ta.elem s aAt m k) - x.ta.zpOf s aAt m
  let (o, i) := x.bIdx k n
  let b := intElem x.tb.type (x.tb.elem s bAt o i) - x.tb.zpOf s bAt n
  a * b

/-- The k indices of step t of an instance. -/
def MmaArgs.stepKs (x : MmaArgs) (t : Nat) : List Nat := rangeFrom (x.k0 + t * x.kp) x.kp

def MmaArgs.steps (x : MmaArgs) : Nat := x.dimK / x.kp

/-- The exact sum of one integer step (R138). -/
def MmaArgs.intStep (s : State) (x : MmaArgs) (m n t : Nat) : Int :=
  (x.stepKs t).foldl (fun acc k => acc + x.intTerm s (x.m0 + m) (x.n0 + n) k) 0

/-- One rounded step: the entering value plus every product of the step (R142). -/
def MmaArgs.fpStep (s : State) (x : MmaArgs) (m n t : Nat) (v : Word) : Word :=
  toF32 (sumNum (ofF32 v :: (x.stepKs t).map (fun k => x.fpTerm s (x.m0 + m) (x.n0 + n) k)))

/-- Steps t to t + j − 1 in ascending K, rounding after each. -/
def MmaArgs.fpSteps (s : State) (x : MmaArgs) (m n : Nat) (t j : Nat) (v : Word) : Word :=
  (rangeFrom t j).foldl (fun v t => x.fpStep s m n t v) v

/-- A C position of an integer instance: new slot value and whether an addition clamped. 8×8×32 and 4×4×64 add one
exact total into the slot (R138), the other shapes one sum per step (Table 3.3). -/
def MmaArgs.intCell (s : State) (x : MmaArgs) (m n : Nat) (old : Int) : Int × Bool :=
  let sums := (List.range x.steps).map (x.intStep s m n)
  if x.shape = 2 ∨ x.shape = 4 then sat32 (old + sums.foldl (· + ·) 0)
  else sums.foldl (fun (acc : Int × Bool) p => ((sat32 (acc.1 + p)).1, acc.2 || (sat32 (acc.1 + p)).2)) (old, false)

/-- A C position of a floating instance (R142 to R145), with whether the slot became non-finite on the way. -/
def MmaArgs.fpCell (s : State) (x : MmaArgs) (m n : Nat) (old : Word) : Word × Bool :=
  let v :=
    if x.shape = 2 then
      let q := x.steps / 4
      let p := fun e => x.fpSteps s m n (e * q) q 0
      f32Add old (f32Add (f32Add (p 0) (p 1)) (f32Add (p 2) (p 3)))
    else if x.shape = 4 then f32Add old (x.fpSteps s m n 0 x.steps 0)
    else x.fpSteps s m n 0 x.steps old
  (v, f32Nonfinite v)

/-- The positions of an instance's C block. -/
def cellsOf (dimM dimN : Nat) : List (Nat × Nat) :=
  (List.range dimM).flatMap (fun m => (List.range dimN).map (fun n => (m, n)))

/-- Every accumulator write of an instance: key, value, clamped, non-finite. A slot last written with the other accumulator
type enters with its 32 bits as they stand (DESIGN CHOICE, log entry 153). -/
def MmaArgs.results (s : State) (c : Core) (isInt : Bool) (x : MmaArgs) : List (Nat × Word × Bool × Bool) :=
  (cellsOf x.dimM x.dimN).map (fun (m, n) =>
    let key := cKey x.shape x.e0 x.slot x.dimN m n
    if isInt then
      let r := x.intCell s m n (if x.zero then 0 else sext 32 (c.accWord key).toNat)
      (key, BitVec.ofInt 32 r.1, r.2, false)
    else
      let r := x.fpCell s m n (if x.zero then 0 else c.accWord key)
      (key, r.1, false, r.2))

/-- Store the results of an instance and mark its slots with the accumulator type (R64, R154). -/
def Core.putResults (c : Core) (isInt : Bool) (slot : Nat) (engines : List Nat)
    (rs : List (Nat × Word × Bool × Bool)) : Core :=
  let c := { c with acc := rs.foldl (fun (t : Tbl Word) (r : Nat × Word × Bool × Bool) => Tbl.put t r.1 r.2.1) c.acc,
                    accFp := engines.foldl (fun (t : Tbl Bool) e => Tbl.set false t (e * 16 + slot) (!isInt)) c.accFp }
  c.addFlags (rs.any (fun r => r.2.2.1)) (rs.any (fun r => r.2.2.2))

/-- The bytes of the zero points of outputs o0 to o0 + no − 1 of a tile with one per output column (R178). -/
def TDesc.zpRanges (d : TDesc) (o0 no : Nat) : List (Nat × Nat) :=
  if d.zpMode = 2 then [(d.base + d.aux + o0 * d.info.bits / 8, cdiv (no * d.info.bits) 8)] else []

/-- The byte ranges of one operand that an instance reads: blocks, tags, scale records, codebooks and zero points. -/
def operandRanges (d : TDesc) (o0 no i0 ni : Nat) : List (Nat × Nat) :=
  let os := (List.range (no / 4)).map (fun b => o0 + 4 * b)
  let blocks := os.flatMap (fun o => (List.range (ni / 4)).map (fun b => (d.base + d.block o (i0 + 4 * b), d.info.blockBytes)))
  let gs := if d.info.kGroup = 0 then [] else rangeFrom (i0 / d.info.kGroup) ((i0 + ni - 1) / d.info.kGroup + 1 - i0 / d.info.kGroup)
  let tags := os.flatMap (fun o => gs.map (fun g => (d.base + d.tagAt o g, 2)))
  let aux :=
    if d.info.aux = 1 then os.flatMap (fun o => gs.map (fun g => (d.base + d.scaleAt o g, 8)))
    else if d.info.aux = 2 then os.flatMap (fun o => gs.map (fun g => (d.base + d.bookAt o g, 2 * 2 ^ d.info.bits + 2)))
    else d.zpRanges o0 no
  blocks ++ tags ++ aux

/-- The (outer, K group) pairs of one operand whose tags an instance checks. -/
def operandTags (d : TDesc) (o0 no i0 ni : Nat) : List (Nat × Nat) :=
  if d.info.kGroup = 0 then []
  else (List.range (no / 4)).flatMap (fun b =>
    (rangeFrom (i0 / d.info.kGroup) ((i0 + ni - 1) / d.info.kGroup + 1 - i0 / d.info.kGroup)).map (fun g => (o0 + 4 * b, g)))

def MmaArgs.rangesA (x : MmaArgs) : List (Nat × Nat) := operandRanges x.ta x.m0 x.dimM x.k0 x.dimK
def MmaArgs.rangesB (x : MmaArgs) : List (Nat × Nat) :=
  if x.trans then
    operandRanges { x.tb with zpMode := 0 } x.k0 x.dimK x.n0 x.dimN ++ x.tb.zpRanges x.n0 x.dimN
  else operandRanges x.tb x.n0 x.dimN x.k0 x.dimK

/-- Every tag of the instance's operands carries its expected value (R149, R176). -/
def MmaArgs.tagsOk (s : State) (x : MmaArgs) : Bool :=
  (operandTags x.ta x.m0 x.dimM x.k0 x.dimK).all (fun p => x.ta.tagsOk s (x.base + x.ta.base) p.1 p.2) &&
  (x.trans || (operandTags x.tb x.n0 x.dimN x.k0 x.dimK).all (fun p => x.tb.tagsOk s (x.base + x.tb.base) p.1 p.2))

/-- UZ7220 compatibility mode takes INT8, UINT8, BF16 and FP16 only (R104). -/
def compatType (t : Nat) : Bool := t == 1 || t == 2 || t == 0x10 || t == 0x11

/-- Ranges lie in the core store, and none of them holds poison: the status of the first breach (R81, R316). -/
def State.coreRangesErr (s : State) (n : Nat) (rs : List (Nat × Nat)) : Option Status :=
  if rs.any (fun r => decide (coreStoreBytes < r.1 + r.2)) then some .eStoreRange
  else if rs.any (fun r => s.corePoisoned n r.1 r.2) then some .eMemPoison
  else none

/-- The whole effect of an MMA with its fields taken out of the word; of a descriptor with BATCH above 1 it takes data tile 0 (DESIGN
CHOICE, log entry 201). -/
def mmaRun (n : Nat) (c : Core) (w : Nat) (s : State) : State :=
  let shape := bits w 55 52
  let engine := bits w 20 15
  match shapeDims shape, firstEngine shape (bits w 51 50) engine engine true with
  | some (dm, dn, dk, _), some e0 =>
    let ta := parseTDesc (c.tdreg (bits w 49 46))
    let tb := parseTDesc (c.tdreg (bits w 45 42))
    if !(ta.ok && tb.ok && ta.form == 0 && tb.form == 1 && ta.space == 0 && tb.space == 0) then s.abortTile n .eLayout
    else if bit w 36 && !c.compat then s.abortTile n .eModeConflict
    else if c.compat && !(compatType ta.type && compatType tb.type) then s.abortTile n .eModeConflict
    else
      match pairKind ta.type tb.type with
      | none => s.abortTile n .eTypePair
      | some isInt =>
        let kp := kPerStep ta.type tb.type
        let x : MmaArgs := {
          shape := shape, e0 := e0, slot := bits w 41 38, zero := bit w 37, trans := bit w 36, ta := ta, tb := tb,
          m0 := (c.sreg (bits w 35 31)).toNat, n0 := (c.sreg (bits w 30 26)).toNat, k0 := (c.sreg (bits w 25 21)).toNat,
          dimM := dm, dimN := dn, dimK := dk * (kp / 4), kp := kp, base := coreBase n }
        let bK := if x.trans then tb.dimOut else tb.dimIn
        let bN := if x.trans then tb.dimIn else tb.dimOut
        if x.m0 % 4 ≠ 0 ∨ x.n0 % 4 ≠ 0 ∨ x.k0 % 4 ≠ 0 ∨ ta.dimOut < x.m0 + dm ∨ bN < x.n0 + dn ∨
            ta.dimIn < x.k0 + x.dimK ∨ bK < x.k0 + x.dimK then s.stopIllegal n
        else if isCodeType tb.type &&
            (x.k0 / 64 != (x.k0 + x.dimK - 1) / 64 || x.n0 / tb.span != (x.n0 + dn - 1) / tb.span) then
          s.abortTile n .eCodeAlign
        else
          match s.coreRangesErr n (x.rangesA ++ x.rangesB) with
          | some e => s.abortTile n e
          | none =>
            if !x.tagsOk s then s.abortTile n .eScaleSkew
            else s.advance n (c.putResults isInt x.slot (cEngines shape e0 dm dn) (x.results s c isInt))
  | _, _ => s.stopIllegal n

/-- MMA: a shape instruction multiplies A and B operand tiles into accumulator slots (R82, Table 4.5). -/
def execMma (n : Nat) (s : State) : Res :=
  s.issue n 0x10 (fun c w =>
    s.inBody n c (fun c =>
      if reservedSet w 0xFFFFFFFFFFFF8000 then s.stopIllegal n else mmaRun n c w s))

/-- Byte ranges an instance writes into a C-form tile. -/
def outRanges (d : TDesc) (m0 dm n0 dn : Nat) : List (Nat × Nat) :=
  (List.range (dm / 4)).flatMap (fun a => (List.range (dn / 4)).map (fun b =>
    (d.base + d.block (m0 + 4 * a) (n0 + 4 * b), d.info.blockBytes)))

/-- Write every element of an instance's output. -/
def writeCells (n : Nat) (d : TDesc) (m0 n0 : Nat) (cells : List (Nat × Nat)) (val : Nat → Nat → Nat) (s : State) : State :=
  cells.foldl (fun s (m, j) => d.setElem s (coreBase n + d.base) (m0 + m) (n0 + j) (val m j)) s

/-- The whole effect of a DRAIN (R173: the accumulator's own type, as the last MMA left it, INT32 for a slot no MMA
has written since the core reset, R154). It writes data tile 0 of its descriptor (DESIGN CHOICE, log entry 201). -/
def drainRun (n : Nat) (c : Core) (w : Nat) (s : State) : State :=
  let shape := bits w 55 52
  let engine := bits w 20 15
  match shapeDims shape, firstEngine shape (bits w 51 50) engine engine true with
  | some (dm, dn, _, _), some e0 =>
    let d := parseTDesc (c.tdreg (bits w 49 46))
    let slot := bits w 41 38
    let fp := d.type == 0x12
    if !(d.ok && d.form == 2 && d.space == 0 && (d.type == 0x12 || d.type == 0x13) &&
        (cEngines shape e0 dm dn).all (fun e => Tbl.get false c.accFp (e * 16 + slot) == fp)) then s.abortTile n .eLayout
    else
      let m0 := (c.sreg (bits w 35 31)).toNat
      let n0 := (c.sreg (bits w 30 26)).toNat
      if m0 % 4 ≠ 0 ∨ n0 % 4 ≠ 0 ∨ d.dimOut < m0 + dm ∨ d.dimIn < n0 + dn then s.stopIllegal n
      else if (outRanges d m0 dm n0 dn).any (fun r => decide (coreStoreBytes < r.1 + r.2)) then s.abortTile n .eStoreRange
      else
        (writeCells n d m0 n0 (cellsOf dm dn) (fun m j => (c.accWord (cKey shape e0 slot dn m j)).toNat) s).advance n
          (c.note (outRanges d m0 dm n0 dn))
  | _, _ => s.stopIllegal n

/-- DRAIN: accumulator blocks go to a C-form tile in the core store (R173, R778). -/
def execDrain (n : Nat) (s : State) : Res :=
  s.issue n 0x11 (fun c w =>
    s.inBody n c (fun c =>
      if reservedSet w 0xFFFFC3CFFC1F8000 then s.stopIllegal n else drainRun n c w s))

/-- The output range of a requantised type (R156). -/
def requantRange (t : Nat) : Int × Int :=
  if t = 1 then (-128, 127) else if t = 2 then (0, 255) else if t = 3 then (-8, 7) else (-(2 ^ 31), 2 ^ 31 - 1)

/-- The requantised value of one position with its column's 16-byte record (Table 3.6). -/
def requantCell (rec : List Byte) (acc : Word) (zp lo hi : Int) : Int × Bool :=
  requantOne (sext 32 acc.toNat) (sext 32 (fld rec 0 4)) (sext 32 (fld rec 4 4)) (fld rec 8 1 % 64) zp lo hi

/-- The whole effect of a REQUANT (R154 to R158). Of several failures the first in this order is reported: layout, accumulator type,
zp_out, position, record range and poison, output range (DESIGN CHOICE, log entry 154). It writes data tile 0 of its descriptor
(DESIGN CHOICE, log entry 201). -/
def requantRun (n : Nat) (c : Core) (w : Nat) (s : State) : State :=
  let shape := bits w 55 52
  let lo4 := bits w 45 42
  match shapeDims shape, firstEngine shape (bits w 51 50) (16 * bits w 51 50 + lo4) lo4 false with
  | some (dm, dn, _, _), some e0 =>
    let d := parseTDesc (c.tdreg (bits w 49 46))
    let slot := bits w 41 38
    if !(d.ok && d.form == 2 && d.space == 0 && (isIntType d.type || d.type == 0x13)) then s.abortTile n .eLayout
    else if (cEngines shape e0 dm dn).any (fun e => Tbl.get false c.accFp (e * 16 + slot)) then s.abortTile n .eTypePair
    else
      let (lo, hi) := requantRange d.type
      let zp := if d.type = 2 then (bits w 7 0 : Int) else sext 8 (bits w 7 0)
      let m0 := (c.sreg (bits w 35 31)).toNat
      let n0 := (c.sreg (bits w 30 26)).toNat
      let rec0 := 16 * bits w 25 10
      if zp < lo ∨ hi < zp then s.stopIllegal n
      else if m0 % 4 ≠ 0 ∨ n0 % 4 ≠ 0 ∨ d.dimOut < m0 + dm ∨ d.dimIn < n0 + dn then s.stopIllegal n
      else
        match s.coreRangesErr n [(rec0, 16 * dn)] with
        | some e => s.abortTile n e
        | none =>
          if (outRanges d m0 dm n0 dn).any (fun r => decide (coreStoreBytes < r.1 + r.2)) then s.abortTile n .eStoreRange
          else
            let cell := fun m j => requantCell (s.coreRead n (rec0 + 16 * j) 16) (c.accWord (cKey shape e0 slot dn m j)) zp lo hi
            let sat := (cellsOf dm dn).any (fun (m, j) => (cell m j).2)
            (writeCells n d m0 n0 (cellsOf dm dn) (fun m j => wrap d.info.bits (cell m j).1) s).advance n
              ((c.addFlags sat false).note (outRanges d m0 dm n0 dn))
  | _, _ => s.stopIllegal n

/-- REQUANT: INT32 accumulators become the output type with bias, multiplier and shift (R156). -/
def execRequant (n : Nat) (s : State) : Res :=
  s.issue n 0x12 (fun c w =>
    s.inBody n c (fun c =>
      if reservedSet w 0xFFFFFFCFFFFFFCFF then s.stopIllegal n else requantRun n c w s))

end Sys2Proof.Machine
end

