-- ==== Sys2Proof/Machine/Keys.lean ====
section
/-!
DEFINITION. Keys that are fixed at manufacture or derived at a start, and the key registers that the root of trust loads when a domain
powers up (R308, R644, R645, R657, R658).
-/
namespace Sys2Proof.Machine

/-- The key that seals the Windfall image (Table 15.2). -/
def sealingKey : List Byte := hkdf Config.deviceRootKey [] (ascii "UZ SEAL") 32

/-- The key under which the store holds the identity private keys (R641, Table 15.2). -/
def identityWrapKey : List Byte := hkdf Config.deviceRootKey [] (ascii "UZ IDW") 32

/-- The base of the export keys of a slot (Table 15.2). -/
def exportLinkKey (slot : Nat) : List Byte := hkdf Config.deviceRootKey [] (ascii "UZ EXP" ++ toLE 1 slot) 32

/-- The memory key of a slot: data key, then tweak key (Table 15.2). -/
def memoryKey (slot : Nat) : List Byte := hkdf Config.deviceRootKey [] (ascii "UZ MEM" ++ toLE 1 slot) 64

/-- A UCIe link key; its slot is twice the link plus the direction (Table 15.2). -/
def ucieKey (slot : Nat) : List Byte := hkdf Config.deviceRootKey [] (ascii "UZ D2D" ++ toLE 1 slot) 32

/-- The session key of a direction of a UCIe link in a start (R658). -/
def sessionKey (slot startNo : Nat) : List Byte := hkdf (ucieKey slot) [] (ascii "UZ D2D S" ++ toLE 4 startNo) 32

/-- Load the memory key registers of a compute die (R645). -/
def State.loadMemKeys (s : State) (die : Nat) : State :=
  { s with mem := { s.mem with keyRegs := (List.range 64).foldl (fun t i => Tbl.put t (64 * die + i) (memoryKey i)) s.mem.keyRegs } }

/-- Load the session keys of a D2D domain: both directions of its die's link, or of both links for the IOD's (R645, R658). -/
def State.loadD2dKeys (s : State) (dom : Nat) : State :=
  let slots := if dom = 2 then List.range 4 else [2 * dom, 2 * dom + 1]
  { s with trust := { s.trust with d2dKeys := slots.foldl (fun t i => Tbl.put t (8 * dom + i) (sessionKey i s.pwr.startNo)) s.trust.d2dKeys } }

/-- Load a weight key into the tile mover of a cluster where its partition holds cores, or take it out (R645, R666). -/
def State.loadWeightKey (s : State) (k p : Nat) : State :=
  let here := match s.part p with
    | some x => !(x.coresIn k).isEmpty && s.domainOn (clusterIsland k)
    | none => false
  let t := s.trust.clKeys
  { s with trust := { s.trust with
      clKeys := match Tbl.find s.trust.weightKeys p with
        | some key => if here then Tbl.put t (64 * k + p) key else t
        | none => Tbl.del t (64 * k + p) } }

/-- Load all weight keys of a cluster (R645). -/
def State.loadClKeys (s : State) (k : Nat) : State := (Tbl.keys s.trust.weightKeys).foldl (fun s p => s.loadWeightKey k p) s

/-- Bring one partition's key registers in line with its weight slot, in every cluster (R666, Table 15.13 step 4). -/
def State.spreadWeightKey (s : State) (p : Nat) : State := (List.range 16).foldl (fun s k => s.loadWeightKey k p) s

/-- Turn a switched domain on or off: with the power its key registers are loaded, and without it they are lost (R54, R645). -/
def State.powerDomain (s : State) (i : Nat) (v : Bool) : State :=
  if s.domainOn i == v then s
  else
    let s := s.setDomain i v
    if v then
      (if i = memfabDomain 0 then s.loadMemKeys 0 else if i = memfabDomain 1 then s.loadMemKeys 1
       else if i = d2dDomain 0 then s.loadD2dKeys 0 else if i = d2dDomain 1 then s.loadD2dKeys 1
       else if i = 180 then s.loadD2dKeys 2
       else s)
    else
      let die := if i = memfabDomain 0 then some 0 else if i = memfabDomain 1 then some 1 else none
      let dom := if i = d2dDomain 0 then some 0 else if i = d2dDomain 1 then some 1 else if i = 180 then some 2 else none
      { s with
        mem := { s.mem with keyRegs := s.mem.keyRegs.filter (fun e => some (e.1 / 64) != die) }
        trust := { s.trust with d2dKeys := s.trust.d2dKeys.filter (fun e => some (e.1 / 8) != dom) } }

/-- The tweak of a line (R308). -/
def lineTweak (a gen slot : Nat) : Nat := bits a 47 6 + gen * 2 ^ 42 + slot * 2 ^ 58

/-- What the stack holds for the 64-byte line of an address that a partition owns: its plaintext under AES-256-XTS with the die's key
register of the partition's slot and the line's tweak (R308, R657). -/
def State.lineAtRest (s : State) (p a : Nat) : List Byte :=
  let line := a / 64 * 64
  xtsSeal (Tbl.get [] s.mem.keyRegs (64 * (s.stackOf line / 2) + p)) (lineTweak line (s.gen p) p) (s.readMem line 64)

end Sys2Proof.Machine
end

