-- ==== Sys2Proof/Machine/Partition.lean ====
section
/-!
DEFINITION. Creating partitions, and Clearing them (R334 to R339, R547, R556 to R566, R657, R670, R671).
-/
namespace Sys2Proof.Machine

/-! The creation record (Table 8.1). -/

def partFnField (r : List Byte) : Nat := fldBits r 0 4 0
def partExtents (r : List Byte) : List (Nat × Nat) :=
  ((List.range 8).map (fun x => (fld r (0x40 + 8 * x) 2, fld r (0x44 + 8 * x) 2))).filter (fun e => e.2 != 0)
def partMask (r : List Byte) : List Nat := (List.range 128).filter (bit (fld r 0x10 16))

/-- The partition a record describes, for an identifier. -/
def partOf (r : List Byte) (p yield : Nat) (reserve : List Nat) (placed : List Nat := []) : Part :=
  { fn := partFnField r, realtime := bit (fld r 0 4) 8, stemExcl := bit (fld r 0 4) 9, minClock := fldBits r 0 11 10,
    maxClock := fldBits r 0 13 12, save64k := fldBits r 0 18 16, sharersMax := fldBits r 0 27 24, memShare := fldBits r 4 8 0,
    coreMask := fld r 0x10 16, granules := (List.range 16).map (fun k => fld r (0x20 + 2 * k) 2), extents := partExtents r,
    keySlot := p, yieldSync := yield, reserve := reserve, clearing := false, placed := placed }

/-- Reserved bits are 0 and fields lie in their ranges (Table 8.1). -/
def partFieldsOk (r : List Byte) : Bool :=
  fldBits r 0 7 5 == 0 && fldBits r 0 15 14 == 0 && fldBits r 0 23 19 == 0 && fldBits r 0 31 28 == 0 &&
  decide (fldBits r 0 11 10 ≤ fldBits r 0 13 12) && decide (fldBits r 0 18 16 ≤ 4) &&
  (!bit (fld r 0 4) 8 || inRange (fldBits r 0 27 24) 1 8) && inRange (fldBits r 4 8 0) 1 256 && fldBits r 4 31 9 == 0 &&
  zeroBytes r 8 8 &&
  (List.range 8).all (fun x => fld r (0x42 + 8 * x) 2 == 0 && fld r (0x46 + 8 * x) 2 == 0)

/-- Two extents overlap. -/
def extentsMeet (a b : Nat × Nat) : Bool := decide (a.1 < b.1 + b.2) && decide (b.1 < a.1 + a.2)

/-- No two extents of a list overlap. -/
def extentsApart : List (Nat × Nat) → Bool
  | [] => true
  | e :: es => es.all (fun x => !extentsMeet e x) && extentsApart es

/-- All partitions, those being cleared included. -/
def State.allParts (s : State) : List Part := s.work.parts.map (·.2)

/-- Partitions with cores in a cluster. -/
def State.sharers (s : State) (k : Nat) : List Part := s.allParts.filter (fun x => !(x.coresIn k).isEmpty)

/-- The rules of R336 about clusters shared with other partitions. -/
def State.sharingOk (s : State) (x : Part) : Bool :=
  (List.range 16).all (fun k =>
    (x.coresIn k).isEmpty ||
      (let others := s.sharers k
       let n := others.length + 1
       others.all (fun o => !o.realtime || decide (n ≤ o.sharersMax)) && (!x.realtime || decide (n ≤ x.sharersMax)) &&
       (others.isEmpty || (!x.stemExcl && others.all (fun o => !o.stemExcl)))))

/-- Granules are free, lie on dies with cores, and cover the save areas (R336, R338). -/
def State.granulesOk (s : State) (x : Part) : Bool :=
  (List.range 16).all (fun k =>
    (x.granules.getD k 0 == 0 || x.cores.any (fun n => n / 64 == k / 8)) &&
    s.allParts.all (fun o => x.granules.getD k 0 &&& o.granules.getD k 0 == 0) &&
    decide (cdiv ((x.coresIn k).length * x.save64k) 16 ≤ (x.granulesDesc k).length))

/-- Extents are apart from each other and from every other partition's, end at page 65,535, and name no withheld page (R336,
R703, R709). -/
def State.extentsOk (s : State) (x : Part) : Bool :=
  extentsApart x.extents && x.extents.all (fun e => decide (e.1 + e.2 ≤ 65536)) &&
  s.allParts.all (fun o => o.extents.all (fun e => x.extents.all (fun f => !extentsMeet e f))) &&
  !(s.pwr.fw.area.toList ++ s.pwr.fw.areas).any (fun a => (areaPages (firstStack s.sproutDie) (some a)).any x.ownsPage) &&
  !(s.errs.retiredPages.any (fun e => e.2 && x.ownsPage e.1))

/-- Cores are free, not retired, and there is at least one (R336, R703). -/
def State.coresOk (s : State) (x : Part) : Bool :=
  !x.cores.isEmpty && x.cores.all (fun n => !Tbl.get false s.errs.retiredCores n && s.allParts.all (fun o => !o.ownsCore n))

/-- The lowest identifier in neither use nor retirement; its memory key slot is the identifier (R657). -/
def State.freePart (s : State) : Option Nat :=
  (List.range 64).find? (fun p => (s.part p).isNone && !s.work.retired.contains p)

/-- The checks of R336. -/
def State.partOk (s : State) (r : List Byte) : Bool :=
  let x := partOf r 0 0 []
  partFieldsOk r && s.coresOk x && s.granulesOk x && s.extentsOk x && s.sharingOk x &&
  decide (s.allParts.foldl (fun acc o => acc + o.memShare) 0 + x.memShare ≤ 256) && s.freePart.isSome &&
  decide (5 ≤ s.freeSyncCount)

/-- What a function holds: partitions, cores, pages and MEM_SHARE, those being cleared included (R547, Table 12.2). -/
def State.held (s : State) (f : Nat) : List Part := s.allParts.filter (fun x => x.fn == f)
def coresHeld (l : List Part) : Nat := l.foldl (fun acc x => acc + x.cores.length) 0
def pagesHeld (l : List Part) : Nat := l.foldl (fun acc x => acc + x.extents.foldl (fun a e => a + e.2) 0) 0
def shareHeld (l : List Part) : Nat := l.foldl (fun acc x => acc + x.memShare) 0

/-- The function's limits and stacked-memory weight bear a set of partitions (R547, R548). -/
def Fn.bears (x : Fn) (l : List Part) : Bool :=
  decide (l.length ≤ x.limParts) && decide (coresHeld l ≤ x.limCores) && (x.limPages == 0xFFFF || decide (pagesHeld l ≤ x.limPages)) &&
  decide (shareHeld l ≤ x.wMem)

/-- Grant a partition's pages: lines that were not scrubbed under its key and generation hold undefined data (R308, R612). -/
def State.grantPages (s : State) (p : Nat) (x : Part) : State :=
  let key := 64 * s.gen p + p + 1
  (x.extents.flatMap (fun e => rangeFrom e.1 e.2)).foldl (fun s pg =>
    if Tbl.get 0 s.mem.pageKey pg = key then s
    else
      let s := s.undefine (pg * 0x200000) 0x200000
      { s with mem := { s.mem with pageKey := Tbl.put s.mem.pageKey pg key } }) s

/-! Elastic buffers (R209). The manual gives the declaration no form: a buffer is its size in bytes and the tiers it accepts, 1 the
core store, 2 the cluster store, 3 stacked memory, 4 host memory, and the buffers' declarations follow the creation record in its
message, 8 bytes each: [31:0] the size, [35:32] the tiers, bit 32 for tier 1 (DESIGN CHOICE, log entry 160). -/

/-- The declared buffers that follow a creation record. -/
def elasticOf (raw : List Byte) : List (Nat × List Nat) :=
  (List.range ((raw.length - 128) / 8)).map (fun i =>
    (fld raw (128 + 8 * i) 4, [1, 2, 3, 4].filter (fun t => bit (fld raw (132 + 8 * i) 4) (t - 1))))

/-- What is left of a partition's grant while its buffers are placed: free bytes of each core's store, of the granules outside the
save area of each cluster, and of the pages. -/
structure Room where
  cores : List Nat
  clusters : List Nat
  pages : Nat
  deriving DecidableEq, Repr

/-- The room of a new partition's grant. The pages of all its extents are one pool: the manual does not say whether a buffer needs one
contiguous extent (DESIGN CHOICE, log entry 160). -/
def Part.room (x : Part) : Room :=
  { cores := x.cores.map (fun _ => coreStoreBytes)
    clusters := (List.range 16).map (fun k => ((x.granulesDesc k).length - (x.saveArea k).length) * 0x100000)
    pages := x.extents.foldl (fun acc e => acc + e.2) 0 * 0x200000 }

/-- Take n bytes from the first store of a list that has them. -/
def takeRoom (n : Nat) : List Nat → Option (List Nat)
  | [] => none
  | r :: rs => if n ≤ r then some ((r - n) :: rs) else (takeRoom n rs).map (r :: ·)

/-- Place a buffer in one tier, if it has room. -/
def Room.tier (r : Room) (n t : Nat) : Option Room := match t with
  | 1 => (takeRoom n r.cores).map (fun l => { r with cores := l })
  | 2 => (takeRoom n r.clusters).map (fun l => { r with clusters := l })
  | 3 => if n ≤ r.pages then some { r with pages := r.pages - n } else none
  | 4 => some r
  | _ => none

/-- The tier of a buffer: the first of its list, fastest first, that has room; 0 when none has. -/
def Room.place (r : Room) (n : Nat) (tiers : List Nat) : Room × Nat :=
  match ([1, 2, 3, 4].filter tiers.contains).findSome? (fun t => (r.tier n t).map (fun x => (x, t))) with
  | some x => x
  | none => (r, 0)

/-- The tiers of the declared buffers, placed in the order of their declaration. -/
def placeAll : Room → List (Nat × List Nat) → List Nat
  | _, [] => []
  | r, (n, ts) :: bs => (r.place n ts).2 :: placeAll (r.place n ts).1 bs

/-- The placement report: each buffer placed below the first tier of its list, by its place in the declaration, and its tier. -/
def placeReport (bufs : List (Nat × List Nat)) (placed : List Nat) : List Byte :=
  ((List.range bufs.length).zip (bufs.zip placed)).flatMap (fun (i, b, t) =>
    if [1, 2, 3, 4].find? b.2.contains = some t then [] else toLE 2 i ++ toLE 2 t)

/-- The reply of R337: identifier and generation, key slot, yield object, the reserve's four objects, and the placement report
of R209. -/
def createReply (p gen yield : Nat) (reserve : List Nat) (report : List Byte) : List Byte :=
  toLE 2 p ++ toLE 2 gen ++ toLE 4 p ++ toLE 4 yield ++ reserve.flatMap (toLE 2) ++ toLE 4 (report.length / 4) ++ toLE 8 0 ++ report

/-- The descriptor slot of a new partition's recovery reserve is set aside in a cluster: where ordinary moves occupy all slots
but those of the other partitions, the one queued last goes back to the controller (R120, R559; DESIGN CHOICE, log entry 159). -/
def State.secureSlot (s : State) (k : Nat) : State :=
  let cl := s.cluster k
  if 64 < cl.moves.length + (s.partsIn k).length then
    s.setCluster k { cl with moves := cl.moves.dropLast, released := cl.moves.getLast?.toList ++ cl.released }
  else s

/-- The shared debits of a partition's window begin anew with it (R376). -/
def State.forgetMoved (s : State) (p : Nat) : State :=
  s.setLedger { s.pwr.ledger with movedAt := Tbl.del s.pwr.ledger.movedAt p }

/-- PART_CREATE: the firmware checks a creation record and creates the partition with its yield object, recovery reserve,
placed buffers and cleared counters (R209, R334 to R338, R547, R559, R563, R657, R714). -/
def execPartCreate (f tag : Nat) (raw : List Byte) (s : State) : Res :=
  let r := slice raw 0 128
  let bufs := elasticOf raw
  s.request f 0x10 tag false false (.owner (f == 0 || partFnField r == f)) (decide (raw.length ≤ 480)) (fun s =>
    let fn := partFnField r
    let x0 := partOf r 0 0 []
    if !s.partOk r then s.reply f 0x10 tag .ePartConfig
    else if !(s.fn fn).bears (x0 :: s.held fn) then s.reply f 0x10 tag .eFnLimit
    else
      match s.freePart, s.freeSyncs 5 with
      | some p, y :: reserve =>
        let s := (s.allocSyncs fn p false [y]).allocSyncs 0 p true reserve
        let x := partOf r p y reserve (placeAll x0.room bufs)
        let s := (s.setPart p x).grantPages p x
        let s := (List.range 16).foldl State.secureSlot s
        let s := ((s.clearStall p).clearAcct (0x8000 + 8 * p)).forgetMoved p
        s.reply f 0x10 tag .ok (createReply p (s.gen p) y reserve (placeReport bufs x.placed))
      | _, _ => s.reply f 0x10 tag .ePartConfig)

/-! Clearing. -/

/-- Accept a trigger: the partition is marked and its Clearing begins, or merges with the one in progress; its open release entries close
(R560 step 1, R566, R670). -/
def State.triggerClearing (s : State) (p trigger : Nat) : State :=
  match s.part p, Tbl.find s.work.clearings p with
  | some x, none =>
    let j : ClearingJob := {
      fn := x.fn, trigger := trigger, oldGen := s.gen p, descAborted := 0, signalsDropped := 0, writesDiscarded := 0,
      readsPoisoned := 0, d2dDropped := 0, pagesScrubbed := 0, bellsIgnored := 0, fetches := [],
      ctxs := (Tbl.keys s.work.ctxs).filter (fun n => (s.ctx n).active && (s.ctx n).part == p), moves := [], step := 1 }
    let s := s.setPart p { x with clearing := true }
    { s with
      work := { s.work with clearings := Tbl.put s.work.clearings p j }
      trust := { s.trust with releases := s.trust.releases.filter (fun r => !(r.part == p)) } }
  | _, _ => s

/-- PART_DESTROY: the owner or PF0 asks for a partition to be cleared (R556, R560). -/
def execPartDestroy (f tag p : Nat) (s : State) : Res :=
  let owns := match s.part p with
    | some x => x.fn == f
    | none => false
  s.request f 0x11 tag false false (.owner (f == 0 || owns)) true (fun s =>
    match s.part p with
    | none => s.reply f 0x11 tag .ePartConfig
    | some x => (s.triggerClearing p (if x.fn = f then 0 else 1)).reply f 0x11 tag .ok)

def State.job (s : State) (p : Nat) : Option ClearingJob := Tbl.find s.work.clearings p

def State.setJob (s : State) (p : Nat) (f : ClearingJob → ClearingJob) : State :=
  match s.job p with
  | some j => { s with work := { s.work with clearings := Tbl.put s.work.clearings p (f j) } }
  | none => s

/-- A core of the partition, whose tile was aborted before commit, is reset and its store zero-filled (Table 12.9 steps 3 and 7, R99,
Table 2.7); one that waits in OFF powers up first (R70). -/
def State.clearCore (s : State) (n : Nat) : State :=
  ((s.modeUp n).resetCore n).zeroFill (coreBase n) coreStoreBytes

/-- Drop the old generation's queued work of a cluster: moves, wait sets and stem jobs. A queued move has sent no granule, so the
discard sink sees none of it (Table 12.9 step 4); one in progress with a read of host memory is remembered for R562. -/
def State.clearCluster (s : State) (p k : Nat) : State :=
  let cl := s.cluster k
  let reads := cl.moves.filter (fun m => m.part == p && (parseMove m.raw).src.space == 2)
  let s := s.setJob p (fun j => { j with moves := j.moves ++ reads.map (fun m => (k, m.slot)) })
  s.setCluster k (({ cl with
    released := cl.released.filter (fun m => !(m.part == p)), moves := cl.moves.filter (fun m => !(m.part == p)),
    waitSets := cl.waitSets.filter (fun w => !(w.part == p)), stemQueue := cl.stemQueue.filter (fun j => !(j.part == p)),
    stemRun := cl.stemRun.filter (fun j => !(j.part == p)) } : Cluster).grant s.pwr.ledger.hold)

/-- The requests of the old generation that the slices hold are answered now: writes dropped and reads poisoned, each granule counted
(Table 12.9 step 4, R309, R317). -/
def State.clearSlices (s : State) (p : Nat) : State :=
  let gone := s.mem.held.filter (fun q => q.part == p)
  gone.foldl State.lookupGranule { s with mem := { s.mem with held := s.mem.held.filter (fun q => !(q.part == p)) } }

/-- Post descriptors of the partition are dropped with ABORTED_BY_CLEARING and counted as completed (R253, Table 18.15). -/
def State.clearPost (s : State) (p : Nat) : State :=
  let u := s.cpu.post
  let keep := fun (j : PostJob) => !(j.part == p)
  let n := ((u.handed ++ u.queue ++ u.run.toList).filter (fun j => j.part == p)).length
  s.setPost { u with
    handed := u.handed.filter keep, queue := u.queue.filter keep, run := u.run.filter keep,
    completed := satAdd u.completed n 0xFFFFFFFF }

/-- Signals of the old generation in flight are dropped and counted (R200, Table 12.9 step 4). -/
def State.clearSignals (s : State) (p : Nat) : State :=
  let n := (s.cpu.sync.flight.filter (fun g => g.part == p)).length
  let u := s.cpu.sync
  let s := s.setSync { u with
    flight := u.flight.filter (fun g => !(g.part == p)), dropped := Tbl.set 0 u.dropped p (Tbl.get 0 u.dropped p + n),
    applied := u.applied + n }
  s.setJob p (fun j => { j with signalsDropped := j.signalsDropped + n })

/-- The contexts of a partition. -/
def State.ctxsOf (s : State) (p : Nat) : List Nat :=
  (Tbl.keys s.work.ctxs).filter (fun n => (s.ctx n).active && (s.ctx n).part == p)

/-- Answer the fetched descriptors of a context: with records in a partition Clearing, only counted in a reset; then disable
the context (R561). The fetches that are on their way are remembered for R562. -/
def State.clearCtx (s : State) (p : Nat) (records : Bool) (n : Nat) : State :=
  let ds := (s.ctx n).descs.filter (fun d => !(d.phase == .fetching))
  let s := s.setJob p (fun j => { j with
    descAborted := j.descAborted + ds.length
    fetches := j.fetches ++ ((s.ctx n).descs.filter (fun d => d.phase == .fetching)).map (fun _ => n) })
  let s := if records then
      ds.foldl (fun s d =>
        let s := s.closeReservation n d.idx
        let c := s.ctx n
        let s := s.setCtx n { c with descs := c.descs.filter (fun x => !(x.idx == d.idx)) }
        s.writeRecord n { status := .abortedByClearing, sat := false, nonfin := false, unsolicited := false, tag := fld d.raw 4 4,
                          detail0 := 0, detail1 := 0, energy := d.drawn / 1024 } (bit (fld d.raw 0 4) 10)) s
    else ds.foldl (fun s d => s.closeReservation n d.idx) s
  let c := s.ctx n
  s.setCtx n { c with
    cfg := BitVec.ofNat 32 (c.cfg.toNat % 2 ^ 31), active := false, halted := false, descs := [],
    seqReserved := 0, pending := 0, held := [], bells := [], paused := false }

/-- TRIGGER of Table 12.10; 5 stands for a Tally violation, to which the table gives no code. -/
def triggerCode (trigger : Nat) : Nat := if trigger = 5 then Config.unstatedField 1 % 8 else trigger

/-- The Clearing report (Table 12.10). -/
def State.clearReport (s : State) (p : Nat) (final : Bool) : List Byte :=
  match s.job p with
  | some j =>
    toLE 1 p ++ toLE 1 j.fn ++ toLE 2 (triggerCode j.trigger + b2n final * 8) ++ toLE 2 j.oldGen ++ toLE 2 (s.gen p) ++ toLE 4 j.descAborted ++
      toLE 4 j.signalsDropped ++ toLE 4 j.writesDiscarded ++ toLE 4 j.readsPoisoned ++ toLE 4 j.d2dDropped ++ toLE 4 j.pagesScrubbed
  | none => []

/-- Send a Clearing report to PF0, and to the owner while it is neither in reset nor disabled (R565, Table 12.5). -/
def State.sendReport (s : State) (p : Nat) (final : Bool) : State :=
  let r := s.clearReport p final
  match s.job p with
  | some j =>
    let s := s.event 0 .clearingReport r true
    if j.fn ≠ 0 ∧ (s.fn j.fn).inReset = false ∧ (s.fn j.fn).disabled = false then s.event j.fn .clearingReport r true else s
  | none => s

/-- FLR_BUSY clears once every partition of the function has passed step 6 (Table 12.2). -/
def State.settleFlr (s : State) (f : Nat) : State :=
  if (Tbl.keys s.work.clearings).any (fun p => match s.job p with
      | some j => j.fn == f && decide (j.step < 6)
      | none => false) then s
  else s.setFn f { s.fn f with flrBusy := false, inReset := (s.link (s.linkOf f)).perst }

/-- The entries of MEM_APT that name a page of the partition lose VALID (R508). -/
def State.clearApt (s : State) (x : Part) : State :=
  (List.range 32).foldl (fun s f =>
    let y := s.fn f
    s.setFn f { y with apt := y.apt.map (fun e => if x.ownsPage (e.2.toNat % 65536) then (e.1, BitVec.ofNat 32 (e.2.toNat % 2 ^ 31)) else e) }) s

/-- Something of a partition can have packets on a die-to-die link: a move or a stream in progress, a request at a slice, a signal in flight, a
descriptor of the post engine, a fetch, or a core at work. -/
def State.underWay (s : State) (p : Nat) (x : Part) : Bool :=
  let u := s.cpu.post
  (List.range 16).any (fun k => (s.cluster k).moves.any (fun m => m.part == p)) || s.mem.held.any (fun q => q.part == p) ||
  s.cpu.sync.flight.any (fun g => g.part == p) || (u.handed ++ u.queue ++ u.run.toList).any (fun j => j.part == p) ||
  s.work.streams.any (fun e => e.2.part == p && !e.2.stopped) || x.cores.any (fun n => (s.core n).work.isSome) ||
  (Tbl.keys s.work.ctxs).any (fun n => (s.ctx n).part == p && (s.ctx n).descs.any (fun d => d.phase == .fetching))

/-- The die-to-die packets of the old generation are dropped at their receivers, which return their credits, and counted. Their number
depends on times that the manual does not give (Table 12.9 step 5, log entry 208). -/
def State.clearPackets (s : State) (p : Nat) (x : Part) : State :=
  if s.underWay p x then s.setJob p (fun j => { j with d2dDropped := j.d2dDropped + Config.d2dInFlight p j.oldGen }) else s

/-- The camera contexts and audio streams of a partition stop, and LOAD of every pipe follows (R457, R742). -/
def State.stopMedia (s : State) (p : Nat) : State :=
  (List.range 4).foldl State.writeLoad { s with media := s.media.clearPart p }

/-- Steps 2 to 6 of Table 12.9: issue is blocked, the generation rises at every place of Table 12.7, work of the old
generation is discarded, fetched descriptors are answered, and the interim report goes out. -/
def State.clearEarly (s : State) (p : Nat) (x : Part) (j : ClearingJob) : State :=
  let s := (s.clearPackets p x).pairsFail p .abortedByClearing
  let s := { s with work := { s.work with gens := Tbl.set 0 s.work.gens p ((s.gen p + 1) % 65536) } }
  let cores := (Tbl.keys s.cpu.cores).filter x.ownsCore
  let s := cores.foldl (fun s n => s.undefineBody n (s.core n).wrote) s
  let s := (List.range 16).foldl (fun s k => s.clearCluster p k) s
  let s := ((s.clearPost p).clearSignals p).clearSlices p
  let s := (Tbl.keys s.work.streams).foldl (fun s k => match Tbl.find s.work.streams k with
    | some w => if w.part = p ∧ w.stopped = false then s.haltStream w else s
    | none => s) s
  let s := s.stopMedia p
  let s := (s.clearApt x).setServing p { s.serving p with lists := [] }
  let s := { s with work := { s.work with
      seqs := s.work.seqs.filter (fun e => !(seqPart e.2.raw == p && seqState e.2.raw != 0)) } }
  let s := (s.ctxsOf p).foldl (fun s n => s.clearCtx p ((decide (j.trigger < 2) || j.trigger == 5)) n) s
  let s := cores.foldl (fun s n => (s.modeUp n).setCore n { s.core n with
    run := .idle, mode := 0, work := none, prog := none, code := [], tile := none, commitQ := [], loops := [], resume := none,
    minuetReq := false, stopReq := false, wrote := [] }) s
  let s := s.setJob p (fun j => { j with step := 6 })
  (s.sendReport p false).settleFlr x.fn

/-- The firmware adds 1 to an object of a partition's recovery reserve (Table 12.8). -/
def State.reserveSignal (s : State) (x : Part) (i : Nat) : State := match x.reserve[i]? with
  | some y => s.signal y 1 64 0
  | none => s

/-- The signals on their way to the objects of a partition's reserve are applied, in order (R198, Table 12.8). -/
def State.settleReserve (s : State) (x : Part) : State :=
  let mine := s.cpu.sync.flight.filter (fun g => g.part == 64 && x.reserve.contains g.sync)
  let rest := s.cpu.sync.flight.filter (fun g => !(g.part == 64 && x.reserve.contains g.sync))
  mine.foldl State.applySignal (s.setSync { s.cpu.sync with flight := rest })

/-- Step 7 of Table 12.9: cores are reset, stores, granules and pages are zero-filled under the new generation, weight and
export slots erased (R666, R670, R671). -/
def State.clearScrub (s : State) (p : Nat) (x : Part) : State :=
  let s := x.cores.foldl State.clearCore s
  let s := (List.range 16).foldl (fun s k =>
    ((List.range 16).filter (x.ownsGranule k)).foldl (fun s g => s.zeroFill (clusterBase k + g * 0x100000) 0x100000) s) s
  let s := x.extents.foldl (fun s e => s.zeroFill (e.1 * 0x200000) (e.2 * 0x200000)) s
  let key := 64 * s.gen p + p + 1
  let pages := x.extents.flatMap (fun e => rangeFrom e.1 e.2)
  let s := pages.foldl (fun (s : State) pg =>
    ({ s with mem := { s.mem with pageKey := Tbl.put s.mem.pageKey pg key } } : State).reserveSignal x 1) s
  let s := { s with trust := { s.trust with weightKeys := Tbl.del s.trust.weightKeys p, bindings := Tbl.del s.trust.bindings p } }
  let s := s.spreadWeightKey p
  s.setJob p (fun j => { j with step := 7, pagesScrubbed := j.pagesScrubbed + pages.length })

/-- Step 8 of Table 12.9: the final report, object 2 of the reserve is signalled and the reserve's signals reach their objects (Table
12.8), and everything the partition held returns to the free pool. -/
def State.clearFinish (s : State) (p : Nat) : State :=
  let s := (s.sendReport p true).keepMoved p
  let s := match s.part p with
    | some x => (s.reserveSignal x 2).settleReserve x
    | none => s
  let s := match s.job p with
    | some j =>
      if (Tbl.keys s.work.clearings).all (fun q => q == p || (match s.job q with
        | some i => i.fn != j.fn
        | none => true)) then s.setFn j.fn { s.fn j.fn with disabled := false } else s
    | none => s
  let objs := s.cpu.sync.objs.filter (fun e => !(e.2.part == p))
  let s := s.setSync { s.cpu.sync with objs := objs }
  { s with work := { s.work with
      parts := Tbl.del s.work.parts p, clearings := Tbl.del s.work.clearings p, serving := Tbl.del s.work.serving p,
      attn := s.work.attn.filter (fun e => !(e.2.part == p)), streams := s.work.streams.filter (fun e => !(e.2.part == p)),
      pairs := s.work.pairs, stallFrom := Tbl.del s.work.stallFrom p, stallWorst := Tbl.del s.work.stallWorst p, lastNormal := Tbl.del s.work.lastNormal p,
      passed := Tbl.del s.work.passed p } }

/-- The page scrub of a partition has to wait: a page's stack issues nothing at 105 °C, its channel is under repair, or its stack does not
serve, which no request can change (R298, R303, R361; DESIGN CHOICE, log entry 209). -/
def State.scrubWaits (s : State) (x : Part) : Bool :=
  x.extents.any (fun e => s.memHeld (e.1 * 0x200000) (e.2 * 0x200000) || !s.stacksOn (e.1 * 0x200000) (e.2 * 0x200000))

/-- CLEARING: a partition whose Clearing has begun goes through Table 12.9; it stays at step 6 while the scrub has to wait, and while its credits are not all home (`home`) it
stays at step 7 (R557, R558, R560 to R565, R671). Its open stall interval ends with step 4 and is charged (R325). The partitions at
step 6 stand in the scrub engine's queue, whose order shares only time (Table 12.8). -/
def execClearing (p : Nat) (home : Bool) (s : State) : Res :=
  if s.errs.halted then .next s
  else
    match s.part p, s.job p with
    | some x, some j =>
      let s := if j.step < 6 then s.stallUpdate p (s.clearEarly p x j) else s
      if decide (j.step < 7) && s.scrubWaits x then .next s
      else
      let s := if j.step < 7 then s.clearScrub p x else s
      .next (if home then (s.clearFinish p).checkPending else s)
    | _, _ => .next s

end Sys2Proof.Machine
end

