-- ==== Sys2Proof/Machine/Trust.lean ====
section
/-!
DEFINITION. The root of trust: signed images, mailbox commands, releases, unlocking and attestation (R481, R643 to R656, R663 to
R673).
-/
namespace Sys2Proof.Machine

def State.setTrust (s : State) (t : Trust) : State := { s with trust := t }

/-- A signer hash of all zero bytes marks an unprogrammed signer (Table 15.1). -/
def signerProgrammed (i : Nat) : Bool := !(Config.signerHash i).all (· == 0)

/-- Programmed signers that are not revoked, under a revocation mask. -/
def validSigners (revoke : Nat) : List Nat := (List.range 4).filter (fun i => signerProgrammed i && !bit revoke i)

def imgType (b : List Byte) : Nat := fld b 4 1
def imgSigner (b : List Byte) : Nat := fldBits b 4 9 8
def imgSvn (b : List Byte) : Nat := fld b 8 4
def imgLength (b : List Byte) : Nat := fld b 0xC 4
def imgVersion (b : List Byte) : Nat := fld b 0x10 4
def imgBody (b : List Byte) : List Byte := slice b 0x400 (imgLength b)

/-- The first failure of an image of a type, in the order of R651. An SVN beyond its range (R650) fails with the format, for which R651 names no
place (DESIGN CHOICE, log entry 197). -/
def State.imageErr (s : State) (type : Nat) (b : List Byte) : Option Status :=
  let svnMax := if type = 1 then 64 else 32
  let counter := if type = 1 then s.trust.fwSvn else if type = 2 then s.trust.recogSvn else 0
  if fld b 0 4 ≠ 0x49535A55 ∨ imgType b ≠ type ∨ fldBits b 4 31 10 ≠ 0 ∨ zeroBytes b 0x14 12 = false ∨ zeroBytes b 0x44 60 = false ∨
      zeroBytes b 0x380 128 = false ∨ b.length < 0x400 + imgLength b ∨ (type = 1 ∧ 64 * 2 ^ 20 - 1024 < imgLength b) ∨
      (type = 3 ∧ imgLength b ≠ 4) ∨ (type = 4 ∧ imgLength b ≠ 48) ∨ (type ≤ 2 ∧ svnMax < imgSvn b) then some .eFwSignature
  else if sha256 (slice b 0x40 0x1C0) ≠ Config.signerHash (imgSigner b) ∨ (validSigners s.trust.revoke).contains (imgSigner b) = false then
    some .eFwSigner
  else if signatureValid (slice b 0x80 384) (slice b 0x40 4) (slice b 0 0x200) (slice b 0x200 384) = false ∨
      sha256 (imgBody b) ≠ slice b 0x20 32 then some .eFwSignature
  else if type ≤ 2 ∧ imgSvn b < counter then some .eFwRollback
  else none

/-- The test access port is open for this start (R673). -/
def State.debugOpen (s : State) : Bool := s.trust.scope.isSome

/-! The mailbox (R646 to R648). -/

def State.mbox (s : State) (f : Nat) : Mbox := Tbl.get Mbox.reset s.trust.mbox f

def State.setMbox (s : State) (f : Nat) (m : Mbox) : State :=
  s.setTrust { s.trust with mbox := Tbl.set Mbox.reset s.trust.mbox f m }

/-- The buffer of a function's mailbox (R646). -/
def Mbox.buffer (m : Mbox) : Nat := m.ptrLo.toNat / 64 * 64 + m.ptrHi.toNat * 2 ^ 32

/-- A GO of a function whose mailbox is free: the root of trust accepts the command, its ARG as the command brings it or as the register
holds it (R646, R648). -/
def State.mailGo (s : State) (f code : Nat) (arg : Option Nat) : State :=
  let m := s.mbox f
  match m.run with
  | some _ => s
  | none =>
    let a := (arg.map (BitVec.ofNat 32)).getD m.arg
    s.setMbox f { m with
      code := code, arg := a, run := some { code := code, arg := a.toNat, len := m.len.toNat, buffer := m.buffer } }

/-- The mailbox has room for a command, or holds it already. -/
def Mbox.takes (m : Mbox) (code : Nat) (arg : Option Nat) : Bool := match m.run with
  | none => true
  | some c => c.code == code && arg.all (· == c.arg)

/-- The command that a function's mailbox holds. -/
def State.mailCmd (s : State) (f : Nat) : MboxCmd := (s.mbox f).run.getD { code := 0, arg := 0, len := 0, buffer := 0 }

/-- The root of trust reads the SEC_MBOX_LEN bytes at a function's buffer; those that the host sends are counted (R206, R374, R375, R646). -/
def State.mailRead (s : State) (f : Nat) (host : HostRead) : State :=
  let c := s.mailCmd f
  (match host with
    | .data _ => s.accountFn f 3 c.len
    | .refused => s).hostRead f c.buffer c.len 6

/-- The input bytes of a mailbox command, of what the host answers. -/
def State.mailBytes (s : State) (f : Nat) (b : List Byte) : List Byte := b.take (s.mailCmd f).len

/-- Answer a mailbox command: its payload goes to the buffer, RESULT and DONE are written, BUSY clears, and MAILBOX_DONE is raised (R646 to
R648). -/
def State.mailDone (s : State) (f : Nat) (st : Status) (payload : List Byte) : State :=
  let s := if payload.isEmpty then s else
    (s.accountFn f 4 payload.length).hostWrite f (s.mailCmd f).buffer payload false 6 false
  let s := s.setMbox f { s.mbox f with run := none, done := true, result := BitVec.ofNat 16 st.num }
  s.event f .mailboxDone (toLE 4 st.num)

/-- A command that a reset of its function met runs to its end inside the root of trust, without output and RESULT (R649). -/
def State.mailInside (s : State) (f : Nat) (c : MboxCmd) (allowed : Bool) (k : State → State × Status × List Byte) : State :=
  let m := s.mbox f
  let s := if allowed then (k (s.setMbox f { m with run := some c })).1 else s
  s.setMbox f { m with lost := m.lost.erase c }

/-- The root of trust runs a mailbox command of a function: one that the mailbox holds, or one whose GO the command stands for. Its output
goes to the buffer, RESULT and DONE are set, and MAILBOX_DONE goes to vector 0. While the mailbox is BUSY with another command nothing
happens; nor in the fatal halt (R647 to R649, R731; log entry 116). -/
def State.mailbox (s : State) (f code : Nat) (arg : Option Nat) (allowed : Bool) (k : State → State × Status × List Byte) : Res :=
  if s.errs.halted then .next s
  else
    match (s.mbox f).lost.find? (fun c => c.code == code && arg.all (· == c.arg)) with
    | some c => .next (s.mailInside f c allowed k)
    | none =>
      if (s.mbox f).takes code arg then
        let t := s.mailGo f code arg
        let r := if allowed then k t else (t, Status.eSecDenied, [])
        .next (r.1.mailDone f r.2.1 r.2.2)
      else .next s

/-- A mailbox command that reads its buffer: it stays at its GO while the function's link retrains (R501). -/
def State.mailboxRead (s : State) (f code : Nat) (allowed : Bool) (k : State → State × Status × List Byte) : Res :=
  if (s.link (s.linkOf f)).retraining then .next s else s.mailbox f code none allowed k

/-- SIGNER_REVOKE: PF0 revokes signers by a signed image of TYPE 3 (R647, R651, R654). -/
def execSignerRevoke (f : Nat) (host : HostRead) (s : State) : Res :=
  s.mailboxRead f 1 (f == 0) (fun s =>
    let s := s.mailRead f host
    match host with
    | .refused => (s, .eIovaFault, [])
    | .data d =>
      let b := s.mailBytes f d
      match s.imageErr 3 b with
      | some e => (s, e, [])
      | none =>
        if fldBits (imgBody b) 0 31 4 ≠ 0 then (s, .eSecDenied, [])
        else
          let mask := fldBits (imgBody b) 0 3 0
          let new := s.trust.revoke ||| mask
          if bit mask (imgSigner b) = true ∨ validSigners new = [] then (s, .eLastSigner, [])
          else (s.setTrust { s.trust with revoke := new }, .ok, []))

/-- SVN_COMMIT: PF0 raises a fuse counter to the SVN of the running image, blowing both fuses of each of its pairs: 0 firmware, 1 recogniser;
nothing is blown when the counter stands there (R639, R640, R653). -/
def execSvnCommit (f arg : Nat) (s : State) : Res :=
  s.mailbox f 2 (some arg) (f == 0 && decide (arg < 2)) (fun s =>
    let t := s.trust
    if arg = 0 then
      if t.runSvn < t.fwSvn then (s, .eFwRollback, []) else if t.runSvn = t.fwSvn then (s, .ok, [])
      else (s.setTrust { t with fwFuse := blowPairs t.fwFuse t.runSvn }, .ok, [])
    else if t.recogImageSvn < t.recogSvn then (s, .eFwRollback, [])
    else if t.recogImageSvn = t.recogSvn then (s, .ok, [])
    else (s.setTrust { t with recogFuse := blowPairs t.recogFuse t.recogImageSvn }, .ok, []))

/-- A release entry (Table 15.11). -/
def Release.bytes (r : Release) : List Byte :=
  toLE 4 r.reqId ++ toLE 4 (r.fn + r.part * 256 + r.gen * 65536) ++ slice r.rand 0 32 ++ toLE 24 0

/-- RELEASE_OPEN: a function opens a release entry for a partition it owns (R647, R663, R673). -/
def execReleaseOpen (f p : Nat) (s : State) : Res :=
  s.mailbox f 3 (some p) (s.ownsPart f p) (fun s =>
    let t := s.trust
    if s.debugOpen then (s, .eDebugOpen, [])
    else if 16 ≤ t.releases.length then (s, .eSecBusy, [])
    else
      let r : Release := { reqId := t.nextReq, fn := f, part := p, gen := s.gen p, rand := slice (Config.freshRandom s.draws) 0 32 }
      let s := { s with draws := s.draws + 1 }
      (s.setTrust { t with releases := t.releases ++ [r], nextReq := (t.nextReq + 1) % 2 ^ 32 }, .ok, r.bytes))

/-- Close a release entry. -/
def State.closeRelease (s : State) (id : Nat) : State :=
  s.setTrust { s.trust with releases := s.trust.releases.filter (fun r => !(r.reqId == id)) }

/-- A WEIGHT_DECRYPT move of a partition is queued or in progress (R665). -/
def State.decrypting (s : State) (p : Nat) : Bool :=
  (List.range 16).any (fun k => ((s.cluster k).released ++ (s.cluster k).moves).any (fun m => m.part == p && (parseMove m.raw).decrypt))

/-- An aperture entry is valid for a page of the partition (R508, R665). -/
def State.apertureOpen (s : State) (x : Part) : Bool :=
  (List.range 32).any (fun f => (s.fn f).apt.any (fun e => bit e.2.toNat 31 && x.ownsPage (bits e.2.toNat 15 0)))

/-- Export slots 4 to 15 that no binding holds (R668). -/
def State.freeExports (s : State) : List Nat := (rangeFrom 4 12).filter (fun i => !s.trust.bindings.any (fun e => e.2.slot == i))

/-- Install a released key, with an export binding when it is asked for; the reply of Table 15.12 (R664, R666, R668). -/
def State.installKey (s : State) (r : Release) (msg : List Byte) : State × Status × List Byte :=
  let key := slice msg 0 32
  let t := s.trust
  let t := { t with weightKeys := Tbl.put t.weightKeys r.part { key := key, package := slice msg 0x20 8 } }
  let head := fun (slot num : Nat) => toLE 4 (r.part + slot * 256) ++ toLE 4 num ++ slice r.rand 0 12
  if bit (fld msg 0x2C 4) 0 then
    match s.freeExports with
    | [] => (s, .eRelease, [])
    | slot :: _ =>
      let num := (t.bindingCount + 1) % 2 ^ 32
      let d := hkdf (exportLinkKey slot) r.rand (ascii "UZ EXP" ++ toLE 1 r.part ++ toLE 2 r.gen ++ toLE 4 num) 32
      let sealed := gcmSeal key (slice r.rand 0 12) (toLE 4 num ++ toLE 4 r.reqId) d
      ((s.setTrust { t with
        bindingCount := num, bindings := Tbl.put t.bindings r.part { slot := slot, number := num, counter := 0, key := d } }).spreadWeightKey r.part,
        .ok, slice (head slot num ++ slice sealed 0 48) 0 128)
  else ((s.setTrust t).spreadWeightKey r.part, .ok, slice (head 0xFF 0) 0 128)

/-- The checks of R665 on an unwrapped message of a function, whose reserved bits are 0 (R25, Table 15.12); the entry it answers. -/
def State.releaseFor (s : State) (f : Nat) (msg : List Byte) : Option Release :=
  match s.trust.releases.find? (fun r => r.reqId == fld msg 0x28 4) with
  | some r =>
    match s.part r.part with
    | some x =>
      if x.clearing = false ∧ slice msg 0x30 32 = slice r.rand 0 32 ∧ r.fn = f ∧ r.gen = s.gen r.part ∧ s.apertureOpen x = false ∧ fldBits msg 0x2C 31 1 = 0 ∧
          (bit (fld msg 0x2C 4) 0 = true → s.freeExports ≠ []) then some r else none
    | none => none
  | none => none

/-- The 80-byte message that a wrapped blob holds under the label of R664. -/
def unwrapRelease (b : List Byte) : Option (List Byte) := (unwrapKey (ascii "UZ9640 WR") (slice b 0 384)).filter (fun m => m.length == 80)

/-- RELEASE_KEY: the root of trust unwraps a content key, checks it and writes the partition's weight slot; the entry it names closes
either way (R643, R647, R663 to R668, R673). -/
def execReleaseKey (f : Nat) (host : HostRead) (s : State) : Res :=
  s.mailboxRead f 4 true (fun s =>
    if (s.mailCmd f).len ≠ 384 then (s, .eSecDenied, [])
    else if !s.trust.identityOk then (s, .eIdentityLost, [])
    else if s.debugOpen then (s, .eDebugOpen, [])
    else
      let s := s.mailRead f host
      match host with
      | .refused => (s, .eIovaFault, [])
      | .data b =>
        match unwrapRelease b with
        | none => (s, .eRelease, [])
        | some msg =>
          match s.releaseFor f msg with
          | none => (s.closeRelease (fld msg 0x28 4), .eRelease, [])
          | some r =>
            let s := s.closeRelease r.reqId
            if s.decrypting r.part then (s, .eWeightSlotBusy, []) else s.installKey r msg)

/-- RELEASE_CLOSE: a function closes an entry of its own (R647, R663). -/
def execReleaseClose (f id : Nat) (s : State) : Res :=
  s.mailbox f 5 (some id) (s.trust.releases.any (fun r => r.reqId == id && r.fn == f)) (fun s => (s.closeRelease id, .ok, []))

/-- RELEASE_ENTRY_TIMEOUT: 60 s have passed since an entry opened (R663). -/
def execReleaseEntryTimeout (id : Nat) (s : State) : Res := .next (s.closeRelease id)

/-- UNLOCK_NONCE: PF0 obtains a nonce (R672). -/
def execUnlockNonce (f : Nat) (s : State) : Res :=
  s.mailbox f 6 none (f == 0) (fun s =>
    let n := slice (Config.freshRandom s.draws) 0 32
    ({ s with draws := s.draws + 1, trust := { s.trust with nonce := some n } }, .ok, n))

/-- UNLOCK: PF0 submits a signed token for the next start (R651, R672). -/
def execUnlock (f : Nat) (host : HostRead) (s : State) : Res :=
  s.mailboxRead f 7 (f == 0) (fun s =>
    let s := s.mailRead f host
    match host with
    | .refused => (s, .eIovaFault, [])
    | .data d =>
      let b := s.mailBytes f d
      match s.imageErr 4 b with
      | some e => (s, e, [])
      | none =>
        let body := imgBody b
        if slice body 0 12 ≠ slice Config.serial 0 12 ∨ some (slice body 16 32) ≠ s.trust.nonce ∨
            8 ≤ fld body 12 4 then (s, .eSecDenied, [])
        else (s.setTrust { s.trust with token := some (fld body 12 4) }, .ok, []))

/-- RECOG_IMAGE: PF0 replaces the recogniser image, which takes effect at the first hop boundary without an open candidate; a failing
image is refused with E_AUD_MODEL (R206, R374, R375, R481, R651, R652). While PF0's link retrains the request stands in its ring (R501). -/
def execRecogImage (f tag : Nat) (host : ImageRead) (s : State) : Res :=
  if (s.link (s.linkOf f)).retraining then .next s
  else s.request f 0x74 tag false false .pf0 true (fun s =>
    let s := s.hostRead f host.iova.toNat host.len.toNat 6
    match host.answer with
    | .refused => s.reply f 0x74 tag .eIovaFault
    | .data b =>
      let s := s.accountFn f 3 host.len.toNat
      match s.imageErr 2 b with
      | some e => (s.logError 3 e 184 0).reply f 0x74 tag .eAudModel
      | none =>
        let d := sha256 (b.take (0x400 + imgLength b))
        (s.setMedia { s.media with nextImage := some (imgSvn b, d) }).reply f 0x74 tag .ok)

/-! Attestation (R642, R643, R655, R656). -/

/-- SEC_FUSE_STATE (Table 15.6): the fuses as Stage A copied them, so that one blown since shows from the next start on (R31, R639). The checks
of images read the fuses themselves (DEDUCED, log entry 161). -/
def State.fuseState (s : State) : Nat :=
  let t := s.trust
  b2n t.identityOk * 2 ^ 31 + b2n s.debugOpen * 2 ^ 30 + t.copied.2.2 * 2 ^ 24 + t.copied.2.1 * 2 ^ 17 + t.copied.1 % 16 * 16 +
    (List.range 4).foldl (fun acc i => acc + b2n (signerProgrammed i) * 2 ^ i) 0

/-- A measurement block (Table 15.9). -/
def State.measurement (s : State) (i : Nat) : Option (List Byte) :=
  let t := s.trust
  match i with
  | 1 => some Config.romDigest
  | 2 => some (toLE 4 s.fuseState ++ (List.range 4).flatMap (fun k => slice (Config.signerHash k) 0 32))
  | 3 => some t.runDigest
  | 4 => some (toLE 4 t.runSvn ++ toLE 4 t.runVersion)
  | 5 => some t.recogDigest
  | 6 => some t.setupDigest
  | 7 => some (toLE 4 (t.scope.getD 0))
  | 0xF0 => some (t.releases.flatMap Release.bytes)
  | _ => none

/-- PF0 and the lead function of link 1 carry SPDM (R655). -/
def State.carriesSpdm (s : State) (f : Nat) : Bool := f == 0 || (s.host.split && f == s.host.link1First)

/-- Send an SPDM response to a request: the fields the manual gives inside the standard's message. -/
def State.spdmAnswer (s : State) (f code : Nat) (req content : List Byte) : Res :=
  if !s.carriesSpdm f || s.errs.halted then .next s else .next (s.emit (.spdm f (Config.spdmBody code (req ++ content))))

/-- An SPDM ERROR response: version 1.2, code 0x7F, the error code, no data. -/
def spdmError (e : Nat) : List Byte := toLE 1 0x12 ++ toLE 1 0x7F ++ toLE 1 e ++ toLE 1 0

/-- A request after NEGOTIATE_ALGORITHMS: with IDENTITY_OK = 0 it is answered with ERROR, Unspecified (R643). -/
def State.spdmIdentity (s : State) (f : Nat) (k : State → Res) : Res :=
  if !s.carriesSpdm f || s.errs.halted then .next s
  else if !s.trust.identityOk then .next (s.emit (.spdm f (spdmError 0x05)))
  else k s

/-- GET_VERSION (R655): SPDM 1.2. -/
def execGetVersion (f : Nat) (req : List Byte) (s : State) : Res := s.spdmAnswer f 0x04 req (toLE 2 0x1200)

/-- GET_CAPABILITIES (R655): CTExponent 18; CERT_CAP, CHAL_CAP, MEAS_CAP with signature and MEAS_FRESH_CAP. -/
def execGetCapabilities (f : Nat) (req : List Byte) (s : State) : Res := s.spdmAnswer f 0x61 req (toLE 1 18 ++ toLE 4 0x36)

/-- NEGOTIATE_ALGORITHMS (R655): the DMTF measurement specification, MeasurementHashAlgo SHA-256, BaseAsymAlgo RSASSA-PSS 3072 and
BaseHashAlgo SHA-256, in the standard's bits (PRESUMED, log entry 121). -/
def execNegotiateAlgorithms (f : Nat) (req : List Byte) (s : State) : Res :=
  s.spdmAnswer f 0x63 req (toLE 1 1 ++ toLE 4 2 ++ toLE 4 8 ++ toLE 4 1)

/-- GET_DIGESTS (R643, R655): the digest of the chain in slot 0. -/
def execGetDigests (f : Nat) (req : List Byte) (s : State) : Res :=
  s.spdmIdentity f (fun s => s.spdmAnswer f 0x01 req (sha256 certificateChain))

/-- GET_CERTIFICATE (R642, R643, R655): bytes of the chain in slot 0, the only slot. -/
def execGetCertificate (f slot off len : Nat) (req : List Byte) (s : State) : Res :=
  s.spdmIdentity f (fun s =>
    if slot ≠ 0 then .next (s.emit (.spdm f (spdmError 0x01)))
    else s.spdmAnswer f 0x02 req ((certificateChain.drop off).take len))

/-- CHALLENGE (R643, R655, R656): signed with the identity key. -/
def execChallenge (f : Nat) (req : List Byte) (s : State) : Res :=
  s.spdmIdentity f (fun s =>
    let body := sha256 certificateChain ++ (rangeFrom 1 7).flatMap (fun i => (s.measurement i).getD [])
    s.spdmAnswer f 0x03 req (body ++ identitySign (req ++ body)))

/-- GET_MEASUREMENTS (R643, R655, R656, Table 15.9): index 0 asks for the number of blocks, 0xFF for all of them. -/
def execGetMeasurements (f index : Nat) (req : List Byte) (s : State) : Res :=
  s.spdmIdentity f (fun s =>
    let ids := rangeFrom 1 7 ++ [0xF0]
    let body := if index = 0 then some (toLE 1 ids.length)
      else if index = 0xFF then some (ids.flatMap (fun i => (s.measurement i).getD []))
      else s.measurement index
    match body with
    | some b => s.spdmAnswer f 0x60 req (b ++ identitySign (req ++ b))
    | none => .next (s.emit (.spdm f (spdmError 0x01))))

/-- SPDM_UNSUPPORTED_REQUEST: every other request is answered with ERROR, UnsupportedRequest (R655); with IDENTITY_OK = 0 it is answered
Unspecified, like every request after NEGOTIATE_ALGORITHMS (R643; DEDUCED, log entry 121). -/
def execSpdmUnsupportedRequest (f : Nat) (s : State) : Res :=
  s.spdmIdentity f (fun s => .next (s.emit (.spdm f (spdmError 0x07))))

end Sys2Proof.Machine
end

