-- ==== Sys2Proof/Machine/Links.lean ====
section
/-!
DEFINITION. Links, resets of functions, limits and weights, the aperture, time, and delivery of management events (R494 to R513,
R537 to R541, R545 to R556, R564, R580, R581, R608, R609, R716 to R719).
-/
namespace Sys2Proof.Machine

/-- QUE_LINK_STATUS as a word (Table 11.2). -/
def Link.status (x : Link) : Nat :=
  x.dbIgnored * 65536 + x.retrains * 256 + b2n x.belowFloor * 128 + x.width * 4 + x.speed

/-- The functions presented on a link (Table 11.1). -/
def State.fnsOf (s : State) (l : Nat) : List Nat := (List.range 32).filter (fun f => s.linkOf f == l)

/-- The link exists in the mode in force (Table 11.1). -/
def State.hasLink (s : State) (l : Nat) : Bool := l == 0 || (l == 1 && s.host.split)

/-- Give a link a new record; a change of SPEED or WIDTH is an event to PF0 (R744). -/
def State.changeLink (s : State) (l : Nat) (x : Link) : State :=
  let y := s.link l
  let s := s.setLink l x
  let s := if x.up then s else s.setHop l Hop.empty
  if x.speed = y.speed ∧ x.width = y.width then s else s.event 0 .linkChange (toLE 4 l ++ toLE 4 x.status)

/-! Management events (R553, R554, R716, R717). -/

/-- Write the oldest held event to a function's event ring, if there is one, the ring has space and the function's link is up, and send
vector 0's message (R692, R716, R717; DESIGN CHOICE, log entry 210). -/
def State.deliver (s : State) (f : Nat) : State :=
  let x := s.fn f
  match x.held with
  | [] => s
  | e :: es =>
    if 1024 ≤ diff32 x.evtTail.toNat x.evtHead.toNat ∨ (s.link (s.linkOf f)).up = false then s
    else
      let bytes := msgHeader e.code.num e.payload.length 0 0 f 0 ++ e.payload
      (s.setFn f { x with
        held := es, evtRing := Tbl.put x.evtRing (x.evtTail.toNat % 1024) bytes, evtTail := x.evtTail + 1 }).sendMsg f 0

/-- MGMT_EVENT_DELIVER: space is free in a function's event ring, its link is up, and its oldest held event is written there (R513, R553, R554,
R716, R717, R744). -/
def execMgmtEventDeliver (f : Nat) (s : State) : Res := .next (s.deliver f)

/-- UNKNOWN_OPCODE_REQUEST: a management request with an unknown OPCODE, a wrong LENGTH or a set reserved bit (R718). -/
def execUnknownOpcodeRequest (f op tag : Nat) (s : State) : Res :=
  s.request f op tag ([0x01, 0x02, 0x64, 0x73, 0xA0, 0xA1].contains op) (op == 0xA0 || op == 0xA1) .any false (fun s => s)

/-! The aperture (R507 to R509). -/

/-- MEM_APT[j] exists for the function (R507). -/
def aptExists (f j : Nat) : Bool := decide (1 ≤ j) && decide (j ≤ if f = 0 then 4095 else 511)

/-- The partition a page is granted to. -/
def State.pageOwner (s : State) (pg : Nat) : Option Nat :=
  (Tbl.keys s.work.parts).find? (fun p => match s.part p with
    | some x => x.ownsPage pg
    | none => false)

/-- A page may be mapped by a function: it is granted to a partition of the function that holds no weight slot, and is neither
withheld nor retired (R508, R703, R709). -/
def State.aptOk (s : State) (f pg : Nat) : Bool :=
  !s.withheld pg && (match s.pageOwner pg with
    | some p => s.ownsPart f p && (Tbl.find s.trust.weightKeys p).isNone
    | none => false)

/-- MEM_APT_WRITE: a function writes MEM_APT[j]: it maps the page named, is refused, or unmaps (R508, R703, R709, Table 11.5). -/
def execMemAptWrite (f j value : Nat) (s : State) : Res :=
  s.regWrite (aptExists f j) (fun s =>
    let x := s.fn f
    let pg := bits value 15 0
    let old := (Tbl.get (0 : Word) x.apt j).toNat
    let v := if bit value 31 then (if s.aptOk f pg then 2 ^ 31 + pg else 2 ^ 30 + pg) else b2n (bit old 30) * 2 ^ 30 + pg
    s.setFn f { x with apt := Tbl.set 0 x.apt j (BitVec.ofNat 32 v) })

/-- A word of the control block (Table 17.3). -/
def State.controlWord (s : State) (f i : Nat) : Word :=
  let x := s.fn f
  let r := s.host.logRing
  match i with
  | 0 => x.reqTail
  | 1 => x.reqHead
  | 2 => x.repHead
  | 3 => x.repTail
  | 4 => x.evtHead
  | 5 => x.evtTail
  | 6 => x.eventsLost
  | 7 => if f = 0 then r.head else 0
  | 8 => if f = 0 then r.tail else 0
  | 9 => if f = 0 then r.lost else 0
  | 10 => if f = 0 then BitVec.ofNat 32 r.level else 0
  | _ => 0

/-- Write a word of the control block: the host's own fields only (Table 17.3). -/
def State.putControl (s : State) (f i v : Nat) : State :=
  let x := s.fn f
  let r := s.host.logRing
  let w := BitVec.ofNat 32 v
  match i with
  | 0 => s.setFn f { x with reqTail := w }
  | 2 => s.setFn f { x with repHead := w }
  | 4 => s.setFn f { x with evtHead := w }
  | 7 => if f = 0 then { s with host := { s.host with logRing := { r with head := w } } } else s
  | 10 => if f = 0 then { s with host := { s.host with logRing := { r with level := v % 4 } } } else s
  | _ => s

/-- A slot of a ring as it lies in the management area, `size` bytes. -/
def ringSlot (t : Tbl (List Byte)) (size i : Nat) : List Byte := slice (Tbl.get [] t i) 0 size

/-- A host write of bytes to a function's management area: the words of the control block, and the request ring (Table 17.2). -/
def State.areaWrite (s : State) (f off : Nat) (data : List Byte) : State :=
  if 0x10000 ≤ off ∧ off + data.length ≤ 0x50000 then
    s.setFn f { s.fn f with reqRing := Memory.writeN [] (s.fn f).reqRing off data }
  else if off % 4 = 0 ∧ data.length = 4 then s.putControl f (off / 4) (leNat data)
  else s

/-- One byte of a function's management area (Table 17.2). A byte of the request ring that the host has not written reads as 0 (DESIGN
CHOICE, log entry 184). -/
def State.areaByte (s : State) (f off : Nat) : Byte :=
  let x := s.fn f
  if off < 0x2C then BitVec.ofNat 8 ((s.controlWord f (off / 4)).toNat / 256 ^ (off % 4))
  else if 0x10000 ≤ off ∧ off < 0x50000 then Memory.read [] x.reqRing off
  else if 0x50000 ≤ off ∧ off < 0x90000 then (ringSlot x.repRing 512 ((off - 0x50000) / 512)).getD (off % 512) 0
  else if 0x90000 ≤ off ∧ off < 0xB0000 then (ringSlot x.evtRing 128 ((off - 0x90000) / 128)).getD (off % 128) 0
  else if 0xB0000 ≤ off ∧ off < 0xF0000 ∧ f = 0 then (ringSlot s.host.logRing.ring 64 ((off - 0xB0000) / 64)).getD (off % 64) 0
  else 0

/-- A host read of a mapped page: plaintext, with the EP bit for poison (R509). All ones answer a page that is not mapped or whose
stack does not serve. -/
def State.aptRead (s : State) (f p a n : Nat) : State :=
  if !s.stacksOn a n then s.emit (.barRead f (List.replicate n 0xFF) false)
  else if s.memHeld a n then
    { s with mem := { s.mem with held := s.mem.held ++ [{
        part := p, gen := s.gen p, write := false, addr := a, len := n, data := [], ecc := 0, cls := 2, bar := some f }] } }
  else ((s.accountStacked none p 2 false a n).account none p 4 n).emit (.barRead f (s.readMem a n) (s.poisoned a n))

/-- A host access within one 2 MiB page of BAR2: page 0 is the management area, page j the page that MEM_APT[j] names (R507, R509). -/
def State.bar2Access (s : State) (f off n : Nat) (write : Bool) (data : List Byte) : State :=
  if off < 0x200000 then
    if write then (s.accountFn f 3 n).areaWrite f off data
    else (s.accountFn f 4 n).emit (.barRead f ((rangeFrom off n).map (s.areaByte f)) false)
  else
    let e := (Tbl.get (0 : Word) (s.fn f).apt (off / 0x200000)).toNat
    let a := bits e 15 0 * 0x200000 + off % 0x200000
    match bit e 31, s.pageOwner (bits e 15 0), write with
    | true, some p, false => s.aptRead f p a n
    | true, some p, true => if s.stacksOn a n then (s.account none p 3 n).sliceWrite p (s.gen p) a data else s
    | _, _, false => s.emit (.barRead f (List.replicate n 0xFF) false)
    | _, _, true => s

/-- The parts of a range of BAR2 that lie in single 2 MiB pages. -/
def pagePieces (off n : Nat) : List (Nat × Nat) :=
  (rangeFrom (off / 0x200000) ((off + n + 0x1FFFFF) / 0x200000 - off / 0x200000)).map (fun j =>
    (max off (j * 0x200000), min (off + n) ((j + 1) * 0x200000) - max off (j * 0x200000)))

/-- APERTURE_ACCESS: a host access to BAR2 of `n` bytes at an offset reads or writes the management area or mapped pages (R507,
R509, R693, R731). A write carries its bytes in `data`. The fatal halt leaves the management area, through which its messages pass, and no
request is answered while the module is off or saved. -/
def execApertureAccess (f off n : Nat) (write : Bool) (data : List Byte) (s : State) : Res :=
  if !s.pwr.aon then .next s
  else
    let ps := (pagePieces off n).filter (fun e => !s.errs.halted || decide (e.1 < 0x200000))
    .next (ps.foldl (fun s e => s.bar2Access f e.1 e.2 write (slice data (e.1 - off) e.2)) s)

/-! Resets of functions (R555, R556, R561, R649, R719, Table 12.6). -/

/-- A context of a reset function takes its Warm values; its fetched descriptors are only counted, and the fetches on
their way remembered (R561, R562). -/
def State.resetCtx (s : State) (n : Nat) : State :=
  let c := s.ctx n
  let ds := c.descs.filter (fun d => !(d.phase == .fetching))
  let s := if c.active then s.setJob c.part (fun j => if j.step < 6 then { j with
      descAborted := j.descAborted + ds.length
      fetches := j.fetches ++ (c.descs.filter (fun d => d.phase == .fetching)).map (fun _ => n) } else j) else s
  let s := ds.foldl (fun s d => s.closeReservation n d.idx) s
  s.setCtx n Ctx.reset

/-- An event is a final Clearing report (FINAL of Table 12.10). -/
def Event.final (e : Event) : Bool := e.code == .clearingReport && bit (fld e.payload 0 4) 19

/-- The final Clearing reports that stand unread in an event ring, oldest first, as events that wait again. -/
def Fn.unreadFinals (x : Fn) : List Event :=
  ((List.range (diff32 x.evtTail.toNat x.evtHead.toNat)).map (fun i =>
    let r := Tbl.get [] x.evtRing ((x.evtHead.toNat + i) % 1024)
    ({ code := if fld r 0 2 = Status.clearingReport.num then .clearingReport else .ok, payload := slice r 32 32, keep := true } : Event))).filter
      Event.final

/-- The management rings of a function are emptied: unanswered requests and events that wait are gone, those in the event ring with
them, but no final Clearing report to PF0 (R554, R719). PF0's state requests and a firmware load that waits go with its requests. -/
def State.emptyRings (s : State) (f : Nat) : State :=
  let x := s.fn f
  let s := s.setFn f { x with
    reqTail := 0, reqHead := 0, repHead := 0, repTail := 0, evtHead := 0, evtTail := 0, repRing := [], evtRing := [], owed := [],
    held := if f = 0 then x.unreadFinals ++ x.held.filter Event.final else [] }
  if f = 0 then
    s.setPwr { s.pwr with
      pending := none, waiting := [], transit := s.pwr.transit.map (fun t => { t with req := none }),
      fw := { s.pwr.fw with early := none } }
  else s

/-- The other registers of a function take their Warm values (R649, R728); the words latched for it stay (R24). -/
def State.warmFn (s : State) (f : Nat) : State :=
  let x := s.fn f
  let s := s.setFn f { x with masked := [], pba := [], msix := [], apt := [], accessErr := 0 }
  let m := s.mbox f
  s.setMbox f { Mbox.reset with lost := m.lost ++ m.run.toList }

/-- Reset one function: its partitions are cleared under a trigger, its contexts disabled, its rings emptied and its registers
brought to Warm (Table 12.6). -/
def State.resetFn (s : State) (trigger f : Nat) : State :=
  let own := (Tbl.keys s.work.parts).filter (fun p => match s.part p with
    | some x => x.fn == f
    | none => false)
  let s := own.foldl (fun s p => s.triggerClearing p trigger) s
  let s := ((Tbl.keys s.work.ctxs).filter (fun n => s.ctxFn n == f)).foldl State.resetCtx s
  let s := (s.emptyRings f).warmFn f
  let x := s.fn f
  let busy := (Tbl.keys s.work.clearings).any (fun p => match s.job p with
    | some j => j.fn == f && decide (j.step < 6)
    | none => false)
  s.setFn f { x with flrBusy := busy, inReset := busy || (s.link (s.linkOf f)).perst, disabled := x.disabled || (trigger == 3 && !own.isEmpty) }

/-- Reset the functions of a link, with the device-wide registers that have Warm values for link 0: the TRC block and CLK_CORE_MODE
(R502, R556, Tables 12.6, 13.7 and 17.8). -/
def State.resetLink (s : State) (l : Nat) : State :=
  let s := (s.fnsOf l).foldl (fun s f => s.resetFn 4 f) s
  if l = 0 then
    (Tbl.keys s.cpu.cores).foldl (fun s n => s.setCore n { s.core n with allow := 0 })
      { s with host := { s.host with trace := { Trace.reset with seq := s.host.trace.seq } } }
  else s

/-- A link is down: its registers are at Warm, and it is no longer synchronised; one that was removed has still not come back (R502, R538,
R581, Table 11.2). -/
def Link.down (x : Link) : Link :=
  { x with dbIgnored := 0, retrains := 0, width := 0, speed := 0, belowFloor := false, up := false, retraining := false, ptm := false }

/-- PERST_ASSERT: a link's PERST_N is asserted. Before the link first reached L0 after the start it is part of the start; else it
is a link reset (R502, R556, R580, R609). -/
def execPerstAssert (l : Nat) (s : State) : Res :=
  let x := s.link l
  if !s.hasLink l || x.perst then .next s
  else if !x.reached then .next (s.setLink l { x with perst := true })
  else .next ((s.setLink l { x with perst := true }).resetLink l |>.changeLink l { x.down with perst := true })

/-- PERST_RELEASE: a link's PERST_N is released and its functions' configuration space answers (R608, R609). -/
def execPerstRelease (l : Nat) (s : State) : Res :=
  let x := s.link l
  if !s.hasLink l || !x.perst then .next s
  else
    let s := s.setLink l { x with perst := false }
    .next ((s.fnsOf l).foldl State.settleFlr s)

/-- DL_DOWN: a link that was up goes down, which acts as its PERST_N; the removal that a state entry asked for resets nothing (R502,
R538, R580). -/
def execDlDown (l : Nat) (s : State) : Res :=
  let x := s.link l
  if !s.hasLink l || !x.up then .next s
  else .next ((s.resetLink l).changeLink l x.down)

/-- VF_DISABLE: VF Enable is cleared in the SR-IOV capability of PF0 (`l` = 0) or of the lead function of link 1 (`l` = 1), and its VFs
are disabled (R496, R556). -/
def execVfDisable (l : Nat) (s : State) : Res :=
  if !s.hasLink l then .next s
  else .next (((s.fnsOf l).filter (fun f => f != 0 && !(s.host.split && f == s.host.link1First))).foldl (fun s f => s.resetFn 3 f) s)

/-- FLR: a function-level reset of a VF; PF0 and the lead function of link 1 do not offer one (R555, R556). -/
def execFlr (f : Nat) (s : State) : Res :=
  if f = 0 ∨ (s.host.split = true ∧ f = s.host.link1First) then .next s else .next (s.resetFn 2 f)

/-! Training (R498, R500, R501, R581). -/

/-- A link's domains are powered and its training can start (Table 14.1 step 8, R610). -/
def State.linkPowered (s : State) (l : Nat) : Bool :=
  s.pwr.stageADone && !s.pwr.aFault && s.domainOn (168 + l)

/-- SPEED and WIDTH codes that a link can reach (R498, Table 11.2). -/
def State.rateOk (s : State) (l speed width : Nat) : Bool :=
  decide (speed ≤ 3) && inRange width 1 5 && !(width == 4 && (l == 1 || s.host.split))

/-- A link runs at a speed and width (R500). -/
def Link.at_ (x : Link) (speed width : Nat) : Link :=
  { x with speed := speed, width := width, belowFloor := speed == 0 || width == 5 }

/-- LINK_UP: a link reaches L0 at a speed and width; WAKE_N is released unless the other link still has to come back, a FIRMWARE_LOST that
is due goes out, and wake events held for its functions (R488, R498, R500, R572, R581). -/
def execLinkUp (l speed width : Nat) (s : State) : Res :=
  let x := s.link l
  if !s.hasLink l || !s.linkPowered l || x.perst || x.up || !s.rateOk l speed width then .next s
  else
    let due := s.pwr.fwLostDue
    let s := s.setPwr { s.pwr with wakeLow := s.pwr.wakeLow && (s.link (1 - l)).removed, fwLostDue := false }
    let s := s.changeLink l { x.at_ speed width with up := true, reached := true, removed := false, retraining := false }
    .next ((if due then s.event 0 .firmwareLost [] else s).deliverWakes)

/-- The checks of R495 on a link record. -/
def linkRecordOk (r : List Byte) : Bool :=
  let w := fld r 0 4
  let split := bit w 0
  bits w 7 3 == 0 && bits w 15 13 == 0 && bits w 31 23 == 0 && (!split || inRange (bits w 12 8) 2 31) &&
  inRange (bits w 22 16) 0x08 0x77 && (rangeFrom 1 31).all (fun f => inRange (fld r (3 + f) 1) 1 64) &&
  zeroBytes r 0x23 29 && decide ((rangeFrom 1 31).foldl (fun acc f => acc + fld r (3 + f) 1) 0 ≤ 1984)

/-- LINK_RECORD: PF0 stores a link record, which takes effect at the next power-on (R494, R495). -/
def execLinkRecord (f tag : Nat) (raw : List Byte) (s : State) : Res :=
  let r := slice raw 0 64
  s.request f 0x90 tag false false .pf0 (linkRecordOk r) (fun s =>
    (s.setPwr { s.pwr with linkRec := some r }).reply f 0x90 tag .ok)

/-! Time (R537 to R541). -/

/-- PTM_DIALOGUE: a dialogue with the host of a link in L0 completes and gives the host's PTM time in nanoseconds (R538, R539). -/
def execPtmDialogue (l hostTime : Nat) (s : State) : Res :=
  let x := s.link l
  if !x.up || x.retraining then .next s
  else .next (s.setLink l { x with ptm := true, ptmOffset := (hostTime % 2 ^ 62 + 2 ^ 62 - s.nowNs % 2 ^ 62) % 2 ^ 62 })

/-- PTM_SYNC_TIMEOUT: 100 ms pass without a dialogue and the link is no longer synchronised (R538). -/
def execPtmSyncTimeout (l : Nat) (s : State) : Res :=
  let x := s.link l
  .next (if x.ptm then s.setLink l { x with ptm := false, ptmOffset := 0 } else s)

/-- STAMP_ALIGN: an island aligns its stamp counter to the reference counter (R537, R539). -/
def execStampAlign (i : Nat) (s : State) : Res :=
  .next { s with host := { s.host with aligned := Tbl.set 0 s.host.aligned i s.host.refTicks } }

/-! Limits, weights and groups (R548, R549). -/

/-- FN_LIMIT_WRITE: PF0 sets the limits of function t, as a whole or not at all (R548, Table 12.1). -/
def execFnLimitWrite (f t value : Nat) (s : State) : Res :=
  s.regWrite (f == 0) (fun s =>
    let x := s.fn t
    let parts := bits value 30 24
    let pages := bits value 23 8
    let cores := bits value 7 0
    let h := s.held t
    if parts ≤ 64 ∧ cores ≤ 128 ∧ h.length ≤ parts ∧ coresHeld h ≤ cores ∧ (pages = 0xFFFF ∨ pagesHeld h ≤ pages) then
      s.setFn t { x with limParts := parts, limPages := pages, limCores := cores, limRefused := false }
    else s.setFn t { x with limRefused := true })

/-- The sum of a weight over the 32 functions with function t's at a new value. -/
def State.weightSum (s : State) (w : Fn → Nat) (t v : Nat) : Nat :=
  (List.range 32).foldl (fun acc f => acc + if f = t then v else w (s.fn f)) 0

/-- FN_QOS_WRITE: PF0 sets the weights of function t, as a whole or not at all (R548, Table 12.4). -/
def execFnQosWrite (f t value : Nat) (s : State) : Res :=
  s.regWrite (f == 0) (fun s =>
    let x := s.fn t
    let e := bits value 26 18
    let pc := bits value 17 9
    let m := bits value 8 0
    if e ≤ 256 ∧ pc ≤ 256 ∧ m ≤ 256 ∧ s.weightSum Fn.wEnergy t e ≤ 256 ∧ s.weightSum Fn.wPcie t pc ≤ 256 ∧
        s.weightSum Fn.wMem t m ≤ 256 ∧ shareHeld (s.held t) ≤ m then
      s.setFn t { x with wEnergy := e, wPcie := pc, wMem := m, qosRefused := false }
    else s.setFn t { x with qosRefused := true })

/-- FN_GROUP_OWNER_WRITE: PF0 assigns context group g, refused while a context of it is ACTIVE (R549, Table 12.3). -/
def execFnGroupOwnerWrite (f g value : Nat) (s : State) : Res :=
  s.regWrite (f == 0) (fun s =>
    let new := bits value 4 0
    let busy := (rangeFrom (64 * g) 64).any (fun n => (s.ctx n).active)
    let h := s.host
    if new ≠ Tbl.get 0 h.groupOwner g ∧ busy = true then
      { s with host := { h with groupRefused := Tbl.set false h.groupRefused g true } }
    else
      { s with host := { h with
          groupOwner := Tbl.set 0 h.groupOwner g new, groupRefused := Tbl.set false h.groupRefused g false } })

/-! Tally's findings (R564, R682). -/

/-- Record a violation in TLY_FATAL_POOL and TLY_FATAL_DIFF, the first since power-on only (Table 16.2). -/
def State.tallyRecord (s : State) (pool part : Nat) (device : Bool) (diff : Int) : State :=
  let e := s.errs
  if e.tlyValid then s
  else
    { s with errs := { e with
        tlyPool := pool, tlyValid := true, tlyDevice := device, tlyPart := if device then 0 else part,
        tlyDiff := clampInt diff (-8388608) 8388607 } }

/-- The island of a pool: its issuer's (R678). -/
def poolIsland (pool : Nat) : Nat := bits pool 28 21

/-- A guarantee is void for a pool: an uncorrectable error was reported in its issuer's or receiver's island (R677). -/
def State.poolDirty (s : State) (pool : Nat) : Bool :=
  Tbl.get false s.errs.dirty (bits pool 28 21) || Tbl.get false s.errs.dirty (bits pool 20 13)

/-- Retire a partition identifier until power-on (R564, R682). -/
def State.retirePart (s : State) (p : Nat) : State :=
  if s.work.retired.contains p then s else { s with work := { s.work with retired := p :: s.work.retired } }

/-- Report a partition-scope violation to PF0 and the owner, and retire the identifier (R682, R691). -/
def State.tallyPart (s : State) (pool p : Nat) (diff : Int) : State :=
  let f := s.partFn p
  let s := (s.tallyRecord pool p false diff).contained .eTallyViolation (poolIsland pool) pool (s.poolDirty pool)
  let s := if f = 0 then s else s.event f .eTallyViolation (toLE 8 pool)
  s.retirePart p

/-- TALLY_CLEARING_TIMEOUT: 10 ms after step 7 of a Clearing a pool's credits are not all home: the violation is recorded with the
pool's name, the Clearing ends, and the identifier stays retired (R564, R682). -/
def execTallyClearingTimeout (p pool : Nat) (diff : Int) (s : State) : Res :=
  match s.job p with
  | some j => if j.step < 7 ∨ s.errs.halted = true then .next s else .next ((s.tallyPart pool p diff).clearFinish p).checkPending
  | none => .next s

end Sys2Proof.Machine
end

