-- ==== Sys2Proof/Machine/Spares.lean ====
section
/-!
DEFINITION. Conservation, errors, wear and spares, and the records that report them (R542, R543, R659, R679 to R706).
-/
namespace Sys2Proof.Machine

/-! Records of the error log and the spare map. -/

/-- The bytes of an error-log entry (Table 16.5). -/
def ErrEntry.bytes (e : ErrEntry) (seq : Nat) : List Byte :=
  toLE 4 seq ++ toLE 4 e.startNo ++ toLE 8 e.time ++ toLE 4 (e.cls + b2n e.priorUe * 4 + e.source * 256 + e.code.num * 65536) ++
    toLE 4 e.count ++ toLE 8 e.detail

/-- The entry of a SEQ_NO while the log holds it: the newest has SEQ_NO equal to the number of entries since manufacture. -/
def State.errEntry (s : State) (seq : Nat) : Option (List Byte) :=
  if seq = 0 ∨ s.errs.seqNo < seq then none
  else (s.errs.log[s.errs.seqNo - seq]?).map (fun e => e.bytes seq)

/-- The bytes of a spare-map record (Table 16.8). -/
def SpareRec.bytes (r : SpareRec) : List Byte :=
  toLE 4 (r.kind + r.cause * 16) ++ toLE 4 r.startNo ++ toLE 8 r.time ++ toLE 4 r.logical ++ toLE 4 r.physical ++ toLE 4 r.spare ++ toLE 4 0

def State.spareBytes (s : State) (i : Nat) : Option (List Byte) := (s.errs.spares[i]?).map SpareRec.bytes

/-- Usable logical cores. -/
def State.usableCores (s : State) : List Nat := (List.range 128).filter (fun n => !Tbl.get false s.errs.retiredCores n)

/-- SPR_SUMMARY (Table 16.9). -/
def State.sprSummary (s : State) : Nat :=
  let e := s.errs
  if !e.filled then 0
  else
    ((List.range 16).filter (fun k => !Tbl.get false e.spareCoreUsed k)).length * 2 ^ 27 +
    (List.range 4).foldl (fun acc st => acc + (4 - Tbl.get 0 e.slicesUsed st)) 0 * 2 ^ 22 +
    s.usableCores.foldl (fun acc n => acc + (4 - Tbl.get 0 e.enginesUsed n)) 0 * 2 ^ 12 + s.usableCores.length * 16

/-- SPR_LANES (Table 16.9): directions 2·link + (0 up, 1 down). -/
def State.sprLanes (s : State) : Nat :=
  if !s.errs.filled then 0
  else (List.range 4).foldl (fun acc i => acc + (40 - Tbl.get 0 s.errs.lanesUsed i) * 2 ^ (6 * i)) 0

/-- ERRLOG_READ: a function reads the entry of a SEQ_NO; an empty payload answers one the log does not hold (R616, R693, R694). -/
def execErrlogRead (f tag seq : Nat) (s : State) : Res :=
  s.request f 0xA0 tag true true .any true (fun s => s.reply f 0xA0 tag .ok ((s.errEntry seq).getD []))

/-- SPARE_READ: a function reads the spare-map record of an index; an empty payload answers one that does not exist (R616, R693,
R704). -/
def execSpareRead (f tag i : Nat) (s : State) : Res :=
  s.request f 0xA1 tag true true .any true (fun s => s.reply f 0xA1 tag .ok ((s.spareBytes i).getD []))

/-! The SMBus port (R542, R543, R610, R695). -/

/-- The port answers while AON is powered. -/
def State.smbus (s : State) (k : State → State) : Res := if s.pwr.aon then .next (k s) else .next s

/-- An answer leaves as packets of the baseline MTU of 64 bytes, each with its error code (R542). -/
def State.smbusSend (s : State) (bytes : List Byte) : State :=
  (List.range (max 1 (cdiv bytes.length 64))).foldl (fun (s : State) i =>
    let b := (bytes.drop (64 * i)).take 64
    s.emit (.smbus s.host.smbusAddr b (Config.smbusPec s.host.smbusAddr b))) s

/-- The endpoint ID after an MCTP control message: Set Endpoint ID (code 1) whose operation sets or forces one gives the port the EID that
follows it (R542; the codes are MCTP's: PRESUMED, log entry 123). -/
def mctpEid (eid code : Nat) : List Byte → Nat
  | op :: id :: _ => if code = 1 ∧ op.toNat % 4 < 2 then id.toNat else eid
  | _ => eid

/-- SMBUS_MCTP_CONTROL: an MCTP control message of a command code and its body. The answer's bytes are MCTP's (R542, R543). -/
def execSmbusMctpControl (code : Nat) (body : List Byte) (s : State) : Res :=
  s.smbus (fun s =>
    let s := { s with host := { s.host with eid := mctpEid s.host.eid code body } }
    s.smbusSend (Config.mctpBody s.host.eid code body))

/-- The reading of a sensor of Table 11.16 in row order, temperatures signed; the input voltage and power are what their meters read. No
stack that has not reported since the start counts; where none has, the reading is 0 (DESIGN CHOICE, log entry 211). -/
def State.sensor (s : State) (i meter : Nat) : Int :=
  match i with
  | 0 => s.pwr.thermal.junction
  | 1 => (match s.mem.temp.map (·.2) with
    | [] => 0
    | t :: ts => ts.foldl max t)
  | 2 => meter
  | 3 => meter
  | 4 => s.pwr.state
  | 5 => s.pwr.startBanks
  | 6 => b2n (!s.pwr.safeLow) + 2 * b2n (!s.pwr.faultLow)
  | _ => 0

/-- SMBUS_PLDM_SENSOR_READ: the port answers a PLDM sensor reading (R543, Table 11.16). -/
def execSmbusPldmSensorRead (i meter : Nat) (s : State) : Res := s.smbus (fun s => s.smbusSend (toLE 4 (wrap 32 (s.sensor i meter))))

/-- SMBUS_ERRLOG_SUMMARY: the newest SEQ_NO, the contained and fatal entry counts, and whether the self-check of Stage A failed (R610,
R695). -/
def execSmbusErrlogSummary (s : State) : Res :=
  s.smbus (fun s => s.smbusSend (toLE 4 s.errs.seqNo ++ toLE 4 s.errs.contained ++ toLE 4 s.errs.fatal ++ toLE 4 (b2n s.pwr.aFault)))

/-- SMBUS_ERRLOG_ENTRY: the entry of a SEQ_NO (R695). -/
def execSmbusErrlogEntry (seq : Nat) (s : State) : Res := s.smbus (fun s => s.smbusSend ((s.errEntry seq).getD []))

/-- SMBUS_SPARE_SUMMARY: SPR_SUMMARY, SPR_LANES and the number of records (R695). -/
def execSmbusSpareSummary (s : State) : Res :=
  s.smbus (fun s => s.smbusSend (toLE 4 s.sprSummary ++ toLE 4 s.sprLanes ++ toLE 4 s.errs.spares.length))

/-- SMBUS_SPARE_RECORD: the record of an index (R695). -/
def execSmbusSpareRecord (i : Nat) (s : State) : Res := s.smbus (fun s => s.smbusSend ((s.spareBytes i).getD []))

/-! Fatal errors (R691 to R693). -/

/-- Windfall is disarmed: an error-log entry and the event to PF0 (R622, R623). -/
def State.disarm (s : State) : State :=
  if s.pwr.armed then
    ((s.setPwr { s.pwr with armed := false }).logError 3 .windfallDisarmed 185 0).event 0 .windfallDisarmed []
  else s

/-- Enter the fatal halt: islands stop, the pins go low, Windfall is disarmed, the entry is written and the event goes to PF0 (Table
16.4). -/
def State.fatal (s : State) (code : Status) (island detail : Nat) (prior : Bool) : State :=
  let s := { s with errs := { s.errs with halted := true, dirty := Tbl.set false s.errs.dirty island true } }
  let s := ((s.driveFault 4).driveSafe 4).disarm
  ((s.logError 2 code island detail prior).event 0 code (toLE 8 detail) true).emit (.aer true s.aerFatal)

/-- FATAL_HALT: an uncorrectable error in the sync-object table, the sequence table, the fabric credit state or the root of trust's
own memory, at an island (R691 to R693). -/
def execFatalHalt (island detail : Nat) (s : State) : Res :=
  if s.errs.halted || !s.pwr.aon then .next s else .next (s.fatal .eFatalHalt island detail false)

/-! Tally (R675 to R682, R689). -/

/-- The imbalance of a pool of KIND 0 to 2 and whether its audit passes; the credits in hand and the returns that stand against the pool's
size are those of step 1 (R680). -/
def auditDiff (c : AuditCounts) : Int := sdiff32 (diff32 c.i c.f) c.o
def auditPasses (c : AuditCounts) (kind : Nat) : Bool :=
  diff32 c.i c.f == c.o % 2 ^ 32 && c.r % 2 ^ 32 == c.f % 2 ^ 32 && (kind != 0 || (c.h + diff32 c.i c.r0) % 2 ^ 32 == c.size % 2 ^ 32) &&
    !c.foreign

/-- The energy of the ledger's window: sub-allowances left, C, open reservations and charged debits, less A, in 1/1,024 µJ (R680). -/
def State.energyDiff (s : State) : Int :=
  let l := s.pwr.ledger
  let avail := (List.range 32).foldl (fun acc f => acc + Tbl.get 0 l.avail f) 0
  ((avail + s.openReserved + l.debited : Nat) : Int) - (l.sharedDue : Int) + l.pool - ((l.curA * 1024 : Nat) : Int)

/-- A failed audit of a partition's pool: the violation is reported, its cores stop at once and its Clearing runs (R682). -/
def State.violatePart (s : State) (pool p : Nat) (diff : Int) : State :=
  let s := (s.tallyPart pool p diff).triggerClearing p 5
  match s.part p, s.job p with
  | some x, some j => if j.step < 6 then s.stallUpdate p (s.clearEarly p x j) else s
  | _, _ => s

/-- Step 3 of an audit: the epoch of a pool is over (R679, R681). -/
def State.endAudit (s : State) (pool : Nat) : State :=
  { s with errs := { s.errs with audits := s.errs.audits.filter (fun x => x != pool) } }

/-- The logical core of an island index, when it is one. -/
def islandCore (i : Nat) : Option Nat :=
  if i < 168 ∧ i % 84 < 72 ∧ i % 84 % 9 < 8 then some (i / 84 * 64 + i % 84 / 9 * 8 + i % 84 % 9) else none

/-- Every signal released is in flight, or was applied or dropped (R675, R680). -/
def State.signalsHome (s : State) : Bool := s.cpu.sync.released == s.cpu.sync.applied + s.cpu.sync.flight.length

/-- The partition whose scope a violation of a pool has: the owner of the core whose commit queue or own link it is; the holder of a
descriptor slot or CQ reservation, which is a pool of KIND 1 other than an escape slot; and a partition whose Clearing waits on it (R682). -/
def State.violator (s : State) (pool : Nat) (holder : Option Nat) (foreign : Bool) : Option Nat :=
  let kind := bits pool 31 29
  let own := if kind < 2 ∧ bits pool 28 21 = bits pool 20 13 then (islandCore (bits pool 28 21)).bind s.coreOwner else none
  match own with
  | some p => some p
  | none => holder.filter (fun p => (s.part p).isSome && ((kind == 1 && !foreign) || (kind != 3 && (s.job p).any (fun j => decide (7 ≤ j.step)))))

/-- TALLY_AUDIT: Tally audits a pool by markers; a failed audit is a violation of one partition's scope or of the device's. The audit of signals
asks also that those the module counts are all accounted for (R675, R679 to R682, R689). A command that `opens` is step 1 of a pool of KIND 0 to 2: its epoch
stands open until the audit's other command; one that does not, with no epoch open, is the whole audit. The counts of a pool of KIND 3 are
the ledger's own. -/
def execTallyAudit (pool : Nat) (holder : Option Nat) (c : AuditCounts) (s : State) : Res :=
  let kind := bits pool 31 29
  if s.errs.halted || !s.unitsRun || 3 < kind then .next s
  else if c.opens then
    .next (if kind = 3 ∨ s.errs.audits.contains pool then s else { s with errs := { s.errs with audits := pool :: s.errs.audits } })
  else
    let s := s.endAudit pool
    let pass := if kind = 3 then s.energyDiff == 0 else auditPasses c kind && (kind != 2 || s.signalsHome)
    let diff := if kind = 3 then s.energyDiff else auditDiff c
    if pass then .next s
    else
      match s.violator pool holder c.foreign with
      | some p => .next (s.violatePart pool p diff)
      | none => .next ((s.tallyRecord pool 0 true diff).fatal .eTallyViolation (poolIsland pool) pool (s.poolDirty pool))

/-! Die-to-die links (R658, R659). -/

/-- D2D_PACKET_TAG_FAIL: a packet of a direction of a UCIe link fails its tag and is resent; the sixteenth failure of a link within 1
ms makes it retrain. `fresh` says that a new millisecond has begun since the last failure (R361, R658, R659, R691). -/
def execD2dPacketTagFail (link dir : Nat) (fresh : Bool) (s : State) : Res :=
  if s.errs.halted then .next s
  else
    let key := 2 * link + dir
    let n := (if fresh then 0 else Tbl.get 0 s.trust.d2dFails link) + 1
    let s := s.setTrust { s.trust with
      d2dCount := Tbl.set 0 s.trust.d2dCount key (Tbl.get 0 s.trust.d2dCount key + 1), d2dFails := Tbl.set 0 s.trust.d2dFails link (n % 16) }
    let s := s.corrected (.unstated 1) (180 + link) key
    .next (if n = 16 then s.noteRetrain link else s)

/-! Wear (R696, R697). -/

/-- The islands of an island's power domain (Tables 1.5 and 1.6). -/
def domainIslands (i : Nat) : List Nat :=
  if i < 168 ∧ 80 ≤ i % 84 ∧ i % 84 ≤ 82 then rangeFrom (i / 84 * 84 + 80) 3
  else if i = 180 ∨ i = 181 then [180, 181]
  else if 183 ≤ i then [183, 184, 185]
  else [i]

def State.margin (s : State) (i : Nat) : Margin := Tbl.get Margin.reset s.errs.margin i
def State.setMargin (s : State) (i : Nat) (m : Margin) : State :=
  { s with errs := { s.errs with margin := Tbl.set Margin.reset s.errs.margin i m } }

/-- The islands that have spares: cores and the stacks' controllers (R697, Table 16.6). -/
def islandSpared (i : Nat) : Bool := (islandCore i).isSome || (decide (i < 168) && (i % 84 == 81 || i % 84 == 82))

/-- The partitions whose islands hold one: a core of theirs, or a cluster with one. -/
def State.islandUsers (s : State) (i : Nat) : List Nat :=
  (Tbl.keys s.work.parts).filter (fun p => match s.part p with
    | some x => x.cores.any (fun n => coreIsland n == i || clusterIsland (n / 8) == i)
    | none => false)

/-- Take one clock point from an island; a REALTIME partition whose MIN_CLOCK now lies above it fails R361 (R697). -/
def State.capIsland (s : State) (i : Nat) : State :=
  let m := s.margin i
  if 3 ≤ m.cap then s
  else
    let s := (s.setMargin i { m with cap := m.cap + 1 }).spareRecord 11 0 i i 0xFFFFFFFF i
    let hit := (s.islandUsers i).filter (fun p => match s.part p with
      | some x => x.realtime && decide (s.wearCap i < x.minClock)
      | none => false)
    let s := hit.foldl (fun s p => s.wcetVoid 0 p) s
    if hit.isEmpty then s else s.spareExhausted (hit.map s.partFn) i

/-- Open a repair of a pseudo-channel, or of a row whose lines lie in a page, which waits for its refresh boundary and holds the
requests to it (R302, R701). -/
def State.openSwap (s : State) (key : Nat) (row : Option (Nat × Nat)) : State :=
  { s with mem := match row with
      | some e => { s.mem with rowRepair := Tbl.modify [] s.mem.rowRepair key (fun l => if l.contains e then l else l ++ [e]) }
      | none => { s.mem with swapPending := Tbl.set false s.mem.swapPending key true } }

/-- A slice of the stack of a controller island that is worn out is to be replaced at its next refresh boundary, while a spare slice is
left: the swap opens (R697, Table 16.6). -/
def State.wornSlice (s : State) (i : Nat) : State :=
  let stack := 2 * (i / 84) + (i % 84 - 81)
  let used := Tbl.get 0 s.errs.slicesUsed stack
  if 4 ≤ used then s.capIsland i
  else s.stallAll (s.openSwap (32 * stack + Config.wornChannel stack used % 32) none).voidTroubled

/-- AGEING_MONITOR_READ: the power manager reads an island's slack in percent of a cycle. Where the spare map holds no baseline, the first
reading from step 7 of Stage B on becomes it (Table 14.5). Below 8 % it raises the domain's voltage by one
step, at most once per 10 s and ten in all; at +50 mV and below 5 % it replaces the island or lowers its highest clock point (R618,
R696, R697). A core is replaced by the migration that follows, a stack's slice by the swap that opens. -/
def execAgeingMonitorRead (i slack : Nat) (s : State) : Res :=
  if s.errs.halted || !s.unitsRun then .next s
  else
    let m := s.margin i
    let first := if s.pwr.stage = 0 then m.baseline else some (m.baseline.getD slack)
    let m := { m with slack := slack, base := first.getD 0, baseline := first }
    let s := s.setMargin i m
    let rested := match m.stepAt with
      | some t => decide (t + 384000000 ≤ s.host.refTicks)
      | none => true
    if slack < 8 ∧ m.steps < 10 ∧ rested = true then
      .next ((domainIslands i).foldl (fun s j => s.setMargin j { s.margin j with steps := m.steps + 1, stepAt := some s.host.refTicks }) s)
    else if slack < 5 ∧ m.steps = 10 then
      match islandCore i with
      | some n => .next { s with errs := { s.errs with coreDue := if (Tbl.find s.errs.coreDue n).isSome then s.errs.coreDue else Tbl.put s.errs.coreDue n 0 } }
      | none => .next (if islandSpared i then s.wornSlice i else s.capIsland i)
    else .next s

/-! Swaps (R698 to R705). -/

/-- The owner of the partition that holds a core. -/
def State.coreFn (s : State) (n : Nat) : List Nat := (s.coreOwner n).toList.map s.partFn

/-- The physical position that bears a logical core: its own, or 128 + k for the spare of its cluster (R52, R127). -/
def State.corePos (s : State) (n : Nat) : Nat :=
  if s.errs.spares.any (fun r => r.kind == 1 && r.logical == n) then 128 + n / 8 else n

/-- The entries of two keys exchanged. -/
def exchangeKeys {α : Type} (t : Tbl α) (a b : Nat) : Tbl α :=
  let set := fun (t : Tbl α) (k : Nat) (v : Option α) => match v with
    | some x => Tbl.put t k x
    | none => Tbl.del t k
  set (set t a (Tbl.find t b)) b (Tbl.find t a)

/-- The island of the spare core of a cluster, C*k*.S (R52, R678). -/
def spareIsland (k : Nat) : Nat := k / 8 * 84 + k % 8 * 9 + 8

/-- The counts of every kind of two islands exchanged (Table 16.5; a key is 256 times the kind plus the island). -/
def exchangeCounts (t : Tbl Nat) (a b : Nat) : Tbl Nat :=
  ((Tbl.keys t).map (· / 256)).eraseDups.foldl (fun t k => exchangeKeys t (256 * k + a) (256 * k + b)) t

/-- The spare of a core's cluster takes the logical name, and what the module knows of the two islands goes with them: margins, error
counts and the numbers of their trace records; the spare has all its own spare rows (R52, R700). -/
def State.renameCore (s : State) (n : Nat) : State :=
  let a := coreIsland n
  let b := spareIsland (n / 8)
  { s with
    errs := { s.errs with
      margin := exchangeKeys s.errs.margin a b, dirty := exchangeKeys s.errs.dirty a b, counts := exchangeCounts s.errs.counts a b
      rowsUsed := s.errs.rowsUsed.filter (fun e => e.1 / 64 != n) }
    host := { s.host with
      aligned := exchangeKeys s.host.aligned a b, trace := { s.host.trace with seq := exchangeKeys s.host.trace.seq a b } } }

/-- CORE_MIGRATION: the firmware replaces a core that needs it, or that failed its self-test, at a tile boundary without live state: the
spare of its cluster takes the logical name with an empty store, and a saved descriptor is restored onto it by MINUET_RESTORE; without a
spare the logical core is retired and its domain turns off (R52, R54, R127, R129, R699, R703 to R705). -/
def execCoreMigration (n : Nat) (selfTest : Bool) (s : State) : Res :=
  let c := s.core n
  let k := n / 8
  match Tbl.find s.errs.coreDue n, selfTest with
  | none, false => .next s
  | due, _ =>
    let cause := due.getD 4
    if s.errs.halted || Tbl.get false s.errs.retiredCores n || !c.quiet || c.tile.isSome then .next s
    else if Tbl.get false s.errs.spareCoreUsed k then
      if c.resume.isSome then .next s
      else
        let s := s.spareRecord 10 7 n (s.corePos n) 0xFFFFFFFF (coreIsland n)
        let s := { s with errs := { s.errs with
          retiredCores := Tbl.set false s.errs.retiredCores n true, coreDue := Tbl.del s.errs.coreDue n } }
        .next ((s.coreOff n).spareExhausted (s.coreFn n) (coreIsland n))
    else
      let s := s.spareRecord 1 cause n n (128 + k) (coreIsland n)
      let s := { s with errs := { s.errs with
        spareCoreUsed := Tbl.set false s.errs.spareCoreUsed k true, coreDue := Tbl.del s.errs.coreDue n,
        enginesUsed := Tbl.del s.errs.enginesUsed n } }
      let s := s.renameCore n
      let s := s.zeroFill (coreBase n) coreStoreBytes
      .next (s.setCore n { Core.reset with
        run := c.run, resume := c.resume, compat := c.compat, allow := c.allow, lastTile := c.lastTile })

/-- The error that brings a row of a store to its swap is reported: an uncorrectable word of it is poison from then on (R317, R691, R700,
R703); a correction is counted. The word's place in the store is free, since the manual does not place rows (log entry 205). -/
def State.rowError (s : State) (cluster : Bool) (unit bank row : Nat) (uncorrectable : Bool) : State :=
  let island := if cluster then clusterIsland unit else coreIsland unit
  let at_ := bank * 65536 + row
  if uncorrectable then
    let a := if cluster then clusterBase unit + Config.rowWord true unit bank row % 0x1000000 else
      coreBase unit + Config.rowWord false unit bank row % coreStoreBytes
    (s.setPoison a 1).contained .eMemPoison island at_
  else s.corrected (.unstated 5) island at_

/-- SRAM_ROW_SWAP: a row of a bank of core store `unit`, or of cluster store `unit`, is copied to the next spare row with its poison;
without one the core is migrated, or the cluster-store row stays in service (R700, R703, R704). `uncorrectable` gives the cause. -/
def execSramRowSwap (cluster : Bool) (unit bank row : Nat) (uncorrectable : Bool) (s : State) : Res :=
  let key := (if cluster then 128 + unit else unit) * 64 + bank
  let used := Tbl.get 0 s.errs.rowsUsed key
  let island := if cluster then clusterIsland unit else coreIsland unit
  if s.errs.halted || (!cluster && (s.core unit).tile.isSome) then .next s
  else
  let s := s.rowError cluster unit bank row uncorrectable
  if used < (if cluster then 16 else 8) then
    let s := s.spareRecord (if cluster then 3 else 2) (if uncorrectable then 3 else 2) unit (bank * 65536 + row) used island
    .next { s with errs := { s.errs with rowsUsed := Tbl.set 0 s.errs.rowsUsed key (used + 1) } }
  else if cluster then
    let hit := (s.islandUsers island).map s.partFn
    .next (s.spareExhausted hit island)
  else
    let s := { s with errs := { s.errs with coreDue := Tbl.put s.errs.coreDue unit 7 } }
    .next (s.spareExhausted (s.coreFn unit) island)

/-- A swap of a pseudo-channel, or a repair of a row of it, ends: the requests that nothing else holds are served after `after` (R701). -/
def State.closeSwap (s : State) (key : Nat) (row : Option (Nat × Nat)) (after : State → State) : State :=
  let s1 : State := { s with mem := match row with
      | some e => { s.mem with rowRepair := Tbl.modify [] s.mem.rowRepair key (fun l => l.erase e) }
      | none => { s.mem with swapPending := Tbl.set false s.mem.swapPending key false } }
  s.stallAll (after s1).releaseHeld

/-- A swap or row repair stands at its refresh boundary: it is open and no refresh is postponed. -/
def State.swapReady (s : State) (key : Nat) (row : Option (Nat × Nat)) : Bool :=
  (match row with
    | some e => (Tbl.get [] s.mem.rowRepair key).contains e
    | none => Tbl.get false s.mem.swapPending key) && Tbl.get 0 s.mem.postponed key == 0

/-- Retire a 2 MiB page: it is withheld from then on and stays poisoned (R703). -/
def State.retirePage (s : State) (pg : Nat) : State :=
  ({ s with errs := { s.errs with retiredPages := Tbl.set false s.errs.retiredPages pg true } } : State).setPoison (pg * 0x200000) 0x200000

/-- STACK_ROW_REPAIR: a repair of a row of a pseudo-channel, whose lines lie in a page, opens, or ends at the refresh boundary (`ended`): by a
repair row of the DRAM while one is left (`ppr`), else by one of 4,096 remap rows, else the page is retired (R361, R701, R703, R704). -/
def execStackRowRepair (stack ch row pg : Nat) (uncorrectable ppr ended : Bool) (s : State) : Res :=
  let key := 32 * stack + ch
  let used := Tbl.get 0 s.errs.remapUsed key
  let island := stackIsland stack
  let cause := if uncorrectable then 3 else 2
  if s.errs.halted then .next s
  else if !ended then
    .next (s.stallAll (s.openSwap key (some (row, pg))).voidTroubled)
  else if !s.swapReady key (some (row, pg)) then .next s
  else
    .next (s.closeSwap key (some (row, pg)) (fun s =>
      if ppr then s.spareRecord 4 cause key row 0 island
      else if used < 4096 then
        let s := s.spareRecord 5 cause key row used island
        { s with errs := { s.errs with remapUsed := Tbl.set 0 s.errs.remapUsed key (used + 1) } }
      else
        let owners := (s.pageOwner pg).toList.map s.partFn
        ((s.spareRecord 9 7 key pg 0xFFFFFFFF island).retirePage pg).spareExhausted owners island))

/-- The partitions with pages in a stack (R296). -/
def State.stackUsers (s : State) (stack : Nat) : List Nat :=
  (Tbl.keys s.work.parts).filter (fun p => match s.part p with
    | some x => (x.extents.flatMap (fun e => rangeFrom e.1 e.2)).any (fun pg =>
        !s.slicedAt (pg * 0x200000) || s.stackOf (pg * 0x200000) == stack)
    | none => false)

/-- The slice of a stack that bears a pseudo-channel: its own, or the spare that the last swap of it brought in (R704). -/
def State.slicePos (s : State) (key : Nat) : Nat :=
  match s.errs.spares.reverse.find? (fun r => r.kind == 6 && r.logical == key) with
  | some r => r.spare
  | none => key % 32

/-- PSEUDO_CHANNEL_SWAP: a swap of a pseudo-channel opens, or ends at the refresh boundary (`ended`): the next spare slice of the stack takes over;
without one the failing slice answers every request with poison and the next start fails under R613 (R361, R701, R703, R704). -/
def execPseudoChannelSwap (stack ch cause : Nat) (ended : Bool) (s : State) : Res :=
  let key := 32 * stack + ch
  let used := Tbl.get 0 s.errs.slicesUsed stack
  let island := stackIsland stack
  if s.errs.halted then .next s
  else if !ended then .next (s.stallAll (s.openSwap key none).voidTroubled)
  else if !s.swapReady key none then .next s
  else
    .next (s.closeSwap key none (fun s =>
      if used < 4 then
        let s := s.spareRecord 6 cause key (s.slicePos key) (32 + used) island
        { s with errs := { s.errs with slicesUsed := Tbl.set 0 s.errs.slicesUsed stack (used + 1) } }
      else
        let owners := (s.stackUsers stack).map s.partFn
        ({ s with errs := { s.errs with deadSlices := Tbl.set false s.errs.deadSlices key true } } : State).spareExhausted owners island))

/-- UCIE_LANE_REPAIR: a lane of a direction of a UCIe link fails and is remapped at the retrain; without a spare the link retrains at half
width (R361, R702, R704). `training` gives the cause. -/
def execUcieLaneRepair (link dir lane : Nat) (training : Bool) (s : State) : Res :=
  let key := 2 * link + dir
  let used := Tbl.get 0 s.errs.lanesUsed key
  let island := 180 + link
  if s.errs.halted then .next s
  else
    let s := s.noteRetrain link
    if used < 40 then
      let s := s.spareRecord 7 (if training then 5 else 2) key lane used island
      .next { s with errs := { s.errs with lanesUsed := Tbl.set 0 s.errs.lanesUsed key (used + 1) } }
    else .next (({ s with errs := { s.errs with halfWidth := Tbl.set false s.errs.halfWidth key true } } : State).spareExhausted [] island)

end Sys2Proof.Machine
end

