-- ==== Sys2Proof/Machine/RegMap.lean ====
section
/-!
DEFINITION. What a read of each set-up register returns (R24, R506, R540, R725 to R733, and the field maps of every chapter).
-/
namespace Sys2Proof.Machine

/-! 64-bit counters (R24, R328, R377, R378, R540). -/

/-- The value of the 64-bit counter whose low word lies at a BAR0 address, when the function may read it. -/
def State.counter (s : State) (f addr : Nat) : Option Nat :=
  let own := fun (p : Nat) => f == 0 || (match s.part p with
    | some x => x.fn == f
    | none => false)
  if addr = 0x40 then some (s.stampFor f)
  else if 0x610000 ≤ addr ∧ addr < 0x611000 ∧ addr % 8 = 0 then
    let p := (addr - 0x610000) / 64
    if own p then some (Tbl.get 0 s.work.stall (8 * p + addr % 64 / 8)) else none
  else if 0xE00000 ≤ addr ∧ addr < 0xE40000 ∧ addr % 8 = 0 then
    let n := (addr - 0xE00000) / 64
    if f = 0 ∨ s.ctxFn n = f then some (Tbl.get 0 s.work.acct (8 * n + addr % 64 / 8)) else none
  else if 0xE40000 ≤ addr ∧ addr < 0xE41000 ∧ addr % 8 = 0 then
    let p := (addr - 0xE40000) / 64
    if own p then some (Tbl.get 0 s.work.acct (0x8000 + 8 * p + addr % 64 / 8)) else none
  else if 0xE41000 ≤ addr ∧ addr < 0xE41800 ∧ addr % 8 = 0 then
    let g := (addr - 0xE41000) / 64
    if f = 0 ∨ f = g then some (Tbl.get 0 s.work.acct (0x8200 + 8 * g + addr % 64 / 8)) else none
  else if addr = 0xE41800 ∧ f = 0 then some (Tbl.get 0 s.work.acct unattributedKey)
  else none

/-- The high word of a counter: as latched by the function's read of the low word, else live (R24). -/
def State.counterHigh (s : State) (f addr : Nat) : Option Nat :=
  match s.counter f (addr - 4) with
  | some v => some (match Tbl.find (s.fn f).latch (addr - 4) with
    | some w => w.toNat
    | none => v / 2 ^ 32)
  | none => none

/-! Blocks. Offsets are from the block's base. -/

/-- GLB (Tables 11.15, 14.4, 18.2 to 18.7). -/
def State.regGlb (s : State) (f off : Nat) : Nat :=
  let h := s.host
  let p := s.pwr
  match off with
  | 0x00 => 0x9640B101
  | 0x04 => fld Config.serial 0 4
  | 0x08 => fld Config.serial 4 4
  | 0x0C => fld Config.serial 8 4
  | 0x10 => h.smbusAddr * 65536 + (if h.split then h.link1First * 256 + 1 else 0) + b2n h.ref1Sris * 4 + b2n h.ref0Sris * 2
  | 0x20 => b2n p.dormantExit * 64 + p.restore * 8 + b2n p.bFault * 4 + p.stage
  | 0x24 => b2n p.safeLow * 2 ^ 31 + p.safeCause
  | 0x28 => b2n p.faultLow * 2 ^ 31 + p.faultCause
  | 0x30 => (s.fn f).accessErr
  | _ => 0

/-- TARGET of PWR_STATE: the pending request's or the first admitted escalation's state (Table 18.8). -/
def State.pendingTarget (s : State) : Option Nat :=
  match s.pwr.pending with
  | some r => some r.target
  | none => (s.pwr.escals.find? (fun e => e.admitted)).map (fun e => e.tier + 1)

/-- PWR_STATE (Table 18.8, R736). -/
def State.pwrState (s : State) : Nat :=
  let holder := match s.pwr.pending with
    | some r => if s.busyBelow r.target || s.clearingHolds r.target then 15 else (s.holders r.target).headD 15
    | none => 15
  s.pwr.thermal.stage * 2 ^ 20 + holder * 65536 + s.pendingTarget.getD 0 * 256 + b2n s.pendingTarget.isSome * 128 + s.pwr.state

/-- The hold energy of the banks in nJ: half the good banks' capacitance in µF times V² − 5.5², V in 0.1 V (R621). -/
def State.goodBanks (s : State) : List Nat := (List.range 4).filter (fun b => (Tbl.get Bank.reset s.pwr.banks b).state == 1)
def State.holdNj (s : State) : Nat :=
  (s.goodBanks.foldl (fun acc b => acc + (Tbl.get Bank.reset s.pwr.banks b).cap) 0) * (s.pwr.bankV * s.pwr.bankV - 55 * 55) * 5

/-- PWR (Tables 13.2, 13.4, 13.9 to 13.11, 14.6, 14.7, 18.8). -/
def State.regPwr (s : State) (f off : Nat) : Nat :=
  let l := s.pwr.ledger
  if off = 0 then s.pwrState
  else if off = 0x18 then l.windowNo % 65536 * 65536 + b2n (decide (l.pool < 0)) * 2 + b2n l.hold
  else if f ≠ 0 then 0
  else if off = 4 then s.pwr.cfg.toNat
  else if off = 0x10 then l.windowMs
  else if off = 0x14 then l.allowance.toNat
  else if off = 0x20 then
    b2n s.pwr.armed * 2 ^ 31 + s.goodBanks.length * 2 ^ 24 + min s.pwr.bankV 255 * 65536 + min (s.holdNj / 1000000) 65535
  else if 0x30 ≤ off ∧ off < 0x40 ∧ off % 4 = 0 then
    let b := Tbl.get Bank.reset s.pwr.banks ((off - 0x30) / 4)
    b.state * 2 ^ 30 + min b.esr 4095 * 65536 + min b.cap 4095
  else if 0x100 ≤ off ∧ off < 0x124 ∧ off % 4 = 0 then (Tbl.get (0 : Word) s.pwr.refusals ((off - 0x100) / 4)).toNat
  else 0

/-- A function may read the CLK registers of a core: PF0, or the owner of its partition (Table 18.1). -/
def State.seesCore (s : State) (f n : Nat) : Bool :=
  f == 0 || (match s.coreOwner n with
    | some p => s.partFn p == f
    | none => false)

/-- MAX_CLOCK of the partition of a core; the lowest point for a core of none (R587). -/
def State.maxPoint (s : State) (n : Nat) : Nat := match (s.coreOwner n).bind s.part with
  | some x => x.maxClock
  | none => 0

/-- The thermal guard holds a cluster's island below the highest MAX_CLOCK of its powered cores (R107, Table 18.9). -/
def State.clThrottled (s : State) (k : Nat) : Bool :=
  let on := (rangeFrom (8 * k) 8).filter s.coreOn
  decide (on.foldl (fun acc n => max acc (min (s.maxPoint n) (Tbl.get 3 s.pwr.thermal.point n))) 0 < on.foldl (fun acc n => max acc (s.maxPoint n)) 0)

/-- CLK (Tables 13.7 and 18.9). CAP of a core shows the lower of its own and its cluster's wear cap, both of which hold it down (R587, R697). -/
def State.regClk (s : State) (f off : Nat) : Nat :=
  if off % 4 ≠ 0 then 0
  else if off < 0x200 then
    let n := off / 4
    if s.seesCore f n then
      b2n (!s.coreOn n) * 256 + b2n (decide (Tbl.get 3 s.pwr.thermal.point n < s.maxPoint n)) * 16 +
        min (s.wearCap (coreIsland n)) (s.wearCap (clusterIsland (n / 8))) * 4 + s.corePoint n
    else 0
  else if 0x800 ≤ off ∧ off < 0x840 then
    let k := (off - 0x800) / 4
    if (rangeFrom (8 * k) 8).any (s.seesCore f) then
      b2n (!s.domainOn (clusterIsland k)) * 256 + b2n (s.clThrottled k) * 16 + s.wearCap (clusterIsland k) * 4 + s.clusterPoint k
    else 0
  else if 0x1000 ≤ off ∧ off < 0x1200 then
    let n := (off - 0x1000) / 4
    if s.seesCore f n then (s.core n).allow else 0
  else 0

/-- QUE (Tables 11.2 and 11.6 to 11.9). -/
def State.regQue (s : State) (f off : Nat) : Nat :=
  if 0x40000 ≤ off then
    let l := (off - 0x40000) / 4
    if off % 4 = 0 ∧ l < 2 ∧ (f = 0 ∨ s.linkOf f = l) then (s.link l).status else 0
  else
    let n := off / 64
    let c := s.ctx n
    if s.ctxFn n ≠ f then 0
    else
      match off % 64 with
      | 0x00 => c.sqLo.toNat
      | 0x04 => c.sqHi.toNat
      | 0x08 => c.cqLo.toNat
      | 0x0C => c.cqHi.toNat
      | 0x10 => c.cfg.toNat
      | 0x14 => c.mod.toNat
      | 0x18 => c.cfgErr.toNat * 65536 + b2n (c.active && !c.cqFree) * 16 + b2n c.dbBad * 8 + b2n c.halted * 4 + b2n c.descs.isEmpty * 2 + b2n c.active
      | 0x1C => c.sqHead.toNat
      | 0x20 => c.cqTail.toNat
      | 0x24 => c.sqTail.toNat
      | 0x28 => c.cqHead.toNat
      | 0x2C => c.vectorHi.toNat
      | _ => 0

/-- IRQ (Table 18.10): runs of pool entries in ascending function order. -/
def State.regIrq (s : State) (f off : Nat) : Nat :=
  let g := off / 4
  if off % 4 = 0 ∧ g < 32 ∧ (f = 0 ∨ f = g) then
    (List.range g).foldl (fun acc h => acc + s.vectors h) 0 * 65536 + s.vectors g
  else 0

/-- FN_STATE (Table 12.2). -/
def State.fnState (s : State) (g : Nat) : Nat :=
  let h := s.held g
  let clearing := (Tbl.keys s.work.clearings).any (fun p => match s.job p with
    | some j => j.fn == g
    | none => false)
  coresHeld h * 65536 + h.length * 256 + b2n (s.fn g).flrBusy * 2 + b2n clearing

/-- FN (Tables 12.1 to 12.4). -/
def State.regFn (s : State) (f off : Nat) : Nat :=
  if off < 0x200 then
    let g := off / 16
    let x := s.fn g
    if f ≠ 0 ∧ f ≠ g then 0
    else
      match off % 16 with
      | 0 => b2n x.qosRefused * 2 ^ 31 + x.wEnergy * 2 ^ 18 + x.wPcie * 2 ^ 9 + x.wMem
      | 4 => b2n x.limRefused * 2 ^ 31 + x.limParts * 2 ^ 24 + x.limPages * 256 + x.limCores
      | 8 => s.fnState g
      | _ => 0
  else if 0x400 ≤ off ∧ off < 0x500 ∧ off % 4 = 0 ∧ f = 0 then
    let g := (off - 0x400) / 4
    b2n (Tbl.get false s.host.groupRefused g) * 2 ^ 31 + Tbl.get 0 s.host.groupOwner g
  else 0

/-- MEM without its counters (Tables 11.5 and 18.11). -/
def State.regMem (s : State) (f off : Nat) : Nat :=
  if 0x8000 ≤ off ∧ off < 0x8800 ∧ off % 4 = 0 then
    (List.range 32).foldl (fun acc j => acc + b2n (Tbl.get false s.mem.sliced (32 * ((off - 0x8000) / 4) + j)) * 2 ^ j) 0
  else if 0x20000 ≤ off ∧ off < 0x24000 ∧ off % 4 = 0 ∧ aptExists f ((off - 0x20000) / 4) = true then
    (Tbl.get (0 : Word) (s.fn f).apt ((off - 0x20000) / 4)).toNat
  else 0

/-- CAM (Tables 9.2, 18.12 and 18.13). -/
def State.regCam (s : State) (f off : Nat) : Nat :=
  let sees := fun (n : Nat) => f == 0 || (s.media.port n).owner == f
  if off < 0x40 ∧ off % 4 = 0 ∧ f = 0 then
    let x := s.media.port (off / 4)
    b2n x.ownerRefused * 2 ^ 31 + x.owner
  else if 0x100 ≤ off ∧ off < 0x140 ∧ off % 4 = 0 ∧ f = 0 then
    let x := s.media.port ((off - 0x100) / 4)
    min x.current 1023 * 65536 + x.st * 1024 + b2n x.opened * 512 + b2n x.overcurrent * 256 + x.ilim * 16 + b2n x.en
  else if 0x200 ≤ off ∧ off < 0x240 ∧ off % 4 = 0 ∧ sees ((off - 0x200) / 4) = true then
    let x := s.media.port ((off - 0x200) / 4)
    x.retrains * 2 ^ 24 + x.attempts * 65536 + x.gear * 256 + x.link
  else if 0x300 ≤ off ∧ off < 0x380 ∧ off % 4 = 0 ∧ sees ((off - 0x300) / 8) = true then
    let x := s.media.port ((off - 0x300) / 8)
    if off % 8 = 0 then x.hdrEcc * 65536 + x.unmatched else x.crcBad * 65536 + x.hdrCorrected
  else if 0x400 ≤ off ∧ off < 0x420 ∧ off % 4 = 0 ∧ f = 0 then
    let x := s.media.source ((off - 0x400) / 8)
    if off % 8 = 0 then x.width * 256 + x.mode else x.reg
  else 0

/-- ISP (Table 18.14). -/
def State.regIsp (s : State) (f off : Nat) : Nat :=
  let m := s.media
  if off % 4 ≠ 0 then 0
  else if off < 0x10 ∧ f = 0 then
    let p := off / 4
    let x := m.pipe p
    let run := match x.run with
      | some u => 4096 + u.ctx % 16 * 256
      | none => 0
    let n := if s.pipeOn p then m.naming p else (Tbl.find m.shown p).getD (m.naming p)
    x.load * 65536 + run + n
  else if 0x10 ≤ off ∧ off < 0x20 ∧ f = 0 then (m.pipe ((off - 0x10) / 4)).drops
  else if 0x100 ≤ off ∧ off < 0x140 then
    let c := (off - 0x100) / 4
    match m.cam c with
    | some x => if f = 0 ∨ x.fn = f then (Tbl.find m.shown (16 + c)).getD x.frameNo else 0
    | none => if f = 0 then (Tbl.find m.shown (16 + c)).getD 0 else 0
  else 0

/-- AUD (Tables 10.2 to 10.5). -/
def State.regAud (s : State) (f off : Nat) : Nat :=
  let g := s.media.group (off / 4 % 4)
  let flag := fun (k : AudGroup → Bool) => b2n (k (s.media.group 0)) + 2 * b2n (k (s.media.group 1))
  if off = 0x20 then
    if s.pwr.aon then
      flag (fun x => x.session.isSome) * 64 + flag (fun x => x.warm != 0) * 16 + flag (fun x => x.cand.isSome) * 4 + flag (fun x => x.landLow)
    else 0
  else if f ≠ 0 then 0
  else if off = 0x00 ∨ off = 0x04 then g.cfg.toNat
  else if off = 0x10 ∨ off = 0x14 then g.wakeCfg.toNat
  else if off = 0x30 ∨ off = 0x34 then g.indCfg.toNat
  else 0

/-- PST (Table 18.15). -/
def State.regPst (s : State) (f off : Nat) : Nat :=
  let u := s.cpu.post
  if off = 0 then u.queue.length * 256 + b2n u.run.isSome else if off = 4 ∧ f = 0 then u.completed else 0

/-- SEC: the function's own view (Tables 15.3 to 15.6). -/
def State.regSec (s : State) (f off : Nat) : Nat :=
  let m := s.mbox f
  match off with
  | 0x00 => m.code
  | 0x04 => m.ptrLo.toNat
  | 0x08 => m.ptrHi.toNat
  | 0x0C => m.len.toNat
  | 0x10 => m.arg.toNat
  | 0x14 => b2n m.run.isSome * 2 ^ 31 + b2n m.done * 2 ^ 30 + m.result.toNat
  | 0x18 => s.fuseState
  | _ => 0

/-- SPR (Table 16.9). -/
def State.regSpr (s : State) (f off : Nat) : Nat :=
  if off = 0 then s.sprSummary
  else if f ≠ 0 then 0
  else if off = 4 then s.sprLanes
  else if 0x100 ≤ off ∧ off < 0x3E8 ∧ off % 4 = 0 then
    let m := s.margin ((off - 0x100) / 4)
    m.slack * 65536 + m.base * 256 + (if s.errs.filled then m.cap else 0) * 64 + m.steps
  else 0

/-- TLY (Table 16.2). -/
def State.regTly (s : State) (f off : Nat) : Nat :=
  let e := s.errs
  if f ≠ 0 then 0
  else if off = 0 then e.tlyPool
  else if off = 4 ∧ e.tlyValid = true then 2 ^ 31 + b2n e.tlyDevice * 2 ^ 30 + e.tlyPart * 2 ^ 24 + wrap 24 e.tlyDiff
  else 0

/-- TRC (Table 17.9). -/
def State.regTrc (s : State) (f off : Nat) : Nat :=
  let t := s.host.trace
  if f ≠ 0 then 0
  else if 0x100 ≤ off ∧ off < 0x300 ∧ off % 4 = 0 then (Tbl.get (0 : Word) t.enable ((off - 0x100) / 4)).toNat
  else
    match off with
    | 0x00 => b2n t.en * 2 ^ 31 + t.ringLog2
    | 0x04 => t.baseLo.toNat
    | 0x08 => t.baseHi.toNat
    | 0x0C => t.tail.toNat
    | 0x10 => t.head.toNat
    | 0x14 => t.drops.toNat
    | _ => 0

/-- The function's MSI-X table and PBA (R727). -/
def State.regMsix (s : State) (f addr : Nat) : Nat :=
  let x := s.fn f
  if addr < 0x3F80000 then
    let v := (addr - 0x3F00000) / 16
    if s.vectors f ≤ v then 0
    else if addr % 16 = 12 then b2n (Tbl.get true x.masked v)
    else (Tbl.get (0 : Word) x.msix (4 * v + addr % 16 / 4)).toNat
  else
    let w := (addr - 0x3F80000) / 4
    (List.range 32).foldl (fun acc j => acc + b2n (Tbl.get false x.pba (32 * w + j)) * 2 ^ j) 0

/-- The value of a read of a 32-bit register at a BAR0 address by a function; a reserved address and one not open to the function read 0
(R506, R725, R726, R732). -/
def State.readReg (s : State) (f addr : Nat) : Nat :=
  if addr % 4 ≠ 0 then 0
  else
    match s.counter f addr, s.counterHigh f addr with
    | some v, _ => v % 2 ^ 32
    | none, some v => v
    | none, none =>
      let off := addr % 0x100000
      match addr / 0x100000 with
      | 0 => s.regGlb f off
      | 1 => s.regPwr f off
      | 2 => s.regClk f off
      | 3 => s.regQue f off
      | 4 => s.regIrq f off
      | 5 => s.regFn f off
      | 6 => s.regMem f off
      | 7 => s.regCam f off
      | 8 => s.regIsp f off
      | 9 => s.regAud f off
      | 10 => s.regPst f off
      | 11 => s.regSec f off
      | 12 => s.regSpr f off
      | 13 => s.regTly f off
      | 15 => s.regTrc f off
      | 63 => s.regMsix f addr
      | _ => 0

end Sys2Proof.Machine
end

