-- ==== Sys2Proof/Machine/Images.lean ====
section
/-!
DEFINITION. Windfall images: their sections, header and seal, and what a save and a retention image hold (R571, R627 to R631, Tables 14.9
and 14.10).
-/
namespace Sys2Proof.Machine

/-- A partition is being cleared. -/
def State.clearingPart (s : State) (p : Nat) : Bool := (s.job p).isSome

/-- Section 1: the objects, without what was on its way to them. -/
def SyncUnit.saved (u : SyncUnit) : SyncUnit := { SyncUnit.reset with objs := u.objs }

/-- A context in section 2: its descriptors are those fetched without a record (R633). -/
def Ctx.saved (c : Ctx) : Ctx := { c with descs := c.descs.filter (fun d => !(d.phase == .fetching)) }

/-- Generations in section 3: a partition marked as clearing has its new one (R566, Table 12.11). -/
def State.savedGens (s : State) : Tbl Nat :=
  (Tbl.keys s.work.clearings).foldl (fun t p => match s.job p with
    | some j => if j.step < 6 then Tbl.set 0 t p ((s.gen p + 1) % 65536) else t
    | none => t) s.work.gens

/-- Largest sizes of the sections (Table 14.10). -/
def sectionMax (i : Nat) : Nat := [256, 512, 256, 128, 96, 64, 256, 4096].getD i 0 * 1024

/-- The bytes of a section of an image (Table 14.10); the firmware's region has its declared length (R630). -/
def Image.section_ (x : Image) (i : Nat) : List Byte :=
  match i with
  | 0 => (Config.sectionBytes 0 (x.pwrCfg, x.windowMs, x.allowance, x.debits, x.acct, x.frac)).take (sectionMax 0)
  | 1 => (Config.sectionBytes 1 x.sync).take (sectionMax 1)
  | 2 => (Config.sectionBytes 2 x.ctxs).take (sectionMax 2)
  | 3 => (Config.sectionBytes 3 (x.fns, x.groupOwner, x.groupRefused, x.parts, x.gens, x.serving, x.attn, x.streams, x.tiers, x.pairs,
      x.clearings, x.sliced, x.fwArea)).take (sectionMax 3)
  | 4 => (Config.sectionBytes 4 x.seqs).take (sectionMax 4)
  | 5 => (Config.sectionBytes 5 x.spares).take (sectionMax 5)
  | 6 => (Config.sectionBytes 6 x.log).take (sectionMax 6)
  | _ => slice (Config.sectionBytes 7 (x.saveNo, x.fwVersion)) 0 x.fwLength

/-- The sections of a save: from Dormant 0, 5 and 6; else all, the firmware's only when it has declared one (R628, R630). -/
def Image.present (x : Image) : List Nat := if x.state = 0 then [0, 5, 6] else List.range 7 ++ (if x.fwLength = 0 then [] else [7])

/-- Where each section lies, from offset 0x1000 one behind the other in the order of their numbers (R629; DESIGN CHOICE, log entry 180), with
its length; 0 when absent. -/
def Image.places (x : Image) : List (Nat × Nat) :=
  ((List.range 8).foldl (fun (acc : Nat × List (Nat × Nat)) i =>
    if x.present.contains i then (acc.1 + (x.section_ i).length, acc.2 ++ [(acc.1, (x.section_ i).length)]) else (acc.1, acc.2 ++ [(0, 0)]))
    (0x1000, [])).2

/-- Bytes 0x00 to 0xDF of the header (R629, Table 14.9). -/
def Image.head (x : Image) : List Byte :=
  toLE 4 0x4C464457 ++ toLE 4 1 ++ toLE 4 x.saveNo ++ toLE 4 (x.cause + x.state * 4 + x.goodBanks * 32) ++ slice Config.serial 0 12 ++
    toLE 4 x.fwVersion ++ x.places.flatMap (fun e => toLE 4 e.1 ++ toLE 4 e.2) ++ toLE 8 x.saveTime ++ toLE 120 0

/-- The seal over a header and the sections (Table 14.9). -/
def Image.sealOf (x : Image) (head : List Byte) : List Byte :=
  slice (hmac sealingKey (head ++ x.present.flatMap x.section_)) 0 32

/-- The image with its header. -/
def Image.sealed (x : Image) : Image := { x with header := x.head ++ x.sealOf x.head }

/-- MAGIC, FORMAT and SERIAL of the header are right (R631). -/
def Image.headOk (x : Image) : Bool :=
  fld x.header 0 4 == 0x4C464457 && fld x.header 4 2 == 1 && slice x.header 0x10 12 == slice Config.serial 0 12

/-- The seal verifies (R631). -/
def Image.sealOk (x : Image) : Bool := slice x.header 0xE0 32 == x.sealOf (slice x.header 0 0xE0)

/-- Owners of the partitions that have a Minuet save or restore open, one for each core (Table 14.12). -/
def State.openMinuets (s : State) : List Nat :=
  ((Tbl.keys s.cpu.cores).filter (fun n => (s.core n).minuetReq)).map (fun n => s.partFn ((s.coreOwner n).getD 0))

/-- The error-log entry of a save, which records the open window's debits (R632). -/
def State.saveEntry (s : State) : List ErrEntry := ((s.logError 3 (.unstated 2) 185 s.pwr.ledger.debited).errs.log).take 1

/-- What a retention image and a Windfall image taken now hold: the tables' sections, with the ledger's and the logs' (Table 14.10). -/
def State.tables (s : State) : Image :=
  let p := s.pwr
  { header := [], saveNo := p.saveNo + 1, cause := 0, state := p.state, goodBanks := s.goodBanks.length,
    fwVersion := (p.fw.region.map (·.2.2)).getD 0, fwLength := (p.fw.region.map (·.2.1)).getD 0, spares := [], log := s.saveEntry,
    saveTime := s.nowNs % 2 ^ 62, pwrCfg := p.cfg, windowMs := p.ledger.windowMs, allowance := p.ledger.allowance,
    debits := p.ledger.debited, acct := s.work.acct, frac := p.ledger.frac, sync := s.cpu.sync.saved,
    ctxs := (s.work.ctxs.filter (fun e => e.2.active && !s.clearingPart e.2.part)).map (fun e => (e.1, e.2.saved)),
    fns := s.host.fns, groupOwner := s.host.groupOwner, groupRefused := s.host.groupRefused, parts := s.work.parts,
    gens := s.savedGens, serving := s.work.serving, attn := s.work.attn, streams := s.work.streams, tiers := p.tiers,
    pairs := s.work.pairs, clearings := s.work.clearings, sliced := s.mem.sliced, fwArea := p.fw.area,
    seqs := s.work.seqs.filter (fun e => !s.clearingPart (seqPart e.2.raw)), minuets := s.openMinuets }

/-- An image with sections 1 to 4 and 7 of another: from Seed they are those of the retention image (R627). -/
def Image.withTables (x y : Image) : Image :=
  { x with
    fwVersion := y.fwVersion, fwLength := y.fwLength, sync := y.sync, ctxs := y.ctxs, fns := y.fns, groupOwner := y.groupOwner,
    groupRefused := y.groupRefused, parts := y.parts, gens := y.gens, serving := y.serving, attn := y.attn, streams := y.streams,
    tiers := y.tiers, pairs := y.pairs, clearings := y.clearings, sliced := y.sliced, fwArea := y.fwArea, seqs := y.seqs }

/-- An image without sections 1 to 4 and 7: from Dormant the tables are empty (R573, R628). -/
def Image.withoutTables (x : Image) : Image :=
  { x with
    fwVersion := 0, fwLength := 0, sync := SyncUnit.reset, ctxs := [], fns := [], groupOwner := [], groupRefused := [], parts := [],
    gens := [], serving := [], attn := [], streams := [], tiers := [], pairs := [], clearings := [], sliced := [], fwArea := none,
    seqs := [] }

/-- The image of a save: in Seed its tables are copied from the retention image, and from Dormant it holds sections 0, 5 and 6 only (R573,
R627, R628). -/
def State.imageOf (s : State) (cause : Nat) : Image :=
  let x := { s.tables with cause := cause }
  Image.sealed (if s.pwr.state = 0 then x.withoutTables
    else if s.pwr.state = 1 then (match s.pwr.kept with
      | some y => x.withTables y
      | none => x)
    else x)

end Sys2Proof.Machine
end

