-- ==== Sys2Proof/Machine/PowerStates.lean ====
section
/-!
DEFINITION. Entering and leaving power states, PWR_CFG and the thermal guard (R568 to R588, R787, Tables 13.1 to 13.8).
-/
namespace Sys2Proof.Machine

/-- PWR_CFG_WRITE: PF0 writes PWR_CFG: a change of DIE or CLUSTER is refused in Sprout or higher, a change of DIE also while the firmware is
loaded (R569, R712, Table 13.2). -/
def execPwrCfgWrite (f value : Nat) (s : State) : Res :=
  s.regWrite (f == 0) (fun s =>
    let old := s.pwr.cfg.toNat
    let new := value % 2 ^ 17
    let die := bit new 0 != bit old 0
    let place := bits new 3 0 != bits old 3 0
    if (place && decide (2 ≤ s.pwr.state)) || (die && s.pwr.fw.running) then
      s.setPwr { s.pwr with cfg := BitVec.ofNat 32 (old % 2 ^ 31 + 2 ^ 31) }
    else s.setPwr { s.pwr with cfg := BitVec.ofNat 32 new })

/-! Domains. -/

/-- The firmware that a cluster controller loads as it powers up: none before the firmware runs (R711, Table 14.3 step 4). -/
def State.clFirmware (s : State) : Option (List Byte) := if s.pwr.fw.running then some s.trust.runDigest else none

/-- A cluster's domain powers up: its controller's memory and its store are zero-filled, its weight keys are loaded, and it loads its
firmware (R112, R124, R645, R711). -/
def State.clusterUp (s : State) (k : Nat) : State :=
  if s.domainOn (clusterIsland k) then s
  else (((s.setCluster k { Cluster.reset with firm := s.clFirmware }).zeroFill (clusterBase k) clusterStoreBytes).setDomain (clusterIsland k) true).loadClKeys k

/-- Turn a cluster's domain off: its store is lost and its weight streams stop (R54, R112, R113, R324). -/
def State.clusterOff (s : State) (k : Nat) : State :=
  if s.domainOn (clusterIsland k) then
    let s := (Tbl.keys s.work.streams).foldl (fun s i => match Tbl.find s.work.streams i with
      | some w => if w.cluster = k ∧ w.stopped = false then s.haltStream w else s
      | none => s) s
    let s := ((s.setCluster k Cluster.reset).zeroFill (clusterBase k) clusterStoreBytes).setDomain (clusterIsland k) false
    { s with trust := { s.trust with clKeys := s.trust.clKeys.filter (fun e => e.1 / 64 != k) } }
  else s

/-- Set which fixed domains and stacks are on for a state: Seed and Dormant power none of them (Table 13.1). A retired core stays off. -/
def State.powerTo (s : State) (t : Nat) : State :=
  let s := (List.range 128).foldl (fun (s : State) n =>
    if s.stateCore t n && !Tbl.get false s.errs.retiredCores n then s.coreUp n else s.coreOff n) s
  let s := (List.range 16).foldl (fun (s : State) k =>
    if s.stateCluster t k then s.clusterUp k else s.clusterOff k) s
  let s := (List.range 2).foldl (fun (s : State) d =>
    (s.powerDomain (memfabDomain d) (s.stateDie t d)).powerDomain (d2dDomain d) (s.stateDie t d)) s
  let s := iodDomains.foldl (fun (s : State) i => s.powerDomain i (decide (2 ≤ t))) s
  { s with mem := { s.mem with
      stackOn := (List.range 4).foldl (fun m st => Tbl.set false m st (s.stateStack t st)) s.mem.stackOn } }

/-! Entry (R571, R573, R576, R579, R580, R787). -/

/-- Deliver every event a function holds while its ring has space. -/
def State.deliverAll (s : State) (f : Nat) : State := (List.range (s.fn f).held.length).foldl (fun s _ => s.deliver f) s

/-- Step 2: POWER_DOWN_NOTICE to PF0, and in SPLIT to the lead function of link 1. -/
def State.downNotice (s : State) (t : Nat) : State :=
  let s := (s.event 0 .powerDownNotice (toLE 4 t)).deliverAll 0
  if s.host.split then (s.event s.host.link1First .powerDownNotice (toLE 4 t)).deliverAll s.host.link1First else s

/-- Step 3: the hosts remove the links, which resets nothing (R580). -/
def State.removeLink (s : State) (l : Nat) : State :=
  let x := s.link l
  if x.up then
    s.changeLink l { x with up := false, removed := true, retraining := false, ptm := false, ptmOffset := 0, width := 0, speed := 0, belowFloor := false }
  else s

/-- A context ends: it is disabled and holds nothing (R573). -/
def Ctx.ended (c : Ctx) : Ctx :=
  { c with cfg := BitVec.ofNat 32 (c.cfg.toNat % 2 ^ 31), active := false, halted := false, descs := [],
           seqReserved := 0, pending := 0, held := [], bells := [], paused := false }

/-- Every partition ends with its generation raised, and the tables are discarded: sync objects, contexts, sequences, serving, tier records,
pairs and streams, with the key slots, bindings and release entries (R572, R573, R670). -/
def State.endAll (s : State) : State :=
  let ps := Tbl.keys s.work.parts
  let s := ps.foldl (fun s p =>
    (({ s with work := { s.work with gens := Tbl.set 0 s.work.gens p ((s.gen p + 1) % 65536) } } : State).stopMedia p).keepMoved p) s
  let s := (List.range 32).foldl (fun (s : State) f =>
    s.setFn f { s.fn f with apt := (s.fn f).apt.filter (fun e => !bit e.2.toNat 31) }) s
  let u := s.cpu.sync
  let s := s.setSync { u with objs := [], flight := [], applied := u.applied + u.flight.length }
  let s := { s with
    work := { s.work with
      parts := [], clearings := [], seqs := [], attn := [], streams := [], serving := [], pairs := [], stallFrom := [], stallWorst := [], lastNormal := [], passed := [],
      ctxs := (Tbl.keys s.work.ctxs).foldl (fun t n => Tbl.set Ctx.reset t n (Tbl.get Ctx.reset t n).ended) s.work.ctxs }
    trust := { s.trust with weightKeys := [], clKeys := [], bindings := [], releases := [] } }
  s.setPwr { s.pwr with tiers := [], escSeen := [], escals := [] }

/-- The firmware no longer runs, on the management processor or on a cluster controller, and no image is measured as running (R571, R656). -/
def State.fwLose (s : State) : State :=
  let s := (List.range 16).foldl (fun (s : State) k => s.setCluster k { s.cluster k with firm := none }) s
  let s := s.setTrust { s.trust with runSvn := 0, runVersion := 0, runDigest := List.replicate 32 0 }
  s.setPwr { s.pwr with fw := { s.pwr.fw with running := false, region := none } }

/-- The last eight pages of the firmware area, where the retention image lies (R711). -/
def State.retentionPages (s : State) : List Nat :=
  let ps := areaPages (firstStack s.sproutDie) s.pwr.fw.area
  ps.drop (ps.length - 8)

/-- The bytes of the retention image, which fits its pages: the sections of a Windfall image, every context's set-up, and what is resident in
the management processor's memory, the firmware with its Windfall region, log and measured image (R571, R627). -/
def State.retentionImage (s : State) : List Byte :=
  (Config.sectionBytes 8 (s.tables, s.work.ctxs, s.pwr.fw, s.host.logRing, s.trust.runDigest, s.trust.runSvn, s.trust.runVersion)).take
    (8 * 0x200000)

/-- The firmware writes the retention image, and the root of trust keeps its digest (R571). -/
def State.writeRetention (s : State) : State :=
  let img := s.retentionImage
  let s' := (s.retentionPages.zip (List.range 8)).foldl (fun (s : State) e =>
    s.writeMem (e.1 * 0x200000) ((img.drop (e.2 * 0x200000)).take 0x200000)) s
  s'.setPwr { s'.pwr with retained := some (img.length, sha256 img), kept := some s.tables }

/-- The first n bytes of the pages of the retention image. -/
def State.retentionRead (s : State) (n : Nat) : List Byte :=
  (s.retentionPages.zip (List.range 8)).flatMap (fun e => s.readMem (e.1 * 0x200000) (min 0x200000 (n - e.2 * 0x200000)))

/-- Step 4 and the end of the tables: entry to Seed writes the retention image, entry to Dormant ends every partition (R571, R573). -/
def State.retain (s : State) (t : Nat) : State :=
  if t = 1 then
    let s := if s.pwr.fw.running then s.writeRetention else s.setPwr { s.pwr with retained := none, kept := none }
    s.setPwr { s.pwr with watch := s.watchOf 1 }
  else if t = 0 then
    let ended := Tbl.keys s.work.parts
    let s := s.endAll.fwLose
    s.setPwr { s.pwr with retained := none, kept := none, ended := s.pwr.ended ++ ended, fw := { s.pwr.fw with area := none, areas := [] } }
  else s

/-- Steps 2 to 7 of Table 13.5 as far as R787 asks for them. -/
def State.enter (s : State) (t : Nat) : State :=
  let down := decide (t < 2) && decide (2 ≤ s.pwr.state)
  let s := if down then (List.range 2).foldl State.removeLink s else s
  let s := if down then s.stopStreams (fun _ => false) .audSuspended else s
  let s := (if t < 2 then s.camSuspend (s.watchOf t) else s).retain t
  let s := s.powerTo t
  (s.setPwr { s.pwr with state := t, wakeLow := if t = 1 then false else s.pwr.wakeLow }).audStateChanged

/-- STATE_ENTRY: a committed entry to a lower state runs to its end, unless a refuser has come to hold, or comes to hold before step 6
(`late`, which covers a link that does not reach L2/L3 Ready), and aborts it (R54, R56, R58, R203, R373, R568 to R575, R579, R580,
R736, R787). -/
def execStateEntry (late : Option Nat) (s : State) : Res :=
  match s.pwr.transit with
  | none => .next s
  | some x =>
    if s.pwr.state ≤ x.target ∨ s.errs.halted = true then .next s
    else
      let hold := s.holders x.target
      let s := if hold.isEmpty && decide (x.target < 2) && decide (2 ≤ s.pwr.state) then s.downNotice x.target else s
      match (hold ++ late.toList)[0]? with
      | some r =>
        let s := (s.countRefusal r).setPwr { (s.countRefusal r).pwr with transit := none }
        .next (s.answerOpt x.req .eStateRefused r).advance'
      | none =>
        let s := s.enter x.target
        let s := s.setPwr { s.pwr with transit := none }
        .next (s.answerOpt x.req .ok).advance'

/-! Rise (R571, R572, R581 to R583). -/

/-- IOD.PCIE powers up from removed links: WAKE_N goes low (R581). -/
def State.wakeLinks (s : State) : State :=
  if s.host.link0.removed || s.host.link1.removed then s.setPwr { s.pwr with wakeLow := true } else s

/-- The retention image reads as it was written: `read` says that its lines read without error. -/
def State.retentionOk (s : State) (read : Bool) : Bool :=
  match s.pwr.retained with
  | some (n, d) => read && sha256 (s.retentionRead n) == d
  | none => true

/-- The root of trust checks the retention image as IOD.MGMT powers up; when the check fails the tables are discarded, FIRMWARE_LOST is
due on the first link that trains, and the module stands at Stage B (R571, R572, R652). -/
def State.checkRetained (s : State) (read : Bool) : State :=
  if s.retentionOk read then s.setPwr { s.pwr with retained := none, kept := none }
  else
    let s := s.endAll.fwLose
    s.setPwr { s.pwr with fwLost := true, fwLostDue := true, retained := none, kept := none, stage := 1 }

/-- The first part of a rise: its domains ramp, and from Seed the retention image is checked. -/
def State.rampUp (s : State) (t : Nat) (digestOk : Bool) : State :=
  if s.pwr.state < 2 then (s.powerTo t).wakeLinks.checkRetained digestOk else s.powerTo t

/-- The end of a rise: its target is entered, and its request is answered. -/
def State.endRise (s : State) (x : Transit) : State :=
  let low := decide (s.pwr.state < 2)
  let s := s.setPwr { s.pwr with state := x.target, transit := none }
  let s := if low && decide (2 ≤ x.target) then s.camResume else s
  (s.audStateChanged.answerOpt x.req .ok).advance'

/-- A rise waits for the firmware, which was lost in Seed and has not been loaded again (R572, R583). -/
def State.awaitsFirmware (s : State) : Bool := decide (s.pwr.state < 2) && s.pwr.fwLost && !s.pwr.fw.running

/-- STATE_RISE: the power manager ramps the domains of the target in wake order and enters it; from Seed the retention image is checked
(`digestOk`), and when that fails the target is entered by a later command, once the firmware has been loaded (R55, R65, R70, R112, R124, R394,
R456, R568, R571, R572, R581 to R583, R588, R645, R736). A rise out of Dormant is Stage B's. -/
def execStateRise (digestOk : Bool) (s : State) : Res :=
  match s.pwr.transit with
  | none => .next s
  | some x =>
    if x.target ≤ s.pwr.state ∨ s.pwr.state = 0 ∨ s.errs.halted = true ∨ s.riseLocked = true then .next s
    else
      let s := if x.powered then s else s.rampUp x.target digestOk
      .next (if s.awaitsFirmware then s.setPwr { s.pwr with transit := some { x with powered := true } } else s.endRise x)

/-! The thermal guard (R588, Table 13.8). -/

/-- The cores of partitions of a kind. -/
def State.coresOfKind (s : State) (rt : Bool) : List Nat :=
  (Tbl.keys s.work.parts).flatMap (fun p => match s.part p with
    | some x => if x.realtime == rt then x.cores else []
    | none => [])

def State.setThermal (s : State) (t : Thermal) : State := s.setPwr { s.pwr with thermal := t }

/-- Set the guard's point of a core. -/
def State.setPoint (s : State) (n p : Nat) : State := s.setThermal { s.pwr.thermal with point := Tbl.set 3 s.pwr.thermal.point n p }

/-- Stage 1: the cores of non-REALTIME partitions go down one point; one that waits in SLOW goes down from the point it runs at. -/
def State.stepDown (s : State) : State := (s.coresOfKind false).foldl (fun (s : State) n => s.setPoint n (s.runPoint n - 1)) s

/-- Stage 2: the cores of REALTIME partitions go to MIN_CLOCK, or stay below it. -/
def State.toMinClock (s : State) : State :=
  (s.coresOfKind true).foldl (fun (s : State) n =>
    match (s.coreOwner n).bind s.part with
    | some x => s.setPoint n (min x.minClock (Tbl.get 3 s.pwr.thermal.point n))
    | none => s) s

/-- The dies whose cores stage 3 takes to 320 MHz: both for a junction, a stack's own otherwise. -/
def State.hotDies (s : State) (junction : Int) : List Nat :=
  if 111 ≤ junction then [0, 1]
  else (List.range 2).filter (fun d => decide (105 ≤ Tbl.get 0 s.mem.temp (2 * d)) || decide (105 ≤ Tbl.get 0 s.mem.temp (2 * d + 1)))

/-- Stage 3: the cores of the dies go to 320 MHz and running REAL_TIME descriptors lose their WCET (R362). -/
def State.toFloor (s : State) (dies : List Nat) : State :=
  let s := (List.range 128).foldl (fun (s : State) n => if dies.contains (n / 64) then s.setPoint n 0 else s) s
  (Tbl.keys s.work.parts).foldl (fun s p => match s.part p with
    | some x => if x.cores.any (fun n => dies.contains (n / 64)) then s.wcetVoid 0 p else s
    | none => s) s

/-- Sprout has been entered without a request: a committed entry to it ends, a pending request for it is answered, and what waited goes on
(R576, R588). -/
def State.inSprout (s : State) : State :=
  let s := match s.pwr.transit with
    | some x => if x.target = 2 then (s.setPwr { s.pwr with transit := none }).answerOpt x.req .ok else s
    | none => s
  let s := match s.pwr.pending with
    | some r => if r.target = 2 then (s.setPwr { s.pwr with pending := none }).answerReq r .ok else s
    | none => s
  s.advance'

/-- Stage 4: FAULT_N goes low, every running tile aborts, and the module enters Sprout by steps 5 to 7 of Table 13.5; a rise under way is
refused, and no rise is taken until the hottest junction is below 95 °C. Work on cores that turn off fails with its tile. -/
def State.meltdown (s : State) : State :=
  let s := s.driveFault 3
  let off := fun (n : Nat) => decide (2 < s.pwr.state) && !s.stateCore 2 n
  let cores := (Tbl.keys s.cpu.cores).filter (fun n => (s.core n).tile.isSome || (off n && (s.core n).work.isSome))
  let held := (Tbl.keys s.cpu.cores).filter (fun n => off n && (s.core n).resume.isSome)
  let s := cores.foldl (fun s n => s.abortTile n .eThermal) s
  let s := held.foldl (fun (s : State) n => match (s.core n).resume with
    | some r => s.faultDesc n r.work.ctx r.work.idx r.tileId .eThermal
    | none => s) s
  let s := (Tbl.keys s.work.ctxs).foldl (fun s n => ((s.ctx n).descs.map (·.idx)).foldl (fun s i => s.handleFault n i) s) s
  let s : State := match s.pwr.transit with
    | some x =>
      if s.pwr.state < x.target ∨ 2 < x.target then
        let s := if x.powered then s.powerTo s.pwr.state else s
        (s.setPwr { s.pwr with transit := none }).answerOpt x.req .eStateRefused (Config.unstatedField 0)
      else s
    | none => s
  if 2 < s.pwr.state then (s.enter 2).inSprout else s

/-- The highest stage whose condition holds. -/
def State.thermalCond (s : State) (t : Thermal) : Nat :=
  let stack := (List.range 4).any (fun st => decide (105 ≤ Tbl.get 0 s.mem.temp st))
  if 10 ≤ t.hot ∨ 1000 ≤ t.stackHot then 4
  else if 111 ≤ t.junction ∨ stack = true then 3
  else if 108 ≤ t.junction ∨ 100 ≤ t.floor then 2
  else if 105 ≤ t.junction then 1
  else 0

/-- THERM_ALERT_N is low in stages 1 to 4 (R588). -/
def State.thermAlertLow (s : State) : Bool := decide (1 ≤ s.pwr.thermal.stage)

/-- The counters of a sample with the hottest junction. -/
def State.sample (s : State) (junction : Int) : Thermal :=
  let t := s.pwr.thermal
  let stack := (List.range 4).any (fun st => decide (105 ≤ Tbl.get 0 s.mem.temp st))
  let floored := t.stage == 1 && (s.coresOfKind false).all (fun n => s.corePoint n == 0)
  { t with
    junction := junction, hot := if 115 ≤ junction then t.hot + 1 else 0, stackHot := if stack then t.stackHot + 1 else 0,
    floor := if floored then t.floor + 1 else 0, sinceStep := t.sinceStep + 1, cool := if junction < 100 then t.cool + 1 else 0,
    lock := t.lock && decide (95 ≤ junction) }

/-- The actions of a stage that has been entered or stands; `fresh` says that it has just been entered. -/
def State.thermalAct (s : State) (stage : Nat) (entered4 fresh1 : Bool) : State :=
  let s := if 1 ≤ stage ∧ (fresh1 = true ∨ 10 ≤ s.pwr.thermal.sinceStep) then
      s.stepDown.setThermal { s.stepDown.pwr.thermal with sinceStep := 0 }
    else s
  let s := if 2 ≤ stage then s.toMinClock else s
  let s := if 3 ≤ stage then s.toFloor (s.hotDies s.pwr.thermal.junction) else s
  if entered4 then (s.setThermal { s.pwr.thermal with lock := true }).meltdown else s

/-- THERMAL_GUARD_SAMPLE: the thermal guard reads the hottest junction, each 100 µs, enters the stage its conditions call for and acts by it
(R107, R362, R587, R588, R744, Table 13.8). -/
def execThermalGuardSample (junction : Int) (s : State) : Res :=
  if s.errs.halted || !s.unitsRun then .next s
  else
    let old := s.pwr.thermal
    let t := s.sample junction
    let cond := s.thermalCond t
    let stage := if 100 ≤ t.cool then cond else max old.stage cond
    let s := s.setThermal { t with stage := stage }
    let s := if stage = old.stage then s else s.event 0 .thermalStage (toLE 4 (stage + 256 * wrap 8 junction))
    let s := s.thermalAct stage (stage == 4 && old.stage != 4) (old.stage == 0)
    .next (if old.lock && !s.pwr.thermal.lock then s.advance' else s)

/-- THERMAL_RECOVERY_STEP: once the guard has left its stages, the cores it holds down go up one clock point, to MAX_CLOCK at most (R588). -/
def execThermalRecoveryStep (s : State) : Res :=
  let t := s.pwr.thermal
  if t.stage ≠ 0 then .next s
  else
    .next ((Tbl.keys t.point).foldl (fun (s : State) n =>
      let p := Tbl.get 3 s.pwr.thermal.point n + 1
      let top := match (s.coreOwner n).bind s.part with
        | some x => x.maxClock
        | none => 0
      s.setPoint n (if top ≤ p then 3 else p)) s)

end Sys2Proof.Machine
end

