-- ==== Sys2Proof/Machine/Registers.lean ====
section
/-!
DEFINITION. Accesses to set-up registers, the pins' latches, and trace (R23 to R28, R506, R515, R690, R721 to R735).
-/
namespace Sys2Proof.Machine

/-! Reads (R23, R24, R26, R730). A module without power completes none (R731). -/

/-- BAR0_MISALIGNED_ACCESS: an access that is not a naturally aligned 32-bit access is counted; a read returns 0 and a write is dropped
(R23, R730). -/
def execBar0MisalignedAccess (f : Nat) (write : Bool) (s : State) : Res :=
  if !s.pwr.aon then .next s else
  let x := s.fn f
  let s := s.setFn f { x with accessErr := satAdd x.accessErr 1 0xFFFF }
  .next (if write then s else s.emit (.regRead f 0))

/-- COUNTER_LO_READ: a read of a 64-bit counter's low word returns it and latches the high word for that function and counter (R24, R328,
R540). -/
def execCounterLoRead (f addr : Nat) (s : State) : Res :=
  if !s.pwr.aon then .next s else
  match s.counter f addr with
  | none => .next (s.emit (.regRead f 0))
  | some v =>
    let x := s.fn f
    let s := s.setFn f { x with latch := Tbl.put x.latch addr (BitVec.ofNat 32 (v / 2 ^ 32)) }
    .next (s.emit (.regRead f (BitVec.ofNat 32 v)))

/-- Clear the RC fields of a register that a function has read (R26, Tables 13.4, 17.9, 18.7, 18.12, 18.14 and 18.15). While
the block's domain is off nothing is cleared (R56; DEDUCED, log entry 175). -/
def State.clearRead (s : State) (f addr : Nat) : State :=
  let off := addr % 0x100000
  if addr = 0x30 then s.setFn f { s.fn f with accessErr := 0 }
  else if 0x100100 ≤ addr ∧ addr < 0x100124 ∧ f = 0 then
    s.setPwr { s.pwr with refusals := Tbl.del s.pwr.refusals ((off - 0x100) / 4) }
  else if 0x700300 ≤ addr ∧ addr < 0x700380 then
    let n := (off - 0x300) / 8
    let x := s.media.port n
    if (f ≠ 0 ∧ x.owner ≠ f) ∨ s.groupOn (n / 4) = false then s
    else s.setPort n (if off % 8 = 0 then { x with hdrEcc := 0, unmatched := 0 } else { x with crcBad := 0, hdrCorrected := 0 })
  else if 0x800010 ≤ addr ∧ addr < 0x800020 ∧ f = 0 then
    let p := (off - 0x10) / 4
    if s.pipeOn p then s.setMedia (s.media.setPipe p { s.media.pipe p with drops := 0 }) else s
  else if addr = 0xA00004 ∧ f = 0 then (if s.postOn then s.setPost { s.cpu.post with completed := 0 } else s)
  else if addr = 0xF00014 ∧ f = 0 then { s with host := { s.host with trace := { s.host.trace with drops := 0 } } }
  else s

/-- The read of a counter's high word uses up the value latched for the function (R24). -/
def State.useLatch (s : State) (f addr : Nat) : State :=
  if (s.counter f addr).isNone && (s.counterHigh f addr).isSome then
    s.setFn f { s.fn f with latch := Tbl.del (s.fn f).latch (addr - 4) }
  else s

/-- RC_REGISTER_READ: an aligned read of a register other than a counter's low word returns it and then clears its RC fields (R24, R26,
R28, R506, R726, R732). -/
def execRcRegisterRead (f addr : Nat) (s : State) : Res :=
  if addr % 4 ≠ 0 ∨ (s.counter f addr).isSome = true ∨ s.pwr.aon = false then .next s
  else .next (((s.emit (.regRead f (BitVec.ofNat 32 (s.readReg f addr)))).useLatch f addr).clearRead f addr)

/-! Writes (R25 to R27, R506, R515, R726, R732). -/

/-- Write a register of a context without a row of its own: while ACTIVE is 1 the bases, VECTOR_HI and CFG stay (R515, Tables 11.6 to
11.9). A MOD that makes a message of pending records due sends it (R535). A write that changes ENABLE is CTX_ENABLE's or CTX_DISABLE's. -/
def State.writeCtx (s : State) (n off value : Nat) : State :=
  let c := s.ctx n
  let v : Word := BitVec.ofNat 32 value
  if off = 0x14 then
    let c := { c with mod := v &&& 0x03FF00FF }
    let s := s.setCtx n c
    if 0 < c.pending ∧ (max 1 (bits value 7 0) ≤ c.pending ∨ bits value 25 16 = 0) then s.sendMsg (s.ctxFn n) c.entry else s
  else if off = 0x18 then s.setCtx n { c with dbBad := c.dbBad && !bit value 3 }
  else if c.active then s
  else
    match off with
    | 0x00 => s.setCtx n { c with sqLo := v &&& 0xFFFFF000 }
    | 0x04 => s.setCtx n { c with sqHi := v }
    | 0x08 => s.setCtx n { c with cqLo := v &&& 0xFFFFF000 }
    | 0x0C => s.setCtx n { c with cqHi := v }
    | 0x10 => if bit value 31 != c.enabled then s else s.setCtx n { c with cfg := BitVec.ofNat 32 (value &&& cfgMask) }
    | 0x2C => s.setCtx n { c with vectorHi := v &&& 0x1F }
    | _ => s

/-- A GO with a CODE: the command is queued for the root of trust, and runs with its row; a CODE outside Table 15.7 is denied at once (R646
to R648). -/
def State.writeGo (s : State) (f code : Nat) : State :=
  let s := s.mailGo f code none
  if 1 ≤ code ∧ code ≤ 7 then s else s.mailDone f .eSecDenied []

/-- Write a mailbox register of a function (Tables 15.3 to 15.5). A GO while BUSY has no effect (R648). -/
def State.writeMbox (s : State) (f off value : Nat) : State :=
  let m := s.mbox f
  let v : Word := BitVec.ofNat 32 value
  match off with
  | 0x00 => if bit value 31 && m.run.isNone then s.writeGo f (value % 256) else s.setMbox f { m with code := value % 256 }
  | 0x04 => s.setMbox f { m with ptrLo := v &&& 0xFFFFFFC0 }
  | 0x08 => s.setMbox f { m with ptrHi := v }
  | 0x0C => s.setMbox f { m with len := v }
  | 0x10 => s.setMbox f { m with arg := v }
  | 0x14 => s.setMbox f { m with done := m.done && !bit value 30 }
  | _ => s

def State.setTrace (s : State) (t : Trace) : State := { s with host := { s.host with trace := t } }

/-- Write a register of the TRC block other than TRC_CTRL (Table 17.9). -/
def State.writeTrc (s : State) (off value : Nat) : State :=
  let t := s.host.trace
  let v : Word := BitVec.ofNat 32 value
  if off = 0x04 then s.setTrace { t with baseLo := v &&& 0xFFFFF000 }
  else if off = 0x08 then s.setTrace { t with baseHi := v }
  else if off = 0x10 then s.setTrace { t with head := v }
  else if 0x100 ≤ off ∧ off < 0x300 ∧ off % 4 = 0 then s.setTrace { t with enable := Tbl.set 0 t.enable ((off - 0x100) / 4) v }
  else s

/-- Write a word of a function's MSI-X table; word 3 holds the mask bit, whose clearing is VECTOR_UNMASK (R727). -/
def State.writeMsix (s : State) (f addr value : Nat) : State :=
  let x := s.fn f
  let v := (addr - 0x3F00000) / 16
  let i := addr % 16 / 4
  if s.vectors f ≤ v then s
  else if i < 3 then s.setFn f { x with msix := Tbl.set 0 x.msix (4 * v + i) (BitVec.ofNat 32 value) }
  else if bit value 0 then s.setFn f { x with masked := Tbl.set true x.masked v true }
  else s

/-- REGISTER_WRITE: an aligned write by a function to a set-up register without a row of its own sets, clears or ignores its fields by
their access codes (R25 to R27, R55, R392, R497, R506, R515, R546, R726 to R732). -/
def execRegisterWrite (f addr value : Nat) (s : State) : Res :=
  s.regWrite (addr % 4 == 0) (fun s =>
    let off := addr % 0x100000
    match addr / 0x100000 with
    | 3 => if off < 0x40000 ∧ s.ctxFn (off / 64) = f then s.writeCtx (off / 64) (off % 64) value else s
    | 7 =>
      if f = 0 ∧ 0x100 ≤ off ∧ off < 0x140 ∧ bit value 0 = (s.media.port ((off - 0x100) / 4)).en then
        s.writePoc ((off - 0x100) / 4) value
      else s
    | 9 =>
      if f = 0 ∧ (off = 0x30 ∨ off = 0x34) then
        s.setGroup ((off - 0x30) / 4) { s.media.group ((off - 0x30) / 4) with indCfg := BitVec.ofNat 32 (value % 16) }
      else s
    | 11 => s.writeMbox f off value
    | 15 => if f = 0 then s.writeTrc off value else s
    | 63 => if addr < 0x3F80000 then s.writeMsix f addr value else s
    | _ => s)

/-! The latches of the pins (R734, R735). -/

/-- GLB_SAFE_CLEAR: PF0 releases the SAFE_STATE_N latch, unless a cause arises with the clear (`cause`) (R386, R734). -/
def execGlbSafeClear (f : Nat) (cause : Bool) (s : State) : Res :=
  s.regWrite (f == 0) (fun s => if cause then s else s.setPwr { s.pwr with safeLow := false, safeCause := 0 })

/-- GLB_FAULT_CLEAR: PF0 asks for the release of FAULT_N, granted only after thermal stage 4 once the hottest junction stands below 95 °C
(R735). -/
def execGlbFaultClear (f : Nat) (s : State) : Res :=
  s.regWrite (f == 0) (fun s =>
    if s.pwr.faultCause = 3 ∧ s.pwr.thermal.junction < 95 then s.setPwr { s.pwr with faultLow := false, faultCause := 0 } else s)

/-! Trace (R690, R721 to R723). -/

/-- A trace point emits records: a hardware point of Table 17.7 or a firmware point. -/
def tracePoint (p : Nat) : Bool :=
  decide (p ≤ 11) || inRange p 64 67 || p == 256 || p == 384 || p == 448 || p == 480 || inRange p 1024 4095

/-- The arguments that Table 17.7 gives a hardware point: it leaves ARG2 0 for a refuser, a state entered and a Minuet save, and a hardware point has
no ARG3. -/
def traceArgs (point : Nat) : Nat := if point ≤ 9 ∨ point = 67 then 2 else if point < 1024 then 3 else 4

/-- A trace record of PF0 that finds no slot at its next hop is dropped: nothing leaves the hop of a link that retrains within 64 cycles (R690).
-/
def State.traceBlocked (s : State) : Bool :=
  let l := s.linkOf 0
  (s.link l).retraining && ((s.hop l).slotFor (Config.hopShared l)
    { cls := 6, fn := 0, size := 32, since := s.host.refTicks, escape := false, out := .aer false false }).isNone

/-- TRACE_RECORD_EMIT: the event of an enabled trace point occurs at an island; its record goes to PF0's trace ring, or is dropped and counted when
the ring is full or its next hop has no room (`blocked`, or a hop that is full over a retrain) (R690, R721 to R723). No other command of the model emits a record (DESIGN CHOICE, log
entry 179). -/
def execTraceRecordEmit (point island fn part : Nat) (args : List Word) (blocked : Bool) (s : State) : Res :=
  let t := s.host.trace
  if !t.en || !tracePoint point || !bit (Tbl.get (0 : Word) t.enable (point / 32)).toNat (point % 32) || s.errs.halted then .next s
  else
    let seq := Tbl.get 0 t.seq island
    let t' := { t with seq := Tbl.set 0 t.seq island ((seq + 1) % 2 ^ 32) }
    let i := t.tail.toNat
    if blocked || s.traceBlocked || 2 ^ t.ringLog2 ≤ diff32 i t.head.toNat then
      .next (s.setTrace { t' with drops := if t.drops = 0xFFFFFFFF then t.drops else t.drops + 1 })
    else
      let phase := (i / 2 ^ t.ringLog2) % 2 == 0
      let arg := fun (k : Nat) => toLE 4 (if k < traceArgs point then (args.getD k 0).toNat else 0)
      let bytes := toLE 8 (s.stampFor 0) ++ toLE 4 (point + island * 2 ^ 12 + fn * 2 ^ 20 + part * 2 ^ 25 + b2n phase * 2 ^ 31) ++
        arg 0 ++ arg 1 ++ arg 2 ++ arg 3 ++ toLE 4 seq
      let base := t.baseLo.toNat + t.baseHi.toNat * 2 ^ 32
      .next (((s.accountFn 0 4 32).hostWrite 0 (base + i % 2 ^ t.ringLog2 * 32) bytes false 6 false).setTrace { t' with tail := t.tail + 1 })

/-- TRC_CTRL_WRITE: PF0 enables trace, which sets its indices and its islands' counts to 0, or disables it; the ring size is ignored while
EN is 1 (R723, Table 17.9). -/
def execTrcCtrlWrite (f value : Nat) (s : State) : Res :=
  s.regWrite (f == 0) (fun s =>
    let t := s.host.trace
    let en := bit value 31
    if t.en then s.setTrace { t with en := en }
    else
      let t := { t with en := en, ringLog2 := value % 32 }
      s.setTrace (if en then { t with tail := 0, head := 0, seq := [] } else t))

end Sys2Proof.Machine
end

