-- ==== Sys2Proof/Machine/Sequencer.lean ====
section
/-!
DEFINITION. The sequencer's control instructions (R76 to R81, R185 to R193, R781, R782, R784, R785).
-/
namespace Sys2Proof.Machine

/-- The partition and generation a core works for; 64 when it works for none. -/
def Core.owner (c : Core) : Nat × Nat :=
  match c.work with
  | some w => (w.part, w.gen)
  | none => (64, 0)

/-- TILE: open an execution tile; the flags are cleared, and the accumulators, vector registers, loops and the core-store bytes
outside the live ranges of the entry it names carry no defined value into it (R167, R187, R188). A pending Minuet request
and a stop that the fault handler asks for hold the issue of TILE (Tables 8.2 and 8.5). -/
def execTile (n : Nat) (s : State) : Res :=
  s.issue n 0x01 (fun c w =>
    let id := bits w 15 0
    let live := match c.prog with
      | some p => p.live
      | none => []
    if c.tile.isSome then s.stopIllegal n
    else if c.minuetReq || c.stopReq then s
    else if reservedSet w 0xFF0000000000FFFF || decide (live.length ≤ id) then s.stopIllegal n
    else
      let c := { c with
        tile := some { id := id, pos := c.pc, inBody := false, proxies := [] }, lastTile := id, accSat := false,
        accNonfin := false, acc := [], accBase := some s.draws, v := [], vBase := some (s.draws + 1), vPad := [], loops := [], wrote := [] }
      (({ s with draws := s.draws + 2 } : State).keepRanges n (live.getD id [])).advance n c)

/-- Add the flags of a finished tile to its descriptor (R168, R169). -/
def Ctx.addTileFlags (x : Ctx) (idx : Nat) (sat nonfin : Bool) : Ctx :=
  { x with descs := x.descs.map (fun d =>
      if d.idx = idx then { d with accSat := d.accSat || sat, accNonfin := d.accNonfin || nonfin } else d) }

/-- Release one entry of a commit queue: a MOVE to the cluster controller, a SIGNAL to its sync object (R190). -/
def releaseEntry (n : Nat) (work : CoreWork) (tileId : Nat) (s : State) : CommitEntry → State
  | .signal sync add => s.signal sync add work.part work.gen
  | .move raw =>
    let k := n / 8
    let cl := s.cluster k
    s.setCluster k { cl with released := cl.released ++ [{
      slot := 0, raw := raw, owner := .program n tileId, ctx := work.ctx, idx := work.idx, part := work.part,
      gen := work.gen, weightSlot := 0 }] }

/-- COMMIT: release the queued entries in program order and close the tile (R190); a wait set of the tile that is still watched
can no longer abort it (R785). A queued signal whose object the partition no longer owns aborts the tile (R199). -/
def execCommit (n : Nat) (s : State) : Res :=
  s.issue n 0x02 (fun c w =>
    if reservedSet w 0xFF00000000000000 then s.stopIllegal n
    else
      s.inTile n c (fun c =>
        match c.work, c.tile with
        | some work, some t =>
          let bad := c.commitQ.any (fun e => match e with
            | .signal sync _ => !s.ownsSync work.part work.gen sync
            | .move _ => false)
          if bad then s.abortTile n .eSyncOwner
          else
            let s1 := c.commitQ.foldl (releaseEntry n work t.id) s
            let s1 := s1.setCluster (n / 8) ((s1.cluster (n / 8)).disarm n)
            let s2 := s1.setCtx work.ctx ((s1.ctx work.ctx).addTileFlags work.idx c.accSat c.accNonfin)
            s.stallUpdate work.part (s2.advance n { c with tile := none, commitQ := [], loops := [], wrote := [] })
        | _, _ => s.stopIllegal n))

/-- The island mode a WAIT enters: the lesser of PMODE and ALLOW; OFF only for a tile whose live-table entry lists no
ranges and while no Minuet and no audit epoch (`tally`) is open for the core, GATE otherwise, with the refusers to count (R584,
R585). -/
def waitMode (tally : Bool) (c : Core) (pmode : Nat) : Nat × List Nat :=
  let m := min pmode c.allow
  if m = 3 then
    let ranges := match c.prog, c.tile with
      | some p, some t => p.live.getD t.id []
      | _, _ => []
    if !ranges.isEmpty then (1, [])
    else
      let refusers := (if c.minuetReq then [2] else []) ++ (if tally then [4] else [])
      (if refusers.isEmpty then 3 else 1, refusers)
  else (m, [])

/-- The core domain turns off: the core store and what is not in the register block are lost (R54, R65, R70, R584). The
accumulator slots forget their type with their words (DEDUCED, log entry 155). -/
def State.modeOff (s : State) (n : Nat) (c : Core) : State :=
  ((s.zeroFill (coreBase n) coreStoreBytes).setDomain (coreIsland n) false).setCore n { c with acc := [], accBase := none, accFp := [], v := [], vBase := none, vPad := [] }

/-- A core of a partition has entered SLOW: where MIN_CLOCK lies above its clock point, condition 0 of R361 fails (R361, R362, R584). -/
def State.voidSlow (s : State) (n p : Nat) : State := match s.part p with
  | some x => if s.corePoint n < x.minClock then s.wcetVoid 0 p else s
  | none => s

/-- WAIT: stop issue until a sync object meets a condition, possibly entering a lower island mode (R79, R196, R584). With a Minuet
request open the core abandons the preamble instead of waiting (R352). -/
def execWait (n : Nat) (s : State) : Res :=
  s.issue n 0x03 (fun c w =>
    let cond := bits w 55 54
    let pmode := bits w 48 46
    let sync := bits w 15 0
    let tgt := c.sreg (bits w 53 49)
    if reservedSet w 0xFFFFC0000000FFFF || decide (1 < cond) || decide (3 < pmode) then s.stopIllegal n
    else
      match c.tile with
      | none => s.stopIllegal n
      | some t =>
        if t.inBody then s.stopIllegal n
        else
          let (p, g) := c.owner
          if !s.ownsSync p g sync then s.abortTile n .eSyncOwner
          else
            let wt : SyncWait := { sync := sync, eq := cond == 1, target := tgt }
            let c := { c with tile := some { t with proxies := t.proxies.filter (fun x => !(x == sync)) } }
            if s.waitHolds wt then s.advance n c
            else
              let (m, refusers) := waitMode (s.tallyOpen (coreIsland n)) c pmode
              let s := refusers.foldl State.countRefusal s
              if c.minuetReq then (s.dropWaits n).setCore n c.abandon else
              let c := { c with run := .waiting wt, mode := m }
              let s' := stallOf n s (if m = 3 then s.modeOff n c else s.setCore n c)
              if m = 2 then s'.voidSlow n p else s')

/-- WAIT_RESUME: the wake notification reaches the sequencer, which resumes issue after the WAIT (Table 4.6, R585). -/
def execWaitResume (n : Nat) (s : State) : Res :=
  if s.errs.halted then .next s else
  let c := s.core n
  if c.run = .woken then .next (stallOf n s ((s.modeUp n).advance n { c with run := .running, mode := 0 })) else .next s

/-- SIGNAL: queue a signal in the commit queue (R189, R199). A foreign object is reported before a full queue (DESIGN
CHOICE, log entry 199). -/
def execSignal (n : Nat) (s : State) : Res :=
  s.issue n 0x04 (fun c w =>
    s.inBody n c (fun c =>
      let (p, g) := c.owner
      if reservedSet w 0xFF00FFFF0000FFFF || bits w 47 32 == 0 then s.stopIllegal n
      else if !s.ownsSync p g (bits w 15 0) then s.abortTile n .eSyncOwner
      else if 16 ≤ c.commitQ.length then s.stopIllegal n
      else s.advance n { c with commitQ := c.commitQ ++ [.signal (bits w 15 0) (bits w 47 32)] }))

/-- MOVE: copy a move descriptor from the core store into the commit queue (R189). A full queue is reported before a
poisoned descriptor (DESIGN CHOICE, log entry 199). -/
def execMove (n : Nat) (s : State) : Res :=
  s.issue n 0x05 (fun c w =>
    s.inBody n c (fun c =>
      let a := 64 * bits w 14 0
      if reservedSet w 0xFF00000000007FFF || decide (16 ≤ c.commitQ.length) then s.stopIllegal n
      else if s.corePoisoned n a 64 then s.abortTile n .eMemPoison
      else s.advance n { c with commitQ := c.commitQ ++ [.move (s.coreRead n a 64)] }))

/-- TDLOAD: a tile descriptor from the core store into a descriptor register (R185). -/
def execTdload (n : Nat) (s : State) : Res :=
  s.issue n 0x06 (fun c w =>
    s.anyPlace n c (fun c =>
      let a := 32 * bits w 15 0
      if reservedSet w 0xFF0F00000000FFFF then s.stopIllegal n
      else if s.corePoisoned n a 32 then s.abortTile n .eMemPoison
      else s.advance n (c.setTdreg (bits w 51 48) (s.coreRead n a 32))))

/-- One entry of a wait-set record (R785). -/
def waitSetEntry (r : List Byte) (i : Nat) : SyncWait :=
  { sync := fld r (8 + 8 * i) 2, eq := bit (fld r (8 + 8 * i) 4) 16, target := BitVec.ofNat 32 (fld r (12 + 8 * i) 4) }

/-- The record obeys its layout (R785). -/
def waitSetOk (r : List Byte) : Bool :=
  let count := fldBits r 0 3 0
  decide (1 ≤ count) && decide (count ≤ 8) && fldBits r 0 31 4 == 0 &&
  (List.range count).all (fun i => fldBits r (8 + 8 * i) 31 17 == 0) &&
  zeroBytes r (8 + 8 * count) (128 - (8 + 8 * count))

/-- WAITSET: ask the cluster controller to watch several sync objects and signal a proxy object (R785). Of several failed
checks the first in this order is reported: store range, poison, record, feature bits, owner of the objects (DESIGN CHOICE, log entry 199). -/
def execWaitset (n : Nat) (s : State) : Res :=
  s.issue n 0x07 (fun c w =>
    if reservedSet w 0xFF00FFFF00007FFF then s.stopIllegal n
    else
      match c.tile with
      | none => s.stopIllegal n
      | some t =>
        if t.inBody then s.stopIllegal n
        else
          let a := 64 * bits w 14 0
          let proxy := bits w 47 32
          let (p, g) := c.owner
          if coreStoreBytes < a + 128 then s.abortTile n .eStoreRange
          else if s.corePoisoned n a 128 then s.abortTile n .eMemPoison
          else
            let r := s.coreRead n a 128
            let count := fldBits r 0 3 0
            let timeout := fld r 4 4
            let feats := match c.prog with
              | some pr => pr.features
              | none => 0
            if !waitSetOk r then s.abortTile n .eSeqIllegal
            else if (decide (1 < count) && !bit feats 0) || (timeout != 0 && !bit feats 1) then s.abortTile n .eSeqIllegal
            else
              let es := (List.range count).map (waitSetEntry r)
              if !(s.ownsSync p g proxy && es.all (fun e => s.ownsSync p g e.sync)) then s.abortTile n .eSyncOwner
              else
                let ws : WaitSet := { core := n, part := p, gen := g, proxy := proxy, entries := es, timeout := timeout,
                                      met := es.any s.waitHolds }
                let k := n / 8
                let cl := s.cluster k
                (s.setCluster k { cl with waitSets := cl.waitSets ++ [ws] }).advance n
                  { c with tile := some { t with proxies := t.proxies ++ [proxy] } })

/-- WAITSET_PROXY_SIGNAL: an entry of wait set i of a cluster has met its condition and the controller adds 1 to the
proxy object (R785). -/
def execWaitsetProxySignal (k i : Nat) (s : State) : Res :=
  if s.errs.halted then .next s else
  let cl := s.cluster k
  match cl.waitSets[i]? with
  | some ws =>
    if ws.met then
      .next ((s.setCluster k { cl with waitSets := cl.waitSets.eraseIdx i }).signal ws.proxy 1 ws.part ws.gen)
    else .next s
  | none => .next s

/-- WAITSET_TIMEOUT: a timed wait set expires and its tile aborts with SYNC_TIMEOUT (R785). -/
def execWaitsetTimeout (k i : Nat) (s : State) : Res :=
  if s.errs.halted then .next s else
  match (s.cluster k).waitSets[i]? with
  | some ws => if ws.timeout ≠ 0 ∧ ws.met = false then .next (s.stallAll (s.abortTile ws.core .syncTimeout)) else .next s
  | none => .next s

/-- The instruction word at a position of the whole text, whichever overlay is in the buffer. -/
def Core.textAt (c : Core) (pos : Nat) : Option Nat := match c.prog with
  | some p => (p.words[pos]?).map BitVec.toNat
  | none => none

def Core.opAt (c : Core) (pos : Nat) : Nat := match c.textAt pos with
  | some w => opcodeOf w
  | none => 0

/-- The nearest position from pos on whose instruction carries the opcode. -/
def Core.nextOp (c : Core) (op pos : Nat) : Option Nat := (rangeFrom pos (c.codeEnd - pos)).find? (fun q => c.opAt q == op)

/-- LOOP: open a hardware loop over the following body (R781). Outside every tile a body may reach past the last
instruction: the program then ends there without another run (DESIGN CHOICE, log entry 200). -/
def execLoop (n : Nat) (s : State) : Res :=
  s.issue n 0x08 (fun c w =>
    s.anyPlace n c (fun c =>
      let len := bits w 39 24
      let cnt := if bits w 53 49 = 0 then bits w 23 0 else (c.sreg (bits w 53 49)).toNat
      let first := c.pc + 1
      let past := match c.loops with
        | f :: _ => decide (f.start + f.len < first + len)
        | [] => false
      let hasTile := (rangeFrom first len).any (fun q => c.opAt q == 1 || c.opAt q == 2)
      if reservedSet w 0xFFFE00FFFFFFFFFF || bits w 55 54 != c.loops.length || len == 0 || past || hasTile then
        s.stopIllegal n
      else if cnt = 0 then s.continueAt n c (first + len)
      else s.continueAt n { c with loops := { start := first, len := len, left := cnt } :: c.loops } first))

/-- A position lies in a tile, its preamble or its body, when the nearest TILE or COMMIT before it is a TILE (R784). -/
def Core.inTileText (c : Core) (pos : Nat) : Bool :=
  match ((List.range pos).reverse).find? (fun q => c.opAt q == 1 || c.opAt q == 2) with
  | some q => c.opAt q == 1
  | none => false

/-- First position after the preamble of the tile opened at pos (R188). -/
def Core.bodyStart (c : Core) (pos : Nat) : Nat :=
  ((rangeFrom (pos + 1) (c.codeEnd - pos)).find? (fun q => !(c.opAt q == 3 || c.opAt q == 7))).getD c.codeEnd

/-- A taken branch to a target breaks a rule of R784. -/
def Core.branchBad (c : Core) (target : Int) : Bool :=
  if target < 0 ∨ (c.codeEnd : Int) ≤ target then true
  else
    let q := target.toNat
    let tileBad := match c.tile with
      | some t =>
        let last := (c.nextOp 2 (t.pos + 1)).getD c.codeEnd
        decide (q < c.bodyStart t.pos) || decide (last < q)
      | none => c.inTileText q && c.opAt q != 1
    let loopBad := match c.loops with
      | f :: _ => decide (q < f.start) || decide (f.start + f.len ≤ q)
      | [] => false
    let enters := (List.range c.codeEnd).any (fun p =>
      c.opAt p == 8 &&
        (match c.textAt p with
        | some w =>
          let len := bits w 39 24
          decide (p < q) && decide (q ≤ p + len) && !(decide (p < c.pc) && decide (c.pc ≤ p + len))
        | none => false))
    tileBad || loopBad || enters

/-- BRANCH conditions (R784); none for a code that is not defined. -/
def branchHolds (cond : Nat) (a b : Word) : Option Bool :=
  match cond with
  | 0 => some true
  | 1 => some (a == b)
  | 2 => some (a != b)
  | 3 => some (decide (sext 32 a.toNat < sext 32 b.toNat))
  | 4 => some (decide (sext 32 b.toNat ≤ sext 32 a.toNat))
  | 5 => some (decide (a.toNat < b.toNat))
  | 6 => some (decide (b.toNat ≤ a.toNat))
  | _ => none

/-- BRANCH: continue at a relative offset when the condition holds (R784). -/
def execBranch (n : Nat) (s : State) : Res :=
  s.issue n 0x09 (fun c w =>
    s.anyPlace n c (fun c =>
      match branchHolds (bits w 55 52) (c.sreg (bits w 51 47)) (c.sreg (bits w 46 42)) with
      | none => s.stopIllegal n
      | some taken =>
        if reservedSet w 0xFFFFFC00FFFFFFFF then s.stopIllegal n
        else if !taken then s.advance n c
        else
          let target : Int := (c.pc : Int) + sext 32 (bits w 31 0)
          if c.branchBad target then s.stopIllegal n else s.continueAt n c target.toNat))

/-- SALU operations (R784); none for a code that is not defined. -/
def saluOp (op : Nat) (a b : Word) : Option Word :=
  match op with
  | 0x00 => some (a + b)
  | 0x01 => some (a - b)
  | 0x02 => some (a * b)
  | 0x03 => some (a &&& b)
  | 0x04 => some (a ||| b)
  | 0x05 => some (a ^^^ b)
  | 0x06 => some (a <<< (b.toNat % 32))
  | 0x07 => some (a >>> (b.toNat % 32))
  | 0x08 => some (BitVec.sshiftRight a (b.toNat % 32))
  | 0x09 => some (if BitVec.slt b a then b else a)
  | 0x0A => some (if BitVec.slt a b then b else a)
  | 0x0B => some (if BitVec.ult b a then b else a)
  | 0x0C => some (if BitVec.ult a b then b else a)
  | 0x0D => some b
  | _ => none

/-- SALU: s-d := s-a OP b (R784). -/
def execSalu (n : Nat) (s : State) : Res :=
  s.issue n 0x0A (fun c w =>
    s.anyPlace n c (fun c =>
      let b := if bit w 34 then BitVec.ofNat 32 (bits w 31 0) else c.sreg (bits w 39 35)
      if reservedSet w 0xFFFFFFFCFFFFFFFF then s.stopIllegal n
      else
        match saluOp (bits w 55 50) (c.sreg (bits w 44 40)) b with
        | none => s.stopIllegal n
        | some v => s.advance n (c.setSreg (bits w 49 45) v)))

/-- SLDST: a scalar register from or to the core store (R185). -/
def execSldst (n : Nat) (s : State) : Res :=
  s.issue n 0x0B (fun c w =>
    s.anyPlace n c (fun c =>
      let a := (c.areg (bits w 49 47)).toNat + bits w 20 0
      if reservedSet w 0xFFFF8000001FFFFF || bits w 20 0 % 4 != 0 then s.stopIllegal n
      else if coreStoreBytes < a + 4 then s.abortTile n .eStoreRange
      else if bit w 55 then (s.coreWrite n a (toLE 4 (c.sreg (bits w 54 50)).toNat)).advance n (c.note [(a, 4)])
      else if s.corePoisoned n a 4 then s.abortTile n .eMemPoison
      else s.advance n (c.setSreg (bits w 54 50) (BitVec.ofNat 32 (leNat (s.coreRead n a 4))))))

/-- AALU: a-d := (a-s + s-add + immediate) modulo 2^48 (R784). -/
def execAalu (n : Nat) (s : State) : Res :=
  s.issue n 0x0C (fun c w =>
    s.anyPlace n c (fun c =>
      let v := ((c.areg (bits w 52 50)).toNat : Int) + sext 32 (c.sreg (bits w 49 45)).toNat + sext 45 (bits w 44 0)
      s.advance n (c.setAreg (bits w 55 53) (BitVec.ofInt 48 v))))

/-- TILE_WATCHDOG_EXPIRY: a body reaches 16,384 core cycles before commit (R193). -/
def execTileWatchdogExpiry (n : Nat) (s : State) : Res :=
  if s.errs.halted then .next s else
  let c := s.core n
  match c.tile with
  | some t => if t.inBody && s.issuing n then .next (s.abortTile n .eTileOverrun) else .next s
  | none => .next s

/-- The word carries an opcode, SHAPE or FUNC that is not defined (R80, Table 4.5). -/
def encodingUndefined (w : Nat) : Bool :=
  let op := opcodeOf w
  if op = 0x10 ∨ op = 0x11 ∨ op = 0x12 then decide (6 < bits w 55 52)
  else if op = 0x20 then !([0, 1, 2, 3, 4, 8, 9, 10, 11, 16, 17, 18, 19, 20, 21, 24, 32, 33].contains (bits w 55 48))
  else !(op == 0x21 || (decide (1 ≤ op) && decide (op ≤ 0x0C)))

/-- UNDEFINED_INSTRUCTION_ENCODING: the sequencer meets a word whose opcode, SHAPE or FUNC is not defined (R80). -/
def execUndefinedInstructionEncoding (n : Nat) (s : State) : Res :=
  let c := s.core n
  if s.issuing n then
    match c.wordAt c.pc with
    | some w => if encodingUndefined w then .next (s.stopIllegal n) else .next s
    | none => .next s
  else .next s

end Sys2Proof.Machine
end

