-- ==== Sys2Proof/Machine/Start.lean ====
section
/-!
DEFINITION. Starts, the Windfall save and restore, the hold-up banks and the firmware load (R494, R605 to R635, R652, R707 to R712).
-/
namespace Sys2Proof.Machine

/-! Arming (R622, R623). -/

/-- The three conditions of R622, with the locked start of R673. The fatal halt disarms (Table 16.4). -/
def State.armable (s : State) : Bool :=
  decide (3 ≤ s.goodBanks.length) && decide (330000000 ≤ s.holdNj) && s.pwr.image.isNone && s.trust.scope.isNone && s.pwr.aon &&
    !s.errs.halted

/-- Arm or disarm as R622 asks; each change enters the error log, and a disarm is an event to PF0 (R623). -/
def State.rearm (s : State) : State :=
  if s.armable then
    (if s.pwr.armed then s else (s.setPwr { s.pwr with armed := true }).logError 3 (.unstated 3) 185 1)
  else s.disarm

/-- WINDFALL_ARMING_CHANGE: the good banks stand at a voltage in 0.1 V, and Windfall is armed or disarmed accordingly (R619 to R624,
R673). -/
def execWindfallArmingChange (v : Nat) (s : State) : Res :=
  if s.unitsRun then .next (s.setPwr { s.pwr with bankV := v }).rearm else .next s

/-! The hold-up banks (R619, R620). -/

/-- A measured bank is good (R619). -/
def bankGood (cap esr : Nat) : Bool := decide (1900 ≤ cap) && decide (esr ≤ 40)

/-- Enter a measurement of bank b: a bank that fails takes the state given and a swap record. -/
def State.measureBank (s : State) (failed b cap esr : Nat) : State :=
  let good := bankGood cap esr
  let s := s.setPwr { s.pwr with
    banks := Tbl.set Bank.reset s.pwr.banks b { state := if good then 1 else failed, esr := esr, cap := cap } }
  if good then s else s.spareRecord 8 6 b b 0xFFFFFFFF 185

/-- BANK_RETEST: at top-up the charger measures a good bank again; one that fails is isolated at once (R620). -/
def execBankRetest (b cap esr : Nat) (s : State) : Res :=
  if s.unitsRun && (Tbl.get Bank.reset s.pwr.banks b).state == 1 then .next (s.measureBank 3 b cap esr).rearm else .next s

/-! Powering down. -/

/-- What outlives the power: the non-volatile store, the fuses and the outside world. Of an island's ageing record the spare map keeps
the baseline and the clock points removed; the rest is as after power-on (R606, R618, Table 16.9). -/
def Errs.powerDown (e : Errs) : Errs :=
  { Errs.reset with
    log := e.log, seqNo := e.seqNo, contained := e.contained, fatal := e.fatal, spares := e.spares, enginesUsed := e.enginesUsed,
    rowsUsed := e.rowsUsed, slicesUsed := e.slicesUsed, lanesUsed := e.lanesUsed, remapUsed := e.remapUsed,
    spareCoreUsed := e.spareCoreUsed, halfWidth := e.halfWidth, coreDue := e.coreDue, retiredCores := e.retiredCores,
    retiredPages := e.retiredPages, deadSlices := e.deadSlices, margin := (e.margin.map (fun m => (m.1, { Margin.reset with cap := m.2.cap, baseline := m.2.baseline }))).filter (fun m => m.2 != Margin.reset) }

def Trust.powerDown (t : Trust) : Trust :=
  { Trust.reset with
    revoke := t.revoke, fwFuse := t.fwFuse, recogFuse := t.recogFuse, token := t.token, bindingCount := t.bindingCount,
    recogImageSvn := t.recogImageSvn, recogDigest := t.recogDigest }

def Media.powerDown (m : Media) : Media :=
  { Media.reset with
    profiles := m.profiles, portMap := m.portMap, epoch := m.epoch, stored := m.stored, nextImage := m.nextImage,
    groups := (List.range 2).foldl (fun t g => Tbl.set AudGroup.reset t g { AudGroup.reset with landLow := (m.group g).landLow }) [] }

def Power.powerDown (p : Power) : Power :=
  { Power.reset with
    saved := true, startNo := p.startNo, saveNo := p.saveNo, image := p.image, linkRec := p.linkRec
    safeLow := true, safeCause := if p.safeLow then p.safeCause else 3, faultLow := true,
    faultCause := 5 }

/-- What the spare map keeps of a core that loses its power: the swaps that no record has settled are judged again (Table 16.10). -/
def Core.powerDown (c : Core) : Core :=
  { Core.reset with swapDue := c.swapDue, failed := c.failed, resetDue := !c.swapDue.isEmpty }

def Cpu.powerDown (c : Cpu) : Cpu :=
  { Cpu.reset with cores := (c.cores.map (fun e => (e.1, e.2.powerDown))).filter (fun e => e.2 != Core.reset) }

/-- Every domain turns off (Table 14.8 step 7): what the module held is lost, but for the non-volatile store and the fuses. -/
def State.powerDown (s : State) : State :=
  { State.reset with
    pending := s.pending, sent := s.sent, draws := s.draws, cpu := s.cpu.powerDown, errs := s.errs.powerDown, trust := s.trust.powerDown,
    media := s.media.powerDown, pwr := s.pwr.powerDown
    host := { HostSide.reset with
      link0 := { Link.reset with perst := s.host.link0.perst }, link1 := { Link.reset with perst := s.host.link1.perst } } }

/-! The save (R625 to R632, Table 14.8). -/

/-- A save writes an image: Windfall is armed and the start has passed step 5 of Table 14.3, be the firmware lost since or not (R625, R632, R635). -/
def State.saves (s : State) : Bool := s.pwr.armed && (s.pwr.stage == 2 || s.pwr.fwLost)

/-- WINDFALL_SAVE: the input sags (`cause` 1), POWER_FAIL_N stays low (2), or both (3): an armed module writes its image with one error-log
entry that records the open window's debits, and the module powers down (R606, R625 to R632, R635, R670). -/
def execWindfallSave (cause : Nat) (s : State) : Res :=
  if !s.pwr.aon then .next s
  else if s.saves then
    let s := s.setPwr { s.pwr with saveNo := s.pwr.saveNo + 1, image := some (s.imageOf cause) }
    .next s.powerDown
  else .next s.powerDown

/-! Stage A (R607 to R610, Table 14.1). -/

/-- The link record takes effect (R494, R495). -/
def HostSide.useRecord (h : HostSide) (r : List Byte) : HostSide :=
  let w := fld r 0 4
  { h with
    split := bit w 0, ref0Sris := bit w 1, ref1Sris := bit w 2, link1First := bits w 12 8, smbusAddr := bits w 22 16,
    vecCount := (rangeFrom 1 31).foldl (fun t f => Tbl.set 64 t f (fld r (3 + f) 1)) [] }

/-- The stored audio configuration is copied into the registers of group g (R466). -/
def AudGroup.useStored (x : AudGroup) (r : List Byte) (g : Nat) : AudGroup :=
  let word := fun (a : Nat) => (BitVec.ofNat 32 (fld r (a + 4 * g) 4) : Word)
  { x with cfg := word 0, live := word 0, wakeCfg := word 8, wake := word 8, indCfg := word 16, ind := word 16 }

/-- A group at the start of capture: muted while its land is low, else capturing in warm-up (R471, R482, Table 14.1 step 6). -/
def AudGroup.begin_ (x : AudGroup) (low : Bool) : AudGroup :=
  if low then { x with landLow := true, muted := true, lit := true }
  else { x with landLow := false, muted := false, clock := true, power := true, warm := 50, chains := [], window := [], features := [] }

/-- A group whose start has failed its self-check: its mute land acts, and nothing captures (Table 14.1 step 1, R471, R610). -/
def AudGroup.landOnly (x : AudGroup) (low : Bool) : AudGroup := { x with landLow := low, muted := low, lit := low }

/-- An image that this start will restore. -/
def State.restorable (s : State) : Bool := s.pwr.image.isSome && s.trust.scope.isNone

/-- Step 6: capture starts in each group. -/
def State.audStart (s : State) (low0 low1 : Bool) : State :=
  let x := fun (g : Nat) (low : Bool) =>
    let y := match s.media.stored with
      | some r => (s.media.group g).useStored r g
      | none => s.media.group g
    y.begin_ low
  let m := ((s.media.setGroup 0 (x 0 low0)).setGroup 1 (x 1 low1))
  s.setMedia { m with epoch := if s.restorable then m.epoch + 1 else 0, eventNo := 0 }

/-- The first window begins, with WINDOW_NO 0 (Table 14.1 step 4, R632). -/
def State.firstWindow (s : State) : State := (s.setLedger { s.pwr.ledger with windowNo := 65535 }).newWindow

/-- The vectors of a record leave PF0 at least 64 (R737). -/
def recordFits (r : List Byte) : Bool := decide ((rangeFrom 1 31).foldl (fun acc f => acc + fld r (3 + f) 1) 0 ≤ 1984)

/-- Step 5: what the root of trust takes from the non-volatile store, a record that R737 bars being left and logged; a recogniser image accepted earlier is in force. -/
def State.useStore (s : State) : State :=
  let s := match s.pwr.linkRec with
    | some r => if recordFits r then { s with host := s.host.useRecord r } else s.logError 3 (.unstated 4) 184 0
    | none => s
  let s := match s.media.nextImage with
    | some (svn, d) =>
      (s.setTrust { s.trust with recogImageSvn := svn, recogDigest := d }).setMedia { s.media with nextImage := none }
    | none => s
  s.setTrust { s.trust with
    setupDigest := sha256 (s.pwr.linkRec.getD [] ++ s.media.portMap ++ s.media.profiles.flatMap (·.2)) }

/-- A start from good input: Stage A. `selfTest` says that the self-check of step 3 and the write of START_NO pass, `identity` that the
identity blob authenticates, `low0` and `low1` are the mute lands, and `banks` the measurements of the four banks, capacitance and
ESR. -/
def State.stageA (s : State) (selfTest identity low0 low1 : Bool) (banks : List (Nat × Nat)) : State :=
  let s := s.setPwr { s.pwr with
    aon := true, saved := false, safeLow := true, safeCause := 1, faultLow := false, faultCause := 0 }
  if !selfTest then
    let s := s.setMedia ((s.media.setGroup 0 ((s.media.group 0).landOnly low0)).setGroup 1 ((s.media.group 1).landOnly low1))
    (s.setPwr { s.pwr with aFault := true }).driveFault 1
  else
    let s := s.setTrust { s.trust with
      scope := s.trust.token, token := none, identityOk := identity, copied := (s.trust.revoke, s.trust.fwSvn, s.trust.recogSvn) }
    let s := s.firstWindow
    let s := (s.setPwr { s.pwr with startNo := s.pwr.startNo + 1 }).useStore
    let s := if identity then s else s.logError 3 .eIdentityLost 184 0
    let s := s.emit (.uart Config.startMessage)
    let s := (List.range 4).foldl (fun (s : State) b => s.measureBank 2 b (banks.getD b (0, 0)).1 (banks.getD b (0, 0)).2) s
    let s := s.setPwr { s.pwr with startBanks := s.goodBanks.length }
    let s := s.audStart low0 low1
    let s := if s.trust.scope.isSome then s.event 0 .windfallDisarmed [] else s
    let s := [179, 168, 169].foldl (fun (s : State) i => s.setDomain i true) s
    s.setPwr { s.pwr with stageADone := true, stage := 0 }

/-- The module listens to UART_RX: the start runs under an unlock token with SCOPE bit 1 set (R672, R761). No row of the table gives anything
that arrives there an effect (log entry 178). -/
def State.uartListens (s : State) : Bool := match s.trust.scope with
  | some x => bit x 1
  | none => false

/-- POWER_ON: the 12 V input becomes good and Stage A runs from the values of a module without power, whatever was written to it meanwhile
being dropped (R31, R53, R466, R471, R494, R605, R607, R610, R619, R643, R658, R672, R673,
R731, R761). -/
def execPowerOn (selfTest identity low0 low1 : Bool) (banks : List (Nat × Nat)) (s : State) : Res :=
  if s.pwr.aon then .next s else .next (s.powerDown.stageA selfTest identity low0 low1 banks)

/-- RESTART_AFTER_SAVE: at least 100 ms after the last step of a save or of a power-down without one, with the input good, the module
starts again as from power-on (R606). -/
def execRestartAfterSave (selfTest identity low0 low1 : Bool) (banks : List (Nat × Nat)) (s : State) : Res :=
  if s.pwr.aon || !s.pwr.saved then .next s else .next (s.powerDown.stageA selfTest identity low0 low1 banks)

/-! Stage B (R611 to R614, R631, R632, Table 14.2). -/

/-- EN is set on every enabled port of the port map, with ILIM of its profile, and its default context starts; every port takes the
profile slot of its entry, and its switch closes while EN = 1 (R389, R394, R396, R400). -/
def State.portsUp (s : State) : State :=
  (List.range 16).foldl (fun (s : State) p =>
    let x := { s.media.port p with slot := mapSlot s.media.portMap p }
    if mapEnable s.media.portMap p then
      let prof := (Tbl.find s.media.profiles x.slot).getD []
      let s := s.setPort p { x with en := true, ilim := if prof.isEmpty then x.ilim else fldBits prof 8 11 8 }.powerUp
      if prof.isEmpty then s else s.startDefault p prof
    else s.setPort p x.powerUp) s

/-- A default context has landed its port's first frame, or its port does not hold Stage B: its switch stays open or its link has failed to
train (Table 14.2 step 6, R399, R613; DESIGN CHOICE, log entry 176). -/
def State.portLanded (s : State) (p : Nat) : Bool :=
  let x := s.media.port p
  x.link == 4 || x.st == 0 || x.st == 3 ||
  (match s.media.cam (16 + p) with
    | some c => !c.lastStats.isEmpty || c.frames.any (fun f => f.closed)
    | none => true)

/-- Step 6 of Stage B has occurred. -/
def State.firstFrames (s : State) : Bool := (List.range 16).all s.portLanded

/-- Sections 0, 1, 5 and 6 and the group modes of an accepted image are applied (R632). -/
def State.applyHardware (s : State) (x : Image) : State :=
  let s := s.setPwr { s.pwr with
    cfg := x.pwrCfg, ledger := { s.pwr.ledger with windowMs := x.windowMs, allowance := x.allowance, frac := x.frac } }
  let s := ({ s with work := { s.work with acct := x.acct } } : State).firstWindow
  { s.setSync x.sync with
    mem := { s.mem with sliced := x.sliced }
    errs := { s.errs with
      spares := s.errs.spares ++ x.spares, log := (x.log ++ s.errs.log).take 16384, seqNo := s.errs.seqNo + x.log.length } }

/-- A rejected image is discarded, and the start continues as from power-on: the epoch is 0 again, and Windfall arms when it may (R485,
R622, R631). -/
def State.rejectImage (s : State) (restore : Nat) : State :=
  let s := s.setPwr { s.pwr with image := none, restore := restore }
  (s.setMedia { s.media with epoch := 0 }).rearm

/-- Step 3: an image is checked, of which the store may have lost something: 0 nothing, 2 of what its seal is over, else of MAGIC, FORMAT or
SERIAL (R631, R632, R673). -/
def State.checkImage (s : State) (lost : Nat) : State :=
  if s.trust.scope.isSome then s
  else
    match s.pwr.image with
    | none => s
    | some x =>
      if (lost ≠ 0 ∧ lost ≠ 2) ∨ x.headOk = false then s.rejectImage 3
      else if lost = 2 ∨ x.sealOk = false then s.rejectImage 2
      else s.applyHardware x

/-- Step 4: every line of stacked memory is written with a fixed pattern and valid ECC, and holds undefined data (R612). -/
def State.freshStacks (s : State) : State :=
  let s := (s.clearPoison 0 stackedEnd).undefine 0 stackedEnd
  { s with mem := { s.mem with pageKey := [], stackOn := (List.range 4).foldl (fun t st => Tbl.set false t st true) s.mem.stackOn } }

/-! Stage C: the firmware load (R614 to R617, R633, R634, R652, R707 to R712). -/

/-- A context after a restore: ACTIVE and HALTED, its descriptors owed a record (Table 14.11). -/
def Ctx.restored (c : Ctx) : Ctx :=
  { c with
    halted := true, paused := false, seqReserved := 0, pending := 0, held := [],
    descs := c.descs.map (fun d => { d with phase := .restored, resOpen := false, resLeft := 0, resC := 0, waitSince := 0 }) }

/-- A sequence after a restore: ACTIVE or PAUSED becomes FAULTED (Table 14.11). -/
def SeqEntry.restored (e : SeqEntry) : SeqEntry :=
  if seqState e.raw = 1 ∨ seqState e.raw = 2 then
    { e with raw := putBytes e.raw 0 (toLE 4 (fld e.raw 0 4 - seqState e.raw + 3)), pendingRaw := [] }
  else { e with pendingRaw := [] }

/-- The FN set-up of a function as saved. -/
def Fn.restored (now saved : Fn) : Fn :=
  { now with
    limParts := saved.limParts, limPages := saved.limPages, limCores := saved.limCores, limRefused := saved.limRefused,
    wEnergy := saved.wEnergy, wPcie := saved.wPcie, wMem := saved.wMem, qosRefused := saved.qosRefused }

/-- The restored sections are taken (R633, Table 14.11); an image of a save from Dormant has none of them (R628). The set-up of a context that
was not ACTIVE, and is in no image, stays as this start has it. -/
def State.takeSections (s : State) (x : Image) : State :=
  if x.state = 0 then s
  else
  let s := (List.range 32).foldl (fun (s : State) f => s.setFn f ((s.fn f).restored (Tbl.get (Fn.reset (f == 0)) x.fns f))) s
  { s with
    host := { s.host with groupOwner := x.groupOwner, groupRefused := x.groupRefused }
    pwr := { s.pwr with tiers := x.tiers, escSeen := x.tiers.map (fun e => (e.1, s.syncValue (tierEsc e.2))) }
    work := { s.work with
      parts := x.parts, gens := x.gens, clearings := x.clearings, ctxs := x.ctxs.foldl (fun t e => Tbl.set Ctx.reset t e.1 e.2.restored) s.work.ctxs,
      seqs := x.seqs.map (fun e => (e.1, e.2.restored)), attn := x.attn,
      streams := x.streams.map (fun e => (e.1, { e.2 with stopAsked := true, stopped := true })),
      serving := x.serving.map (fun e => (e.1, { e.2 with lists := [], reported := [] })),
      pairs := x.pairs.map (fun e => (e.1, { e.2 with armed := false, round := 0, stopped := false })) } }

/-- Steps 7 and 8 of the Clearings that the save froze (R566, Table 14.11). -/
def State.finishClearings (s : State) : State :=
  (Tbl.keys s.work.clearings).foldl (fun (s : State) p =>
    match s.part p with
    | some x => ((s.sendReport p false).clearScrub p x).clearFinish p
    | none => s) s

/-- The restore report over the contexts, sequences and partitions of one function, or of all (R634, Table 14.12). -/
def restoreReport (x : Image) (f : Option Nat) : List Byte :=
  let own := fun (g : Nat) => f.isNone || f == some g
  let partFn := fun (p : Nat) => match Tbl.find x.parts p with
    | some y => y.fn
    | none => 0
  let cs := x.ctxs.filter (fun e => own (Tbl.get 0 x.groupOwner (e.1 / 64)))
  let sq := x.seqs.filter (fun e => (seqState e.2.raw == 1 || seqState e.2.raw == 2) && own (partFn (seqPart e.2.raw)))
  let ps := x.parts.filter (fun e => own e.2.fn)
  let cl := ps.filter (fun e => (Tbl.find x.clearings e.1).isSome)
  toLE 4 (Status.windfallRestored.num + x.cause * 2 ^ 16 + x.state * 2 ^ 18) ++ toLE 4 x.saveNo ++ toLE 8 x.saveTime ++ toLE 4 cs.length ++
    toLE 4 (cs.foldl (fun acc e => acc + e.2.descs.length) 0) ++ toLE 4 sq.length ++ toLE 1 (ps.length - cl.length) ++ toLE 1 cl.length ++
    toLE 2 (x.minuets.filter own).length ++ toLE 8 0 ++ toLE 8 0 ++ toLE 8 0 ++ toLE 8 0

/-- Step 5 of Table 14.3: the firmware takes the sections, the image is consumed, and the reports go out; `takes` says that the firmware can
use section 7 (R632 to R634). -/
def State.restoreImage (s : State) (takes : Bool) : State :=
  match s.pwr.image with
  | none => s
  | some x =>
    if s.trust.scope.isSome || s.pwr.dormantExit then s
    else
      let s := (s.takeSections x).finishClearings
      let s := s.setPwr { s.pwr with image := none, restore := if takes || x.fwLength == 0 then 1 else 4 }
      let s := s.event 0 .windfallRestored (restoreReport x none) true
      (((rangeFrom 1 31).filter (fun f => x.ctxs.any (fun e => Tbl.get 0 x.groupOwner (e.1 / 64) == f))).foldl
        (fun s f => s.event f .windfallRestored (restoreReport x (some f)) true) s)

/-- The payload of FW_LOAD (Table 17.1). -/
def fwGroup (r : List Byte) : Nat := fldBits r 0xC 13 0
def fwGroups (r : List Byte) : Nat := fldBits r 0xC 21 16
def fwBytes (r : List Byte) : Nat := fld r 8 4
def fwLoadFormat (r : List Byte) : Bool :=
  fldBits r 0xC 15 14 == 0 && fldBits r 0xC 31 22 == 0 && decide (fwGroups r ≤ 40) && decide (fwBytes r ≤ 64 * 2 ^ 20) &&
    fld r 0 8 % 4096 == 0 && decide (fwGroup r + fwGroups r ≤ 16384)

/-- The cases of R708; fewer than 9 groups, which Table 17.1 bars, are always among them. -/
def State.fwLoadRefused (s : State) (r : List Byte) : Bool :=
  let area := (fwGroup r, fwGroups r)
  s.pwr.fw.running || decide (fwGroups r < max 9 (cdiv (fwBytes r) (2 * 2 ^ 20) + 8)) ||
    (areaPages (firstStack s.sproutDie) (some area)).any s.pageGranted ||
    (match s.pwr.image with
      | some x => x.fwArea.isSome && x.fwArea != some area
      | none => false)

/-- A load fails: the image is discarded, its failure enters the error log, and the module stays at Stage B (R652, R710). -/
def State.fwFail (s : State) (st : Status) : State :=
  (s.setPwr { s.pwr with stage := 1, fw := { s.pwr.fw with outcome := some st } }).logError 3 st 184 0

/-- The firmware keeps its image in the first pages of its area (R711). -/
def State.storeImage (s : State) (b : List Byte) : State :=
  ((areaPages (firstStack s.sproutDie) s.pwr.fw.area).zip (List.range (cdiv b.length 0x200000))).foldl (fun (s : State) e =>
    s.writeMem (e.1 * 0x200000) ((b.drop (e.2 * 0x200000)).take 0x200000)) s

/-- The firmware runs, on the management processor and the powered cluster controllers: steps 4 to 6 of Table 14.3. -/
def State.fwRun (s : State) (b : List Byte) (takes : Bool) : State :=
  let s := (s.storeImage b).setTrust { s.trust with
    runSvn := imgSvn b, runVersion := imgVersion b, runDigest := sha256 (b.take (0x400 + imgLength b)) }
  let s := (List.range 16).foldl (fun (s : State) k => if s.domainOn (clusterIsland k) then s.setCluster k { s.cluster k with
    firm := some s.trust.runDigest } else s) s
  let s := s.restoreImage takes
  let s := s.setPwr { s.pwr with
    stage := 2, fwLost := false, fw := { s.pwr.fw with running := true, outcome := some .ok, region := none } }
  ({ s with host := { s.host with logRing := { s.host.logRing with seq := 0 } } } : State).rearm

/-- Stage C with a load that is taken: it is refused, fails or runs, and ends in its verdict (R708 to R712). -/
def State.stageC (s : State) (r : List Byte) (host : HostRead) (takes : Bool) : State × Status :=
  if s.fwLoadRefused r then (s, .eFwLoadState)
  else
    let s := (rangeFrom (fwGroup r) (fwGroups r)).foldl (fun (s : State) g => s.setGroupMode g true) s
    let s := s.setPwr { s.pwr with fw := { s.pwr.fw with
      area := some (fwGroup r, fwGroups r), areas := s.pwr.fw.areas ++ s.pwr.fw.area.toList } }
    let s := s.hostRead 0 (fld r 0 8) (fwBytes r) 6
    match host with
    | .refused => (s.fwFail .eIovaFault, .eIovaFault)
    | .data b =>
      if b.length < fwBytes r then (s.fwFail .eIovaFault, .eIovaFault)
      else
        let s := s.accountFn 0 3 (fwBytes r)
        match s.imageErr 1 (b.take (fwBytes r)) with
        | some e => (s.fwFail e, e)
        | none => (s.fwRun (b.take (fwBytes r)) takes, .ok)

/-- The number of the request just taken. -/
def State.lastRequest (s : State) (f : Nat) : Nat :=
  match (s.fn f).owed.getLast? with
  | some o => o.num
  | none => 0

def State.setEarly (s : State) (e : Option EarlyLoad) : State := s.setPwr { s.pwr with fw := { s.pwr.fw with early := e } }

/-- FW_LOAD: PF0 asks for the firmware image, read from the host, to be verified and started: Stage C (R613 to R616, R633, R634, R650 to
R652, R707 to R712, Table 14.3). A load that comes before the end of Stage B waits for it, and another beside it is refused (DESIGN CHOICE, log
entry 196); while the link retrains, the request stands in its ring (R501). -/
def execFwLoad (f tag : Nat) (raw : List Byte) (host : HostRead) (takes : Bool) (s : State) : Res :=
  let r := slice raw 0 16
  if (s.link (s.linkOf f)).retraining then .next s
  else
    s.request f 1 tag true false .pf0 (fwLoadFormat r) (fun s =>
      if s.pwr.bFault then s.reply f 1 tag .eStartFault
      else if s.pwr.fw.early.isSome then s.reply f 1 tag .eFwLoadState
      else if s.pwr.stage = 0 then s.setEarly (some { num := s.lastRequest f, raw := r, host := host, takes := takes })
      else
        let v := s.stageC r host takes
        v.1.reply f 1 tag v.2)

/-- A load that waited for the end of Stage B runs, when Stage C may, and is answered; while the link retrains its read
waits (R501, R613, R614). -/
def State.runEarly (s : State) : State :=
  match s.pwr.fw.early with
  | none => s
  | some e =>
    if (s.link (s.linkOf 0)).retraining && !s.pwr.bFault then s
    else
    let s := s.setEarly none
    if s.pwr.bFault then s.answer 0 e.num .eStartFault
    else
      let v := s.stageC e.raw e.host e.takes
      v.1.answer 0 e.num v.2

/-- LINK_RETRAIN: a link that is up enters Recovery and holds requests, or, with `ended`, leaves it at a speed and width and forwards
what waited at its hop, a firmware load that waited with its read among it; the PCIe islands run on in the fatal halt (R361, R501, R686, R688, R692). -/
def execLinkRetrain (l : Nat) (ended : Bool) (speed width : Nat) (s : State) : Res :=
  let x := s.link l
  if !x.up || x.retraining != ended then .next s
  else if ended then
    if s.rateOk l speed width then
      let s := s.stallAll ((s.changeLink l { x.at_ speed width with retraining := false }).drainHop l)
      .next (if l = s.linkOf 0 ∧ s.pwr.stage ≠ 0 then s.runEarly else s)
    else .next s
  else
    let s0 := s
    let s := s.setHop l { s.hop l with used := [] }
    .next (s0.stallAll (s.setLink l { x with retraining := true, retrains := satAdd x.retrains 1 255 }).voidTroubled)

/-! The end of Stage B (R613, R614). -/

/-- The end of Stage B at step 4 (R613). -/
def State.startFault (s : State) : State :=
  (((s.setPwr { s.pwr with bFault := true }).driveFault 2).event 0 .eStartFault []).runEarly

/-- Step 7: the module enters Sprout (Table 14.2); a firmware load that waited for it runs, and a request that asked for Sprout is
answered. -/
def State.enterSprout (s : State) : State :=
  let s := (((s.powerTo 2).setPwr { (s.powerTo 2).pwr with state := 2, stage := 1, bOpen := false }).audStateChanged).runEarly
  match s.pwr.transit with
  | some t => if t.target ≤ 2 then ((s.setPwr { s.pwr with transit := none }).answerOpt t.req .ok).advance' else s
  | none => s.advance'

/-- What an exit from Dormant does beside Stage B: no restore, the firmware absent, WAKE_N for removed links, no history (R618), and one
DORMANT_EXIT event that lists the ended partitions (R573, R581, R614). -/
def State.leaveDormant (s : State) : State :=
  let s := s.wakeLinks.setPwr { s.wakeLinks.pwr with
    dormantExit := true, restore := 0, stage := 0, fw := { s.wakeLinks.pwr.fw with running := false, outcome := none, area := none, areas := [] }, fwLost := false,
    ledger := { s.wakeLinks.pwr.ledger with kinds := [] } }
  let s := { s with mem := { s.mem with temp := [] } }
  (s.event 0 .dormantExit (s.pwr.ended.flatMap (toLE 1))).setPwr
    { (s.event 0 .dormantExit (s.pwr.ended.flatMap (toLE 1))).pwr with ended := [] }

/-- STAGE_B: after Stage A, or on the exit from Dormant, the memory domains ramp, the enabled ports come up, an image is checked (`check`),
and the stacks are trained (`stacksOk` says that all are usable). The module enters Sprout once each default context has landed its
port's first frame: in the same command when none is awaited, and otherwise with a later one (R38, R568, R581, R602, R611 to R614,
R631, R632, R645). -/
def execStageB (check : Nat) (stacksOk : Bool) (s : State) : Res :=
  if !s.pwr.stageADone || s.pwr.state != 0 || s.pwr.bFault || s.errs.halted then .next s
  else if s.pwr.bOpen then .next (if s.firstFrames then s.enterSprout else s)
  else
    let fresh := s.pwr.stage == 0
    let s := [178, 180, memfabDomain 0, memfabDomain 1, d2dDomain 0, d2dDomain 1].foldl (fun (s : State) i => s.powerDomain i true) s
    let s := { s with errs := { s.errs with filled := true } }
    let s := s.portsUp
    let s := if fresh then s.checkImage check else s.leaveDormant
    let s := s.freshStacks
    if !stacksOk || !s.errs.deadSlices.isEmpty then .next s.startFault
    else if s.firstFrames then .next s.enterSprout
    else .next (s.setPwr { s.pwr with bOpen := true })


/-- START_STATUS: a function asks for the start's progress: GLB_START and the outcome of the last FW_LOAD, free when there was none
(R616, R617, Table 14.4). -/
def execStartStatus (f tag : Nat) (s : State) : Res :=
  s.request f 2 tag true false .any true (fun s =>
    s.reply f 2 tag .ok (toLE 4 (s.regGlb f 0x20) ++ toLE 4 (match s.pwr.fw.outcome with
      | some st => st.num
      | none => Config.unstatedField 2)))

/-- Bytes of the management processor's memory, the bound of a declaration (R630). -/
def mgmtMemory : Nat := 6 * 2 ^ 20

/-- FW_REGION_DECLARE: the management processor declares the Windfall region, or withdraws it with length 0; a declaration out of bounds is
refused, the earlier one stays, and the refusal enters the log ring (R630). -/
def execFwRegionDeclare (off len version : Nat) (s : State) : Res :=
  if !s.pwr.fw.running || s.errs.halted then .next s
  else if len = 0 then .next (s.setPwr { s.pwr with fw := { s.pwr.fw with region := none } })
  else if off % 64 ≠ 0 ∨ len % 64 ≠ 0 ∨ 4 * 2 ^ 20 < len ∨ mgmtMemory < off + len then .next (s.logWrite 0 178 0 0 .eFwRegion)
  else .next (s.setPwr { s.pwr with fw := { s.pwr.fw with region := some (off, len, version) } })

end Sys2Proof.Machine
end

