-- ==== Sys2Proof/Machine/Vector.lean ====
section
/-!
DEFINITION. The vector unit's instructions VOP and VLDST (R72 to R75, R150 to R153, R176, R783).
-/
namespace Sys2Proof.Machine

/-- Which register operands a function uses besides a (Table 4.5a): b, c. None for an undefined FUNC. -/
def vopUses (func : Nat) : Option (Bool × Bool) :=
  match func with
  | 0x00 => some (true, true)
  | 0x01 => some (true, false)
  | 0x02 => some (true, false)
  | 0x03 => some (true, false)
  | 0x04 => some (true, false)
  | 0x08 => some (false, false)
  | 0x09 => some (false, false)
  | 0x0A => some (false, false)
  | 0x0B => some (false, false)
  | 0x10 => some (true, false)
  | 0x11 => some (true, false)
  | 0x12 => some (true, false)
  | 0x13 => some (true, false)
  | 0x14 => some (true, false)
  | 0x15 => some (true, true)
  | 0x18 => some (false, false)
  | 0x20 => some (false, false)
  | 0x21 => some (false, false)
  | _ => none

/-- CMP condition codes of Table 4.5a, signed. -/
def cmpHolds (cond : Nat) (a b : Int) : Bool :=
  match cond with
  | 0 => a == b
  | 1 => a != b
  | 2 => decide (a < b)
  | 3 => decide (a ≤ b)
  | 4 => decide (b < a)
  | _ => decide (b ≤ a)

/-- The lane function of every FUNC but CVT and the reductions (Table 4.5a). -/
def laneOp (func low : Nat) (a b c : Word) : Word :=
  match func with
  | 0x00 => f32Fma a b c
  | 0x01 => f32Add a b
  | 0x02 => f32Mul a b
  | 0x03 => f32Max a b
  | 0x04 => f32Min a b
  | 0x08 => f32Exp a
  | 0x09 => f32Exp2 a
  | 0x0A => f32Rcp a
  | 0x0B => f32Rsqrt a
  | 0x10 => a + b
  | 0x11 => a * b
  | 0x12 => BitVec.sshiftRight a (b.toNat % 32)
  | 0x13 => a <<< (b.toNat % 32)
  | 0x14 => if cmpHolds (low % 8) (sext 32 a.toNat) (sext 32 b.toNat) then 1 else 0
  | 0x15 => if c = 0 then b else a
  | _ => a

/-- Pack elements of w bits into 128 lanes, element i at bits [w·i + w − 1 : w·i]; the rest reads 0 (R783). -/
def packLanes (w : Nat) (es : List Nat) : List Word :=
  let big := es.reverse.foldl (fun acc e => acc * 2 ^ w + e % 2 ^ w) 0
  (List.range 128).map (fun l => BitVec.ofNat 32 (big >>> (32 * l)))

/-- The number 128 lanes spell. -/
def lanesNat (l : List Word) : Nat := l.reverse.foldl (fun acc x => acc * 2 ^ 32 + x.toNat) 0

/-- Element i of w bits packed in lanes. -/
def unpackLane (w : Nat) (big i : Nat) : Nat := (big >>> (w * i)) % 2 ^ w

/-- Element bits of a type CVT takes, none for the types it refuses: FP32 and code weights always, INT8, UINT8 and
INT4 with DIR = 0 (R783). -/
def cvtBits (t dir : Nat) : Option Nat :=
  if t = 0x12 ∨ isCodeType t then none
  else if isIntType t && dir == 0 then none
  else (typeInfo t).map (·.bits)

/-- The largest unbiased exponent of an MX element type (R152). -/
def mxEmax (t sub : Nat) : Int :=
  if t = 0x0C then (if sub = 0 then 8 else 15) else if t = 0x0D then (if sub = 0 then 2 else 4) else 2

/-- An MX element converted by Table 3.4 (saturating). -/
def mxElem (t sub : Nat) (x : Num) : Nat :=
  if t = 0x0C then toNarrow (if sub = 0 then fmtE4M3 else fmtE5M2) 0x7F true x
  else if t = 0x0D then toNarrow (if sub = 0 then fmtE2M3 else fmtE3M2) 0 true x
  else toNarrow fmtE2M1 0 true x

/-- Scale and elements of one MX block of 32 FP32 values (R152). -/
def mxBlock (t sub : Nat) (xs : List Word) : Nat × List Nat :=
  let vs := xs.map ofF32
  if vs.any Num.nonfinite then (255, xs.map (fun _ => 0))
  else
    let nz := vs.filter (fun v => !v.isZero)
    match nz with
    | [] => (0, vs.map (mxElem t sub))
    | v :: rest =>
      let lg := rest.foldl (fun acc x => max acc x.ilog2) v.ilog2
      let x := (clampInt (lg - mxEmax t sub + 127) 0 254).toNat
      (x, vs.map (fun v => mxElem t sub (v.scale (127 - (x : Int)))))

/-- The packed position of element k of block r: engine-ready order of a tile of 4 rows and 32 K columns (R783). -/
def mxPos (r k : Nat) : Nat := (k / 4) * 16 + r * 4 + k % 4

/-- CVT of one register: result lanes for v-d, result lanes for v-c (MX with DIR = 0), and whether a conversion
saturated to INT32. An MX element whose value lies beyond the FP32 range becomes an infinity of its sign (DESIGN CHOICE, log
entry 150). -/
def cvtRun (t dir sub w : Nat) (a b c : List Word) : List Word × Option (Word × Word) × Bool :=
  if isMxType t then
    if dir = 0 then
      let blk := (List.range 4).map (fun r => mxBlock t sub ((a.drop (32 * r)).take 32))
      let es := (List.range 128).map (fun p =>
        let r := p % 16 / 4
        let k := p / 16 * 4 + p % 4
        ((blk.getD r (0, [])).2).getD k 0)
      let scales := BitVec.ofNat 32 (leNat (blk.map (fun x => BitVec.ofNat 8 x.1)))
      (packLanes w es, some (scales, BitVec.ofNat 32 ((b.getD 0 0).toNat % 65536)), false)
    else
      let big := lanesNat a
      let sc := c.getD 0 0
      ((List.range 128).map (fun l =>
        let r := l / 32
        let x := bits sc.toNat (8 * r + 7) (8 * r)
        let e := fpElem t sub (unpackLane w big (mxPos r (l % 32)))
        if x = 255 then 0x7FC00000 else toF32 (e.scale ((x : Int) - 127))), none, false)
  else if dir = 0 then
    if t = 0x13 then (a.map (fun x => (f32ToInt32 x).1), none, a.any (fun x => (f32ToInt32 x).2))
    else
      let conv := fun x => if t = 0x10 then toBF16 x else if t = 0x11 then toFP16 x else if t = 0x08 then toE4M3 x else toE5M2 x
      (packLanes w (a.map conv), none, false)
  else
    let big := lanesNat a
    ((List.range 128).map (fun i =>
      let raw := unpackLane w big i
      if t = 0x13 then int32ToF32 (sext 32 raw)
      else if isIntType t then int32ToF32 (intElem t raw)
      else toF32 (fpElem t sub raw)), none, false)

/-- Write the scale record of an MX conversion to lanes 0 and 1 of v-c. -/
def Core.putScales (c : Core) (vc : Nat) : Option (Word × Word) → Core
  | none => c
  | some (x, y) => { c with
      v := Tbl.put (Tbl.put c.v (128 * vc) x) (128 * vc + 1) y,
      vPad := c.vPad.filter (fun e => decide (e.1 < 512 * vc) || decide (512 * vc + 8 ≤ e.1)) }

/-- Operand a of a VOP (R74): from v-a, from 512 bytes of the core store at a base, or from eight accumulator
slots. A status where it cannot be read: of several, E_SEQ_ILLEGAL before E_STORE_RANGE before E_MEM_POISON (DESIGN CHOICE: the
manual gives no order here, log entry 199). -/
def vopA (n : Nat) (c : Core) (w : Nat) (s : State) : Except Status (List Word) :=
  match bits w 35 34 with
  | 0 => .ok (c.lanes (bits w 44 42))
  | 1 =>
    let a := (c.areg (bits w 33 31)).toNat
    if a % 64 ≠ 0 then .error .eSeqIllegal
    else if coreStoreBytes < a + 512 then .error .eStoreRange
    else if s.corePoisoned n a 512 then .error .eMemPoison
    else .ok ((List.range 128).map (fun l => BitVec.ofNat 32 (leNat (s.coreRead n (a + 4 * l) 4))))
  | 2 =>
    let e := bits w 30 25
    if 56 < e then .error .eSeqIllegal
    else .ok ((List.range 128).map (fun l => c.accWord (accKey (e + l / 16) (bits w 24 21) (l % 16))))
  | _ => .error .eSeqIllegal

/-- The encoding of a VOP breaks R783: an undefined FUNC, a reserved bit, a register field its function or source
does not use, or a refused CVT or CMP. -/
def vopIllegal (w : Nat) : Bool :=
  let func := bits w 55 48
  let low := bits w 7 0
  let src := bits w 35 34
  match vopUses func with
  | none => true
  | some (useB, useC) =>
    let t := low % 64
    let dir := bits low 6 6
    let mx := isMxType t
    let ub := if func = 0x18 then mx && dir == 0 else useB
    let uc := if func = 0x18 then mx else useC
    reservedSet w 0xFFFFFFFFFFE000FF || src == 3 ||
    (src != 0 && bits w 44 42 != 0) || (src != 1 && bits w 33 31 != 0) ||
    (!ub && bits w 41 39 != 0) || (!uc && bits w 38 36 != 0) ||
    (func == 0x14 && decide (5 < low)) ||
    (func != 0x14 && func != 0x18 && low != 0) ||
    (func == 0x18 && ((cvtBits t dir).isNone || (bit low 7 && !mx)))

/-- Lanes a VOP writes: v-d, the scale record for v-c, and the INT32 saturation of CVT. -/
def vopResult (c : Core) (w : Nat) (a : List Word) : List Word × Option (Word × Word) × Bool :=
  let func := bits w 55 48
  let low := bits w 7 0
  let b := c.lanes (bits w 41 39)
  let cc := c.lanes (bits w 38 36)
  if func = 0x18 then cvtRun (low % 64) (bits low 6 6) (bits low 7 7) ((cvtBits (low % 64) (bits low 6 6)).getD 8) a b cc
  else if func = 0x20 then (List.replicate 128 (reduceLanes f32Add a), none, false)
  else if func = 0x21 then (List.replicate 128 (reduceLanes f32Max a), none, false)
  else ((List.range 128).map (fun l => laneOp func low (a.getD l 0) (b.getD l 0) (cc.getD l 0)), none, false)

/-- VOP: the selected function lane by lane (R783). -/
def execVop (n : Nat) (s : State) : Res :=
  s.issue n 0x20 (fun c w =>
    s.inBody n c (fun c =>
      if vopIllegal w then s.stopIllegal n
      else
        match vopA n c w s with
        | .error e => s.abortTile n e
        | .ok a =>
          let (vd, sc, sat) := vopResult c w a
          s.advance n (((c.setLanes (bits w 47 45) vd).putScales (bits w 38 36) sc).addFlags sat false)))

/-- VLDST: a vector register from or to 512 bytes of the core store; padding stays padding through it (R185, R219, R222). -/
def execVldst (n : Nat) (s : State) : Res :=
  s.issue n 0x21 (fun c w =>
    s.inBody n c (fun c =>
      let a := (c.areg (bits w 44 42)).toNat + bits w 20 0
      if reservedSet w 0xFF80FC00001FFFFF || bits w 20 0 % 64 != 0 then s.stopIllegal n
      else if coreStoreBytes < a + 512 then s.abortTile n .eStoreRange
      else if bit w 55 then
        ((s.coreWrite n a ((c.lanes (bits w 47 45)).flatMap (fun x => toLE 4 x.toNat))).markPads (coreBase n + a)
          (c.pads (bits w 47 45))).advance n (c.note [(a, 512)])
      else if s.corePoisoned n a 512 then s.abortTile n .eMemPoison
      else s.advance n ((c.setLanes (bits w 47 45)
        ((List.range 128).map (fun l => BitVec.ofNat 32 (leNat (s.coreRead n (a + 4 * l) 4))))).setPads (bits w 47 45)
          ((rangeFrom (coreBase n + a) 512).map s.padOf))))

end Sys2Proof.Machine
end

