-- ==== Sys2Proof/Machine/Dispatch.lean ====
section
/-!
DEFINITION. The effect of a command on everything but the queue: one arm per row of the table.
-/
namespace Sys2Proof.Machine

def exec (i : Instr) (s : State) : Host.Outcome State Fault Refusal :=
  match i with
  | .powerOn selfTest identity low0 low1 banks => Sys2Proof.Machine.execPowerOn selfTest identity low0 low1 banks s
  | .stageB check stacksOk => Sys2Proof.Machine.execStageB check stacksOk s
  | .restartAfterSave selfTest identity low0 low1 banks => Sys2Proof.Machine.execRestartAfterSave selfTest identity low0 low1 banks s
  | .windfallSave cause => Sys2Proof.Machine.execWindfallSave cause s
  | .fwRegionDeclare off len version => Sys2Proof.Machine.execFwRegionDeclare off len version s
  | .bankRetest b cap esr => Sys2Proof.Machine.execBankRetest b cap esr s
  | .windfallArmingChange v => Sys2Proof.Machine.execWindfallArmingChange v s
  | .fwLoad f tag raw host takes => Sys2Proof.Machine.execFwLoad f tag raw host takes s
  | .startStatus f tag => Sys2Proof.Machine.execStartStatus f tag s
  | .mma n => Sys2Proof.Machine.execMma n s
  | .drain n => Sys2Proof.Machine.execDrain n s
  | .requant n => Sys2Proof.Machine.execRequant n s
  | .vop n => Sys2Proof.Machine.execVop n s
  | .vldst n => Sys2Proof.Machine.execVldst n s
  | .tile n => Sys2Proof.Machine.execTile n s
  | .commit n => Sys2Proof.Machine.execCommit n s
  | .wait n => Sys2Proof.Machine.execWait n s
  | .waitResume n => Sys2Proof.Machine.execWaitResume n s
  | .signal n => Sys2Proof.Machine.execSignal n s
  | .move n => Sys2Proof.Machine.execMove n s
  | .tdload n => Sys2Proof.Machine.execTdload n s
  | .waitset n => Sys2Proof.Machine.execWaitset n s
  | .waitsetProxySignal k ix => Sys2Proof.Machine.execWaitsetProxySignal k ix s
  | .waitsetTimeout k ix => Sys2Proof.Machine.execWaitsetTimeout k ix s
  | .loop n => Sys2Proof.Machine.execLoop n s
  | .branch n => Sys2Proof.Machine.execBranch n s
  | .salu n => Sys2Proof.Machine.execSalu n s
  | .sldst n => Sys2Proof.Machine.execSldst n s
  | .aalu n => Sys2Proof.Machine.execAalu n s
  | .tileWatchdogExpiry n => Sys2Proof.Machine.execTileWatchdogExpiry n s
  | .linkParityFailure n engine link resendFails => Sys2Proof.Machine.execLinkParityFailure n engine link resendFails s
  | .coreReset n => Sys2Proof.Machine.execCoreReset n s
  | .moveDescriptorAccept k => Sys2Proof.Machine.execMoveDescriptorAccept k s
  | .moveComplete k slot host => Sys2Proof.Machine.execMoveComplete k slot host s
  | .stemDescriptor k ctx idx raw => Sys2Proof.Machine.execStemDescriptor k ctx idx raw s
  | .stemComplete k => Sys2Proof.Machine.execStemComplete k s
  | .programLoad n host => Sys2Proof.Machine.execProgramLoad n host s
  | .overlayLoad n host => Sys2Proof.Machine.execOverlayLoad n host s
  | .syncSignalApply ix => Sys2Proof.Machine.execSyncSignalApply ix s
  | .syncAlloc f tag count p => Sys2Proof.Machine.execSyncAlloc f tag count p s
  | .syncFree f tag objs => Sys2Proof.Machine.execSyncFree f tag objs s
  | .syncSet f tag ix value => Sys2Proof.Machine.execSyncSet f tag ix value s
  | .postDescriptorQueue => Sys2Proof.Machine.execPostDescriptorQueue s
  | .postDescriptorStart => Sys2Proof.Machine.execPostDescriptorStart s
  | .postDescriptorComplete => Sys2Proof.Machine.execPostDescriptorComplete s
  | .attnRegister f tag p raw => Sys2Proof.Machine.execAttnRegister f tag p raw s
  | .kvPages f tag p slot first count => Sys2Proof.Machine.execKvPages f tag p slot first count s
  | .stepStart p => Sys2Proof.Machine.execStepStart p s
  | .workListComplete p => Sys2Proof.Machine.execWorkListComplete p s
  | .cacheTagMismatch n seq out len signals weight => Sys2Proof.Machine.execCacheTagMismatch n seq out len signals weight s
  | .serveRegister f tag p raw => Sys2Proof.Machine.execServeRegister f tag p raw s
  | .modelSlot f tag p slot raw => Sys2Proof.Machine.execModelSlot f tag p slot raw s
  | .seqWrite f tag ix raw => Sys2Proof.Machine.execSeqWrite f tag ix raw s
  | .step f tag p => Sys2Proof.Machine.execStep f tag p s
  | .sliceRequest p gen write a n data ecc => Sys2Proof.Machine.execSliceRequest p gen write a n data ecc s
  | .refreshDue stack ch postpone => Sys2Proof.Machine.execRefreshDue stack ch postpone s
  | .stackTemperatureReport stack temp => Sys2Proof.Machine.execStackTemperatureReport stack temp s
  | .memStallClearAll f => Sys2Proof.Machine.execMemStallClearAll f s
  | .memStallClearPart f p => Sys2Proof.Machine.execMemStallClearPart f p s
  | .groupMode f tag g sliced => Sys2Proof.Machine.execGroupMode f tag g sliced s
  | .streamRegister f tag p k raw => Sys2Proof.Machine.execStreamRegister f tag p k raw s
  | .streamFillStart p k => Sys2Proof.Machine.execStreamFillStart p k s
  | .streamStop f tag p k => Sys2Proof.Machine.execStreamStop f tag p k s
  | .streamStopAtBoundary p k => Sys2Proof.Machine.execStreamStopAtBoundary p k s
  | .partCreate f tag raw => Sys2Proof.Machine.execPartCreate f tag raw s
  | .partDestroy f tag p => Sys2Proof.Machine.execPartDestroy f tag p s
  | .descriptorDispatch p => Sys2Proof.Machine.execDescriptorDispatch p s
  | .descriptorComplete n idx energy => Sys2Proof.Machine.execDescriptorComplete n idx energy s
  | .minuetRequest n migrate => Sys2Proof.Machine.execMinuetRequest n migrate s
  | .minuetSave n => Sys2Proof.Machine.execMinuetSave n s
  | .minuetRestore n host => Sys2Proof.Machine.execMinuetRestore n host s
  | .ctxPause f tag n => Sys2Proof.Machine.execCtxPause f tag n s
  | .ctxRestart f tag n => Sys2Proof.Machine.execCtxRestart f tag n s
  | .partitionFaultHandling n idx => Sys2Proof.Machine.execPartitionFaultHandling n idx s
  | .pairCreate f tag raw => Sys2Proof.Machine.execPairCreate f tag raw s
  | .pairArm f tag ix arm => Sys2Proof.Machine.execPairArm f tag ix arm s
  | .pairRoundCompare ix => Sys2Proof.Machine.execPairRoundCompare ix s
  | .pairTimeout ix => Sys2Proof.Machine.execPairTimeout ix s
  | .camPocEnWrite f n value => Sys2Proof.Machine.execCamPocEnWrite f n value s
  | .pocOvercurrent n => Sys2Proof.Machine.execPocOvercurrent n s
  | .pocOpenDetect n current => Sys2Proof.Machine.execPocOpenDetect n current s
  | .portBringUp n fails => Sys2Proof.Machine.execPortBringUp n fails s
  | .aphyLinkLoss n => Sys2Proof.Machine.execAphyLinkLoss n s
  | .camPortMap f tag raw => Sys2Proof.Machine.execCamPortMap f tag raw s
  | .camProfile f tag slot index data => Sys2Proof.Machine.execCamProfile f tag slot index data s
  | .camCtxStart f tag raw => Sys2Proof.Machine.execCamCtxStart f tag raw s
  | .camCtxStop f tag c => Sys2Proof.Machine.execCamCtxStop f tag c s
  | .camDefaultStats f tag port index => Sys2Proof.Machine.execCamDefaultStats f tag port index s
  | .camPortOwnerWrite f n value => Sys2Proof.Machine.execCamPortOwnerWrite f n value s
  | .camFsyncCtrlWrite f g value => Sys2Proof.Machine.execCamFsyncCtrlWrite f g value s
  | .camFsyncPeriodWrite f g value => Sys2Proof.Machine.execCamFsyncPeriodWrite f g value s
  | .fsyncGeneratorEdge g => Sys2Proof.Machine.execFsyncGeneratorEdge g s
  | .fsyncEdge g => Sys2Proof.Machine.execFsyncEdge g s
  | .frameStartPacket port vc csiNo => Sys2Proof.Machine.execFrameStartPacket port vc csiNo s
  | .linePacket port vc dt hdr px crcOk => Sys2Proof.Machine.execLinePacket port vc dt hdr px crcOk s
  | .embeddedDataLine port vc bs => Sys2Proof.Machine.execEmbeddedDataLine port vc bs s
  | .frameEndPacket port vc => Sys2Proof.Machine.execFrameEndPacket port vc s
  | .ispUnitStart p => Sys2Proof.Machine.execIspUnitStart p s
  | .ispUnitEnd p => Sys2Proof.Machine.execIspUnitEnd p s
  | .camera n idx => Sys2Proof.Machine.execCamera n idx s
  | .sensorWrite p acked => Sys2Proof.Machine.execSensorWrite p acked s
  | .sensorRead p answer => Sys2Proof.Machine.execSensorRead p answer s
  | .exposure p acked => Sys2Proof.Machine.execExposure p acked s
  | .ispParams p host => Sys2Proof.Machine.execIspParams p host s
  | .muteAssert g => Sys2Proof.Machine.execMuteAssert g s
  | .unmute g => Sys2Proof.Machine.execUnmute g s
  | .muteSettleEnd g => Sys2Proof.Machine.execMuteSettleEnd g s
  | .audGroupCfgWrite f g value => Sys2Proof.Machine.execAudGroupCfgWrite f g value s
  | .audWakeCfgWrite f g value => Sys2Proof.Machine.execAudWakeCfgWrite f g value s
  | .audStore f tag raw => Sys2Proof.Machine.execAudStore f tag raw s
  | .recogniserHop g fall rise energy => Sys2Proof.Machine.execRecogniserHop g fall rise energy s
  | .wakeMatch g => Sys2Proof.Machine.execWakeMatch g s
  | .sessionTimeout g => Sys2Proof.Machine.execSessionTimeout g s
  | .audCopy f tag g mask epoch first count fmt space part dest => Sys2Proof.Machine.execAudCopy f tag g mask epoch first count fmt space part dest s
  | .audReseal f tag g => Sys2Proof.Machine.execAudReseal f tag g s
  | .audStream f tag g part base slots slotBytes frameSync releaseSync => Sys2Proof.Machine.execAudStream f tag g part base slots slotBytes frameSync releaseSync s
  | .audStreamSlot ix pdm => Sys2Proof.Machine.execAudStreamSlot ix pdm s
  | .wakeQueueRead f tag first => Sys2Proof.Machine.execWakeQueueRead f tag first s
  | .recogImage f tag host => Sys2Proof.Machine.execRecogImage f tag host s
  | .rustleTrigger => Sys2Proof.Machine.execRustleTrigger s
  | .perstAssert l => Sys2Proof.Machine.execPerstAssert l s
  | .perstRelease l => Sys2Proof.Machine.execPerstRelease l s
  | .dlDown l => Sys2Proof.Machine.execDlDown l s
  | .linkUp l speed width => Sys2Proof.Machine.execLinkUp l speed width s
  | .linkRetrain l ended speed width => Sys2Proof.Machine.execLinkRetrain l ended speed width s
  | .linkRecord f tag raw => Sys2Proof.Machine.execLinkRecord f tag raw s
  | .memAptWrite f j value => Sys2Proof.Machine.execMemAptWrite f j value s
  | .apertureAccess f off n write data => Sys2Proof.Machine.execApertureAccess f off n write data s
  | .sqTailDoorbell f n v => Sys2Proof.Machine.execSqTailDoorbell f n v s
  | .cqHeadDoorbell f n v => Sys2Proof.Machine.execCqHeadDoorbell f n v s
  | .ctxEnable f n value => Sys2Proof.Machine.execCtxEnable f n value s
  | .ctxDisable f n => Sys2Proof.Machine.execCtxDisable f n s
  | .descriptorFetch n => Sys2Proof.Machine.execDescriptorFetch n s
  | .descriptorArrive n host => Sys2Proof.Machine.execDescriptorArrive n host s
  | .nop n idx => Sys2Proof.Machine.execNop n idx s
  | .compute n idx host => Sys2Proof.Machine.execCompute n idx host s
  | .copy n idx host => Sys2Proof.Machine.execCopy n idx host s
  | .post n idx => Sys2Proof.Machine.execPost n idx s
  | .irqModerationTimer n => Sys2Proof.Machine.execIrqModerationTimer n s
  | .vectorUnmask f v => Sys2Proof.Machine.execVectorUnmask f v s
  | .ptmDialogue l hostTime => Sys2Proof.Machine.execPtmDialogue l hostTime s
  | .ptmSyncTimeout l => Sys2Proof.Machine.execPtmSyncTimeout l s
  | .stampAlign ix => Sys2Proof.Machine.execStampAlign ix s
  | .smbusMctpControl code body => Sys2Proof.Machine.execSmbusMctpControl code body s
  | .smbusPldmSensorRead ix meter => Sys2Proof.Machine.execSmbusPldmSensorRead ix meter s
  | .smbusErrlogSummary => Sys2Proof.Machine.execSmbusErrlogSummary s
  | .smbusErrlogEntry seq => Sys2Proof.Machine.execSmbusErrlogEntry seq s
  | .smbusSpareSummary => Sys2Proof.Machine.execSmbusSpareSummary s
  | .smbusSpareRecord ix => Sys2Proof.Machine.execSmbusSpareRecord ix s
  | .fnLimitWrite f t value => Sys2Proof.Machine.execFnLimitWrite f t value s
  | .fnQosWrite f t value => Sys2Proof.Machine.execFnQosWrite f t value s
  | .fnGroupOwnerWrite f g value => Sys2Proof.Machine.execFnGroupOwnerWrite f g value s
  | .flr f => Sys2Proof.Machine.execFlr f s
  | .vfDisable l => Sys2Proof.Machine.execVfDisable l s
  | .clearing p home => Sys2Proof.Machine.execClearing p home s
  | .tallyClearingTimeout p pool diff => Sys2Proof.Machine.execTallyClearingTimeout p pool diff s
  | .pwrCfgWrite f value => Sys2Proof.Machine.execPwrCfgWrite f value s
  | .stateRequest f tag target timeout => Sys2Proof.Machine.execStateRequest f tag target timeout s
  | .stateRequestTimeout => Sys2Proof.Machine.execStateRequestTimeout s
  | .refuserRelease => Sys2Proof.Machine.execRefuserRelease s
  | .stateEntry late => Sys2Proof.Machine.execStateEntry late s
  | .stateRise digestOk => Sys2Proof.Machine.execStateRise digestOk s
  | .thermalGuardSample junction => Sys2Proof.Machine.execThermalGuardSample junction s
  | .thermalRecoveryStep => Sys2Proof.Machine.execThermalRecoveryStep s
  | .ledgerWindowStart debits => Sys2Proof.Machine.execLedgerWindowStart debits s
  | .ledgerHold debits => Sys2Proof.Machine.execLedgerHold debits s
  | .pwrLedgerCfgWrite f value => Sys2Proof.Machine.execPwrLedgerCfgWrite f value s
  | .pwrAllowanceWrite f value => Sys2Proof.Machine.execPwrAllowanceWrite f value s
  | .tierRegister f tag t raw => Sys2Proof.Machine.execTierRegister f tag t raw s
  | .escalationRequest t => Sys2Proof.Machine.execEscalationRequest t s
  | .signerRevoke f host => Sys2Proof.Machine.execSignerRevoke f host s
  | .svnCommit f arg => Sys2Proof.Machine.execSvnCommit f arg s
  | .releaseOpen f p => Sys2Proof.Machine.execReleaseOpen f p s
  | .releaseKey f host => Sys2Proof.Machine.execReleaseKey f host s
  | .releaseClose f id => Sys2Proof.Machine.execReleaseClose f id s
  | .releaseEntryTimeout id => Sys2Proof.Machine.execReleaseEntryTimeout id s
  | .unlockNonce f => Sys2Proof.Machine.execUnlockNonce f s
  | .unlock f host => Sys2Proof.Machine.execUnlock f host s
  | .getVersion f req => Sys2Proof.Machine.execGetVersion f req s
  | .getCapabilities f req => Sys2Proof.Machine.execGetCapabilities f req s
  | .negotiateAlgorithms f req => Sys2Proof.Machine.execNegotiateAlgorithms f req s
  | .getDigests f req => Sys2Proof.Machine.execGetDigests f req s
  | .getCertificate f slot off len req => Sys2Proof.Machine.execGetCertificate f slot off len req s
  | .challenge f req => Sys2Proof.Machine.execChallenge f req s
  | .getMeasurements f index req => Sys2Proof.Machine.execGetMeasurements f index req s
  | .spdmUnsupportedRequest f => Sys2Proof.Machine.execSpdmUnsupportedRequest f s
  | .d2dPacketTagFail link dir fresh => Sys2Proof.Machine.execD2dPacketTagFail link dir fresh s
  | .tallyAudit pool holder c => Sys2Proof.Machine.execTallyAudit pool holder c s
  | .fatalHalt island detail => Sys2Proof.Machine.execFatalHalt island detail s
  | .ageingMonitorRead ix slack => Sys2Proof.Machine.execAgeingMonitorRead ix slack s
  | .coreMigration n selfTest => Sys2Proof.Machine.execCoreMigration n selfTest s
  | .sramRowSwap cluster unit bank row uncorrectable => Sys2Proof.Machine.execSramRowSwap cluster unit bank row uncorrectable s
  | .stackRowRepair stack ch row pg uncorrectable ppr ended => Sys2Proof.Machine.execStackRowRepair stack ch row pg uncorrectable ppr ended s
  | .pseudoChannelSwap stack ch cause ended => Sys2Proof.Machine.execPseudoChannelSwap stack ch cause ended s
  | .ucieLaneRepair link dir lane training => Sys2Proof.Machine.execUcieLaneRepair link dir lane training s
  | .errlogRead f tag seq => Sys2Proof.Machine.execErrlogRead f tag seq s
  | .spareRead f tag ix => Sys2Proof.Machine.execSpareRead f tag ix s
  | .mgmtEventDeliver f => Sys2Proof.Machine.execMgmtEventDeliver f s
  | .traceRecordEmit point island fn part args blocked => Sys2Proof.Machine.execTraceRecordEmit point island fn part args blocked s
  | .trcCtrlWrite f value => Sys2Proof.Machine.execTrcCtrlWrite f value s
  | .glbSafeClear f cause => Sys2Proof.Machine.execGlbSafeClear f cause s
  | .glbFaultClear f => Sys2Proof.Machine.execGlbFaultClear f s
  | .bar0MisalignedAccess f write => Sys2Proof.Machine.execBar0MisalignedAccess f write s
  | .counterLoRead f addr => Sys2Proof.Machine.execCounterLoRead f addr s
  | .rcRegisterRead f addr => Sys2Proof.Machine.execRcRegisterRead f addr s
  | .registerWrite f addr value => Sys2Proof.Machine.execRegisterWrite f addr value s
  | .undefinedInstructionEncoding n => Sys2Proof.Machine.execUndefinedInstructionEncoding n s
  | .unknownOpcodeRequest f op tag => Sys2Proof.Machine.execUnknownOpcodeRequest f op tag s

end Sys2Proof.Machine
end

