-- ==== Sys2Proof/Safety.lean ====
section
/-!
DEFINITION. What claims say of states: canonical memory, a core at an instruction, a management request that is taken, and frames.
-/
namespace Sys2Proof.Machine

/-- Device memory is in its canonical form. -/
abbrev State.MemOk (s : State) : Prop := Memory.wf s.undef s.dmem = true

/-- Core n runs, is c, and stands at the instruction word w. -/
structure Issues (s : State) (n : Nat) (c : Core) (w : Nat) : Prop where
  core : s.core n = c
  runs : s.issuing n = true
  word : c.wordAt c.pc = some w

/-- A body instruction or COMMIT may issue: a tile is open, no WAITSET proxy lacks its WAIT, and the window is not on HOLD unless the body
has begun (R188, R594, R785). -/
def Core.bodyReady (c : Core) (hold : Bool) : Bool :=
  match c.tile with
  | some t => (t.inBody || !hold) && t.proxies.isEmpty
  | none => false

/-- An instruction that may stand anywhere may issue (R782). -/
def Core.anyReady (c : Core) (hold : Bool) : Bool := c.tile.isNone || c.bodyReady hold

/-- The core with its body begun, when a tile is open (R188). -/
def Core.entered (c : Core) : Core := { c with tile := c.tile.map (fun t => { t with inBody := true }) }

/-- A function's next management request is taken: its reply ring has room (R715), the fatal halt bars it only when it reads no record
(R693), and the firmware runs or the message is one of R616. -/
structure Served (s : State) (f : Nat) (early readOnly : Bool) : Prop where
  room : diff32 (s.fn f).repTail.toNat (s.fn f).repHead.toNat + (s.fn f).owed.length ≠ 512
  live : s.errs.halted = false ∨ readOnly = true
  firm : s.pwr.fw.running = true ∨ early = true

/-- A register write is acted on: the module has its supplies and is not in the fatal halt (R731). -/
abbrev State.acts (s : State) : Prop := s.errs.halted = false ∧ s.pwr.aon = true

/-- A function's mailbox is free, and no command of it that a reset met still runs (R648, R649). -/
abbrev State.mailFree (s : State) (f : Nat) : Prop := (s.mbox f).run = none ∧ (s.mbox f).lost = []

/-- Two states agree outside the cores and clusters. -/
structure SameBeyondCompute (s t : State) : Prop where
  pending : t.pending = s.pending
  sync : t.cpu.sync = s.cpu.sync
  post : t.cpu.post = s.cpu.post
  work : t.work = s.work
  host : t.host = s.host
  errs : t.errs = s.errs
  pwr : t.pwr = s.pwr
  mem : t.mem = s.mem
  trust : t.trust = s.trust
  media : t.media = s.media
  sent : t.sent = s.sent

/-- Two states agree in device memory, its poison and its undefined ranges. -/
structure SameMemory (s t : State) : Prop where
  dmem : t.dmem = s.dmem
  undef : t.undef = s.undef
  poison : t.poison = s.poison

end Sys2Proof.Machine
end

