-- ==== Sys2Proof/Certificates/Slice0/Obligations.lean ====
section
/-!
DEFINITION. The statements for the provers: what the rules of the spec say the commands and the machine do.
-/
open Sys2Proof Sys2Proof.Machine

/-- For every command c and state s, step of s with c put at the front of its queue is exec c of s with the queue's rest. (The queue is
the model's own: log entry 1.) (spec/95_what_each_step_holds.md) -/
def Obligations.StepRunsFront : Prop :=
  ∀ (c : Instr) (s : State) (rest : List Instr), step { s with pending := c :: rest } = exec c { s with pending := rest }

/-- For every command and every state exec answers a next state, never a fault and never a refusal: each error of the manual is recorded
in the module's state. (spec/16_conservation_errors_and_spares.md, spec/04_plarnatur_tile_contract.md) -/
def Obligations.EveryCommandEndsInAState : Prop :=
  ∀ (c : Instr) (s : State), ∃ t, exec c s = .next t

/-- For every command and state, the next state's queue is the queue before. (The queue is the model's own: log entry 1.)
(spec/95_what_each_step_holds.md) -/
def Obligations.ExecLeavesTheQueue : Prop :=
  ∀ (c : Instr) (s t : State), exec c s = .next t → t.pending = s.pending

/-- From every state whose memory lists its cells at strictly rising addresses, none of them equal to what an unlisted address reads as,
every step leads to a state whose memory has the same form. (spec/02_engines_cores_clusters.md, spec/04_plarnatur_tile_contract.md,
spec/07_memory_tiers.md) -/
def Obligations.EveryStepKeepsMemoryCanonical : Prop :=
  ∀ s t : State, s.MemOk → step s = .next t → t.MemOk

/-- Where a scalar or address instruction may issue and its encoding is defined, SALU writes its result to the scalar register it names,
the second operand being the immediate or a register, AALU writes (a-s + s-add + immediate) modulo 2^48, and the core moves past the
instruction. ADD, SUB and MUL wrap modulo 2^32, the logic operations are bitwise, shifts take their amount modulo 32, SRA keeps the sign,
MIN and MAX compare signed and MINU and MAXU unsigned, MOV copies the second operand; any other code has no operation. (R784, R185, R782)
-/
def Obligations.ScalarInstructions : Prop :=
  (∀ (s : State) (n : CoreId) (c : Core) (w : Nat), Issues s n c w → c.anyReady s.pwr.ledger.hold = true →
    (∀ (b v : Word), opcodeOf w = 0x0A → reservedSet w 0xFFFFFFFCFFFFFFFF = false →
      b = (if bit w 34 then BitVec.ofNat 32 (bits w 31 0) else c.sreg (bits w 39 35)) →
      saluOp (bits w 55 50) (c.sreg (bits w 44 40)) b = some v →
      exec (.salu n) s = .next (s.advance n (c.entered.setSreg (bits w 49 45) v))) ∧
    (opcodeOf w = 0x0C →
      exec (.aalu n) s = .next (s.advance n (c.entered.setAreg (bits w 55 53)
        (BitVec.ofInt 48 ((c.areg (bits w 52 50)).toNat + sext 32 (c.sreg (bits w 49 45)).toNat + sext 45 (bits w 44 0))))))) ∧
  (∀ a b : Word,
    saluOp 0x00 a b = some (BitVec.ofNat 32 (a.toNat + b.toNat)) ∧ (saluOp 0x01 a b).map (· + b) = some a ∧
    saluOp 0x02 a b = some (BitVec.ofNat 32 (a.toNat * b.toNat)) ∧ saluOp 0x03 a b = some (a &&& b) ∧
    saluOp 0x04 a b = some (a ||| b) ∧ saluOp 0x05 a b = some (a ^^^ b) ∧
    saluOp 0x06 a b = some (BitVec.ofNat 32 (a.toNat * 2 ^ (b.toNat % 32))) ∧
    saluOp 0x07 a b = some (BitVec.ofNat 32 (a.toNat / 2 ^ (b.toNat % 32))) ∧
    saluOp 0x08 a b = some (BitVec.ofInt 32 (a.toInt / 2 ^ (b.toNat % 32))) ∧
    saluOp 0x09 a b = some (BitVec.ofInt 32 (min a.toInt b.toInt)) ∧ saluOp 0x0A a b = some (BitVec.ofInt 32 (max a.toInt b.toInt)) ∧
    saluOp 0x0B a b = some (BitVec.ofNat 32 (min a.toNat b.toNat)) ∧ saluOp 0x0C a b = some (BitVec.ofNat 32 (max a.toNat b.toNat)) ∧
    saluOp 0x0D a b = some b ∧ ∀ op, 0x0D < op → saluOp op a b = none)

/-- A well-formed LOOP with a count opens a frame over the body of the given length and continues at its first instruction; with a count
of 0 it continues after the body. A BRANCH whose condition fails moves on; one whose condition holds, with a target that R784 allows,
continues there. (R781, R784, R782) -/
def Obligations.ControlFlow : Prop :=
  ∀ (s : State) (n : CoreId) (c : Core) (w : Nat), Issues s n c w → c.anyReady s.pwr.ledger.hold = true →
    (∀ len cnt : Nat, opcodeOf w = 0x08 → reservedSet w 0xFFFE00FFFFFFFFFF = false → len = bits w 39 24 → 0 < len →
      cnt = (if bits w 53 49 = 0 then bits w 23 0 else (c.sreg (bits w 53 49)).toNat) →
      bits w 55 54 = c.loops.length →
      (∀ f fs, c.loops = f :: fs → c.pc + 1 + len ≤ f.start + f.len) →
      (∀ q, c.pc < q → q ≤ c.pc + len → c.opAt q ≠ 1 ∧ c.opAt q ≠ 2) →
      (cnt = 0 → exec (.loop n) s = .next (s.continueAt n c.entered (c.pc + 1 + len))) ∧
      (0 < cnt → exec (.loop n) s = .next (s.continueAt n
        { c.entered with loops := { start := c.pc + 1, len := len, left := cnt } :: c.loops } (c.pc + 1)))) ∧
    (∀ taken : Bool, opcodeOf w = 0x09 → reservedSet w 0xFFFFFC00FFFFFFFF = false →
      branchHolds (bits w 55 52) (c.sreg (bits w 51 47)) (c.sreg (bits w 46 42)) = some taken →
      (taken = false → exec (.branch n) s = .next (s.advance n c.entered)) ∧
      (taken = true → c.entered.branchBad (c.pc + sext 32 (bits w 31 0)) = false →
        exec (.branch n) s = .next (s.continueAt n c.entered ((c.pc : Int) + sext 32 (bits w 31 0)).toNat)))

/-- Of k runs of a loop's body the first k − 1 ends lead back to its first instruction with one run less left; the end of the last closes
the loop and goes on with the loops around it. A position that is not the end of the innermost loop stands. (R781) -/
def Obligations.LoopBodyRunsItsCount : Prop :=
  ∀ (start len k : Nat) (outer : List LoopFrame), 0 < k →
    (∀ j, j < k → Nat.repeat (fun l => (landing l (start + len)).2) j ({ start := start, len := len, left := k } :: outer) =
      { start := start, len := len, left := k - j } :: outer) ∧
    (∀ j, j + 1 < k → (landing (Nat.repeat (fun l => (landing l (start + len)).2) j ({ start := start, len := len, left := k } :: outer))
      (start + len)).1 = start) ∧
    landing (Nat.repeat (fun l => (landing l (start + len)).2) (k - 1) ({ start := start, len := len, left := k } :: outer)) (start + len) =
      landing outer (start + len) ∧
    (∀ pos, pos ≠ start + len →
      landing ({ start := start, len := len, left := k } :: outer) pos = (pos, { start := start, len := len, left := k } :: outer))

/-- In range, aligned and without poison: a load writes the register from the bytes at the address, least significant first; a store
writes the register's bytes there, and padding stays padding both ways (R219); TDLOAD copies 32 bytes into a descriptor register. The core
moves past the instruction. Out of range the tile aborts with E_STORE_RANGE, over poison with E_MEM_POISON. (R185, R316, R782, R81) -/
def Obligations.CoreStoreAccess : Prop :=
  ∀ (s : State) (n : CoreId) (c : Core) (w : Nat), Issues s n c w →
    (∀ a : Nat, c.anyReady s.pwr.ledger.hold = true → opcodeOf w = 0x0B → reservedSet w 0xFFFF8000001FFFFF = false → bits w 20 0 % 4 = 0 →
      a = (c.areg (bits w 49 47)).toNat + bits w 20 0 →
      (coreStoreBytes < a + 4 → exec (.sldst n) s = .next (s.abortTile n .eStoreRange)) ∧
      (a + 4 ≤ coreStoreBytes → bit w 55 = true → exec (.sldst n) s =
        .next ((s.coreWrite n a (toLE 4 (c.sreg (bits w 54 50)).toNat)).advance n (c.entered.note [(a, 4)]))) ∧
      (a + 4 ≤ coreStoreBytes → bit w 55 = false → s.corePoisoned n a 4 = true → exec (.sldst n) s = .next (s.abortTile n .eMemPoison)) ∧
      (a + 4 ≤ coreStoreBytes → bit w 55 = false → s.corePoisoned n a 4 = false → exec (.sldst n) s =
        .next (s.advance n (c.entered.setSreg (bits w 54 50) (BitVec.ofNat 32 (leNat (s.coreRead n a 4))))))) ∧
    (∀ a : Nat, c.bodyReady s.pwr.ledger.hold = true → opcodeOf w = 0x21 → reservedSet w 0xFF80FC00001FFFFF = false → bits w 20 0 % 64 = 0 →
      a = (c.areg (bits w 44 42)).toNat + bits w 20 0 → a + 512 ≤ coreStoreBytes →
      (bit w 55 = true → exec (.vldst n) s =
        .next (((s.coreWrite n a ((c.lanes (bits w 47 45)).flatMap (fun x => toLE 4 x.toNat))).markPads (coreBase n + a)
          (c.pads (bits w 47 45))).advance n (c.entered.note [(a, 512)]))) ∧
      (bit w 55 = false → s.corePoisoned n a 512 = false → exec (.vldst n) s =
        .next (s.advance n ((c.entered.setLanes (bits w 47 45)
          ((List.range 128).map (fun l => BitVec.ofNat 32 (leNat (s.coreRead n (a + 4 * l) 4))))).setPads (bits w 47 45)
            ((rangeFrom (coreBase n + a) 512).map s.padOf))))) ∧
    (c.anyReady s.pwr.ledger.hold = true → opcodeOf w = 0x06 → reservedSet w 0xFF0F00000000FFFF = false →
      s.corePoisoned n (32 * bits w 15 0) 32 = false →
      exec (.tdload n) s = .next (s.advance n (c.entered.setTdreg (bits w 51 48) (s.coreRead n (32 * bits w 15 0) 32))))

/-- Completes: TILE (R187, R188) and COMMIT (R190). TILE with a number of the live table opens the tile, clears both flags and leaves no
defined accumulator, vector lane, loop or core-store byte outside the ranges of the entry. COMMIT, every WAITSET proxy waited on, the
queued signals on owned objects, releases the queued entries in order, adds the flags to the descriptor and closes the tile. The core
moves on each time. A wait set still watched can abort nothing any more (R785), and the partition's stall interval follows (R325). (R187,
R188, R190, R168, R167, R785, R325) -/
def Obligations.TileOpensAndCommits : Prop :=
  ∀ (s : State) (n : CoreId) (c : Core) (w : Nat), Issues s n c w →
    (∀ p : Program, opcodeOf w = 0x01 → reservedSet w 0xFF0000000000FFFF = false → c.minuetReq = false → c.stopReq = false → c.tile = none → c.prog = some p →
      bits w 15 0 < p.live.length →
      exec (.tile n) s = .next ((({ s with draws := s.draws + 2 } : State).keepRanges n (p.live.getD (bits w 15 0) [])).advance n
        { c with tile := some { id := bits w 15 0, pos := c.pc, inBody := false, proxies := [] }, lastTile := bits w 15 0, accSat := false,
                 accNonfin := false, acc := [], accBase := some s.draws, v := [], vBase := some (s.draws + 1), vPad := [], loops := [], wrote := [] })) ∧
    (∀ (work : CoreWork) (t : TileOpen), opcodeOf w = 0x02 → reservedSet w 0xFF00000000000000 = false → c.tile = some t → t.proxies = [] →
      c.work = some work → (∀ sync add, .signal sync add ∈ c.commitQ → s.ownsSync work.part work.gen sync = true) →
      ∀ s1 s2 : State, s1 = c.commitQ.foldl (releaseEntry n work t.id) s → s2 = s1.setCluster (n.val / 8) ((s1.cluster (n.val / 8)).disarm n) →
      exec (.commit n) s = .next (s.stallUpdate work.part
        ((s2.setCtx work.ctx ((s2.ctx work.ctx).addTileFlags work.idx c.accSat c.accNonfin)).advance n
          { c.entered with tile := none, commitQ := [], loops := [], wrote := [] })))

/-- In a body a well-formed SIGNAL and MOVE append their entry to the commit queue, a MOVE the 64 descriptor bytes as they stand at its
issue; no signal and no move is released and nothing outside the core changes; with sixteen entries queued each stops issue under R80; a
poisoned word in the descriptor aborts the tile with E_MEM_POISON. (R189) -/
def Obligations.SignalAndMoveQueue : Prop :=
  ∀ (s : State) (n : CoreId) (c : Core) (w : Nat) (e : CommitEntry), Issues s n c w → c.bodyReady s.pwr.ledger.hold = true →
    (opcodeOf w = 0x04 → reservedSet w 0xFF00FFFF0000FFFF = false → bits w 47 32 ≠ 0 → s.ownsSync c.owner.1 c.owner.2 (bits w 15 0) = true →
      (e = .signal (bits w 15 0) (bits w 47 32) → c.commitQ.length < 16 →
        exec (.signal n) s = .next (s.advance n { c.entered with commitQ := c.commitQ ++ [e] })) ∧
      (c.commitQ.length = 16 → exec (.signal n) s = .next (s.stopIllegal n))) ∧
    (opcodeOf w = 0x05 → reservedSet w 0xFF00000000007FFF = false →
      (e = .move (s.coreRead n (64 * bits w 14 0) 64) → c.commitQ.length < 16 → s.corePoisoned n (64 * bits w 14 0) 64 = false →
        exec (.move n) s = .next (s.advance n { c.entered with commitQ := c.commitQ ++ [e] })) ∧
      (c.commitQ.length < 16 → s.corePoisoned n (64 * bits w 14 0) 64 = true → exec (.move n) s = .next (s.abortTile n .eMemPoison)) ∧
      (c.commitQ.length = 16 → exec (.move n) s = .next (s.stopIllegal n))) ∧
    SameBeyondCompute s (s.advance n { c.entered with commitQ := c.commitQ ++ [e] }) ∧
    (∀ m, m ≠ n.val → (s.advance n { c.entered with commitQ := c.commitQ ++ [e] }).core m = s.core m) ∧
    (∀ k, ((s.advance n { c.entered with commitQ := c.commitQ ++ [e] }).cluster k).released = (s.cluster k).released)

/-- For a core that works for a partition: when the named object belongs to another partition, or carries a generation other than the
partition's current one, a well-formed WAIT in a preamble and a well-formed SIGNAL in a body abort the tile before commit with
E_SYNC_OWNER. (R199) -/
def Obligations.ForeignSyncObjectAborts : Prop :=
  ∀ (s : State) (n : CoreId) (c : Core) (w : Nat) (work : CoreWork) (o : SyncObj), Issues s n c w → c.work = some work →
    s.syncObj (bits w 15 0) = some o → (o.part ≠ work.part ∨ o.gen ≠ s.gen work.part) →
    (∀ t, c.tile = some t → t.inBody = false → opcodeOf w = 0x03 → reservedSet w 0xFFFFC0000000FFFF = false → bits w 55 54 ≤ 1 →
      bits w 48 46 ≤ 3 → exec (.wait n) s = .next (s.abortTile n .eSyncOwner)) ∧
    (c.bodyReady s.pwr.ledger.hold = true → opcodeOf w = 0x04 → reservedSet w 0xFF00FFFF0000FFFF = false → bits w 47 32 ≠ 0 →
      exec (.signal n) s = .next (s.abortTile n .eSyncOwner))

/-- Completes: WAIT (R79, R196, R584), WAIT_RESUME (R585), WAITSET, WAITSET_PROXY_SIGNAL, WAITSET_TIMEOUT (R785). A WAIT whose condition
holds moves on; else the core waits in the lesser mode of PMODE and ALLOW, SLOW below MIN_CLOCK failing R361's condition 0 (R362), OFF
only where the tile's entry lists no ranges and no audit epoch is open for the core (GATE otherwise), which loses the core store; with a
Minuet request open the preamble is abandoned (R352). A woken core moves past its WAIT, its store zero-filled after OFF. A well-formed
WAITSET adds its record to the cluster controller's watches. A watch whose condition was met signals 1 to the proxy and ends; a timed one
never met aborts its tile with SYNC_TIMEOUT. Stall intervals follow (R325). (R79, R196, R785, R584, R585, R352, R325, R70) -/
def Obligations.WaitsAndWaitSets : Prop :=
  ∀ (s : State),
    (∀ (n : CoreId) (c : Core) (w : Nat) (t : TileOpen) (wt : SyncWait), Issues s n c w → opcodeOf w = 0x03 →
      reservedSet w 0xFFFFC0000000FFFF = false → bits w 55 54 ≤ 1 → bits w 48 46 ≤ 3 → c.tile = some t → t.inBody = false →
      s.ownsSync c.owner.1 c.owner.2 (bits w 15 0) = true →
      wt = { sync := bits w 15 0, eq := bits w 55 54 == 1, target := c.sreg (bits w 53 49) } →
      (s.waitHolds wt = true → exec (.wait n) s =
        .next (s.advance n { c with tile := some { t with proxies := t.proxies.filter (fun x => !(x == bits w 15 0)) } })) ∧
      (∀ c' : Core, c' = { c with tile := some { t with proxies := t.proxies.filter (fun x => !(x == bits w 15 0)) } } → s.waitHolds wt = false →
        (∀ m u, m = min (bits w 48 46) c.allow → m < 3 → c.minuetReq = false →
          u = stallOf n s (s.setCore n { c' with run := .waiting wt, mode := m }) →
          exec (.wait n) s = .next (if m = 2 then u.voidSlow n c.owner.1 else u)) ∧
        (∀ p : Program, c.minuetReq = false → min (bits w 48 46) c.allow = 3 → c.prog = some p →
          (p.live.getD t.id [] ≠ [] → exec (.wait n) s = .next (stallOf n s (s.setCore n { c' with run := .waiting wt, mode := 1 }))) ∧
          (p.live.getD t.id [] = [] → s.tallyOpen (coreIsland n) = false →
            exec (.wait n) s = .next (stallOf n s (s.modeOff n { c' with run := .waiting wt, mode := 3 }))) ∧
          (∀ u : State, u = s.countRefusal 4 → p.live.getD t.id [] = [] → s.tallyOpen (coreIsland n) = true →
            exec (.wait n) s = .next (stallOf n u (u.setCore n { c' with run := .waiting wt, mode := 1 })))) ∧
        (c.minuetReq = true → exec (.wait n) s =
          .next ((((waitMode (s.tallyOpen (coreIsland n)) c' (bits w 48 46)).2.foldl State.countRefusal s).dropWaits n).setCore n c'.abandon)))) ∧
    (∀ n : CoreId, s.errs.halted = false → (s.core n).run = .woken →
      exec (.waitResume n) s = .next (stallOf n s ((s.modeUp n).advance n { s.core n with run := .running, mode := 0 }))) ∧
    (∀ (n : CoreId) (c : Core) (w : Nat) (t : TileOpen) (p : Program) (r : List Byte) (es : List SyncWait), Issues s n c w → opcodeOf w = 0x07 →
      reservedSet w 0xFF00FFFF00007FFF = false → c.tile = some t → t.inBody = false → c.prog = some p →
      64 * bits w 14 0 + 128 ≤ coreStoreBytes → s.corePoisoned n (64 * bits w 14 0) 128 = false → r = s.coreRead n (64 * bits w 14 0) 128 →
      waitSetOk r = true → (fldBits r 0 3 0 ≤ 1 ∨ bit p.features 0 = true) → (fld r 4 4 = 0 ∨ bit p.features 1 = true) →
      es = (List.range (fldBits r 0 3 0)).map (waitSetEntry r) → s.ownsSync c.owner.1 c.owner.2 (bits w 47 32) = true →
      (∀ e ∈ es, s.ownsSync c.owner.1 c.owner.2 e.sync = true) →
      exec (.waitset n) s = .next ((s.setCluster (n.val / 8) { s.cluster (n.val / 8) with
        waitSets := (s.cluster (n.val / 8)).waitSets ++ [{
          core := n, part := c.owner.1, gen := c.owner.2, proxy := bits w 47 32, entries := es, timeout := fld r 4 4,
          met := es.any s.waitHolds }] }).advance n
        { c with tile := some { t with proxies := t.proxies ++ [bits w 47 32] } })) ∧
    (∀ (k : ClusterId) (ix : Nat) (ws : WaitSet), s.errs.halted = false → (s.cluster k).waitSets[ix]? = some ws →
      (ws.met = true → exec (.waitsetProxySignal k ix) s =
        .next ((s.setCluster k { s.cluster k with waitSets := (s.cluster k).waitSets.eraseIdx ix }).signal ws.proxy 1 ws.part ws.gen)) ∧
      (ws.met = false → ws.timeout ≠ 0 → exec (.waitsetTimeout k ix) s = .next (s.stallAll (s.abortTile ws.core .syncTimeout))))

/-- A tile abort leaves the core stopped with the status, without an open tile, with an empty commit queue and clear flags; no signal is
released, no move is released, nothing is written to the host, every other core and every byte outside what the body wrote in its core
store stand. (R191, R80, R169, R125) -/
def Obligations.AbortLeavesTheOutsideAlone : Prop :=
  ∀ (s : State) (n : Nat) (st : Status),
    ((s.abortTile n st).core n).run = .stopped st ∧ ((s.abortTile n st).core n).tile = none ∧
    ((s.abortTile n st).core n).commitQ = [] ∧ ((s.abortTile n st).core n).accSat = false ∧
    ((s.abortTile n st).core n).accNonfin = false ∧
    (∀ m, m ≠ n → (s.abortTile n st).core m = s.core m) ∧
    SameBeyondCompute (s.noteStop n st) (s.abortTile n st) ∧
    (∃ x, s.noteStop n st = { s with work := { s.work with ctxs := x } }) ∧
    (∀ k, (∀ w, (s.core n).work = some w → k ≠ w.ctx) → (s.noteStop n st).ctx k = s.ctx k) ∧
    (∀ k, ((s.abortTile n st).cluster k).released = (s.cluster k).released ∧ ((s.abortTile n st).cluster k).moves = (s.cluster k).moves) ∧
    (s.abortTile n st).poison = s.poison ∧
    (∀ a, (∀ r ∈ (s.core n).wrote, a < coreBase n + r.1 ∨ coreBase n + r.1 + r.2 ≤ a) →
      Memory.read (s.abortTile n st).undef (s.abortTile n st).dmem a = Memory.read s.undef s.dmem a)

/-- Completes: MMA (R82, R134, R173), DRAIN (R149, R156), REQUANT (R154). With sound operand descriptors, an allowed type pair, indices in
range and operands readable and in step, MMA writes the instance's values and marks its slots with their type. With a sound C-form
destination, matching slot types and rows in range, DRAIN writes the accumulator words and REQUANT the requantised values, noting ACC_SAT
when a value clamped. (R82, R134, R149, R154, R156, R173, R778, R789, spec/02_engines_cores_clusters.md,
spec/03_number_formats_and_arithmetic.md) -/
def Obligations.ShapeInstructions : Prop :=
  ∀ (s : State) (n : CoreId) (c : Core) (w dm dn dk ne e0 : Nat), Issues s n c w → c.bodyReady s.pwr.ledger.hold = true →
    shapeDims (bits w 55 52) = some (dm, dn, dk, ne) →
    (∀ (ta tb : TDesc) (isInt : Bool) (x : MmaArgs), opcodeOf w = 0x10 → reservedSet w 0xFFFFFFFFFFFF8000 = false →
      firstEngine (bits w 55 52) (bits w 51 50) (bits w 20 15) (bits w 20 15) true = some e0 →
      ta = parseTDesc (c.tdreg (bits w 49 46)) → tb = parseTDesc (c.tdreg (bits w 45 42)) → ta.ok = true → tb.ok = true →
      ta.form = 0 → tb.form = 1 → ta.space = 0 → tb.space = 0 → (bit w 36 = true → c.compat = true) →
      (c.compat = true → compatType ta.type = true ∧ compatType tb.type = true) → pairKind ta.type tb.type = some isInt →
      x = { shape := bits w 55 52, e0 := e0, slot := bits w 41 38, zero := bit w 37, trans := bit w 36, ta := ta, tb := tb,
            m0 := (c.sreg (bits w 35 31)).toNat, n0 := (c.sreg (bits w 30 26)).toNat, k0 := (c.sreg (bits w 25 21)).toNat,
            dimM := dm, dimN := dn, dimK := dk * (kPerStep ta.type tb.type / 4), kp := kPerStep ta.type tb.type, base := coreBase n } →
      x.m0 % 4 = 0 → x.n0 % 4 = 0 → x.k0 % 4 = 0 → x.m0 + dm ≤ ta.dimOut → x.k0 + x.dimK ≤ ta.dimIn →
      x.n0 + dn ≤ (if bit w 36 then tb.dimIn else tb.dimOut) → x.k0 + x.dimK ≤ (if bit w 36 then tb.dimOut else tb.dimIn) →
      (isCodeType tb.type = true → x.k0 / 64 = (x.k0 + x.dimK - 1) / 64 ∧ x.n0 / tb.span = (x.n0 + dn - 1) / tb.span) →
      s.coreRangesErr n (x.rangesA ++ x.rangesB) = none → x.tagsOk s = true →
      exec (.mma n) s = .next (s.advance n (c.entered.putResults isInt x.slot (cEngines (bits w 55 52) e0 dm dn) (x.results s c.entered isInt)))) ∧
    (∀ (d : TDesc) (m0 n0 : Nat), opcodeOf w = 0x11 → reservedSet w 0xFFFFC3CFFC1F8000 = false →
      firstEngine (bits w 55 52) (bits w 51 50) (bits w 20 15) (bits w 20 15) true = some e0 →
      d = parseTDesc (c.tdreg (bits w 49 46)) → d.ok = true → d.form = 2 → d.space = 0 → (d.type = 0x12 ∨ d.type = 0x13) →
      (∀ e ∈ cEngines (bits w 55 52) e0 dm dn, Tbl.get false c.accFp (e * 16 + bits w 41 38) = (d.type == 0x12)) →
      m0 = (c.sreg (bits w 35 31)).toNat → n0 = (c.sreg (bits w 30 26)).toNat → m0 % 4 = 0 → n0 % 4 = 0 →
      m0 + dm ≤ d.dimOut → n0 + dn ≤ d.dimIn → (∀ r ∈ outRanges d m0 dm n0 dn, r.1 + r.2 ≤ coreStoreBytes) →
      exec (.drain n) s = .next ((writeCells n d m0 n0 (cellsOf dm dn)
        (fun m j => (c.entered.accWord (cKey (bits w 55 52) e0 (bits w 41 38) dn m j)).toNat) s).advance n
          (c.entered.note (outRanges d m0 dm n0 dn)))) ∧
    (∀ (d : TDesc) (m0 n0 rec0 : Nat) (zp : Int), opcodeOf w = 0x12 → reservedSet w 0xFFFFFFCFFFFFFCFF = false →
      firstEngine (bits w 55 52) (bits w 51 50) (16 * bits w 51 50 + bits w 45 42) (bits w 45 42) false = some e0 →
      d = parseTDesc (c.tdreg (bits w 49 46)) → d.ok = true → d.form = 2 → d.space = 0 → (isIntType d.type = true ∨ d.type = 0x13) →
      (∀ e ∈ cEngines (bits w 55 52) e0 dm dn, Tbl.get false c.accFp (e * 16 + bits w 41 38) = false) →
      zp = (if d.type = 2 then (bits w 7 0 : Int) else sext 8 (bits w 7 0)) → (requantRange d.type).1 ≤ zp → zp ≤ (requantRange d.type).2 →
      m0 = (c.sreg (bits w 35 31)).toNat → n0 = (c.sreg (bits w 30 26)).toNat → m0 % 4 = 0 → n0 % 4 = 0 →
      m0 + dm ≤ d.dimOut → n0 + dn ≤ d.dimIn → rec0 = 16 * bits w 25 10 → s.coreRangesErr n [(rec0, 16 * dn)] = none →
      (∀ r ∈ outRanges d m0 dm n0 dn, r.1 + r.2 ≤ coreStoreBytes) →
      let cell := fun m j => requantCell (s.coreRead n (rec0 + 16 * j) 16)
        (c.entered.accWord (cKey (bits w 55 52) e0 (bits w 41 38) dn m j)) zp (requantRange d.type).1 (requantRange d.type).2
      exec (.requant n) s = .next ((writeCells n d m0 n0 (cellsOf dm dn) (fun m j => wrap d.info.bits (cell m j).1) s).advance n
        ((c.entered.addFlags ((cellsOf dm dn).any (fun p => (cell p.1 p.2).2)) false).note (outRanges d m0 dm n0 dn))))

/-- For every shape, whatever the order of the steps: when no addition into the slot clamps, the slot ends with the value it began with
plus the sum over all K of the exact products. (R137, R138, spec/03_number_formats_and_arithmetic.md) -/
def Obligations.IntegerCellIsExact : Prop :=
  ∀ (s : State) (x : MmaArgs) (m n : Nat) (old : Int), 0 < x.kp → x.dimK % x.kp = 0 →
    (x.intCell s m n old).2 = false →
    (x.intCell s m n old).1 = old + (rangeFrom x.k0 x.dimK).foldl (fun acc k => acc + x.intTerm s (x.m0 + m) (x.n0 + n) k) 0

/-- One addition of p into a slot gives clamp(slot + p, −2^31, 2^31 − 1), clamping exactly when the sum lies outside; an instance that
adds step by step takes each step from what the one before left, so its value never leaves the range. (R139) -/
def Obligations.AccumulatorsSaturate : Prop :=
  (∀ x : Int, (sat32 x).1 = max (-(2 ^ 31)) (min x (2 ^ 31 - 1)) ∧ ((sat32 x).2 = true ↔ x < -(2 ^ 31) ∨ 2 ^ 31 - 1 < x)) ∧
  (∀ (s : State) (x : MmaArgs) (m n : Nat) (old : Int), -(2 ^ 31) ≤ old → old ≤ 2 ^ 31 - 1 →
    -(2 ^ 31) ≤ (x.intCell s m n old).1 ∧ (x.intCell s m n old).1 ≤ 2 ^ 31 - 1) ∧
  (∀ (s : State) (x : MmaArgs) (m n : Nat) (old : Int), x.shape = 2 ∨ x.shape = 4 →
    (x.intCell s m n old).1 = max (-(2 ^ 31)) (min (old + ((List.range x.steps).map (x.intStep s m n)).foldl (· + ·) 0) (2 ^ 31 - 1))) ∧
  (∀ (s : State) (x : MmaArgs) (m n : Nat) (old : Int), x.shape ≠ 2 → x.shape ≠ 4 →
    (x.intCell s m n old).1 = ((List.range x.steps).map (x.intStep s m n)).foldl (fun v p => max (-(2 ^ 31)) (min (v + p) (2 ^ 31 - 1))) old)

/-- An MMA whose descriptors are sound, in compatibility mode with an operand of another type, or outside it with the transposed-B flag,
fails its tile before commit with E_MODE_CONFLICT. (R104, R105) -/
def Obligations.CompatibilityModeTypes : Prop :=
  ∀ (s : State) (n : CoreId) (c : Core) (w dm dn dk ne e0 : Nat) (ta tb : TDesc), Issues s n c w → c.bodyReady s.pwr.ledger.hold = true →
    opcodeOf w = 0x10 → reservedSet w 0xFFFFFFFFFFFF8000 = false → shapeDims (bits w 55 52) = some (dm, dn, dk, ne) →
    firstEngine (bits w 55 52) (bits w 51 50) (bits w 20 15) (bits w 20 15) true = some e0 →
    ta = parseTDesc (c.tdreg (bits w 49 46)) → tb = parseTDesc (c.tdreg (bits w 45 42)) → ta.ok = true → tb.ok = true →
    ta.form = 0 → tb.form = 1 → ta.space = 0 → tb.space = 0 →
    (bit w 36 = true → c.compat = false → exec (.mma n) s = .next (s.abortTile n .eModeConflict)) ∧
    (c.compat = true → (ta.type ∉ [1, 2, 0x10, 0x11] ∨ tb.type ∉ [1, 2, 0x10, 0x11]) →
      exec (.mma n) s = .next (s.abortTile n .eModeConflict))

/-- Completes: VOP (R783). With a legal encoding and an operand a that can be read, VOP writes the function's lanes to v-d, the scale
record of an MX conversion to v-c, notes ACC_SAT for a conversion that saturated, and moves on. (R74, R783, R140) -/
def Obligations.VectorOperation : Prop :=
  ∀ (s : State) (n : CoreId) (c : Core) (w : Nat) (a vd : List Word) (sc : Option (Word × Word)) (sat : Bool), Issues s n c w →
    c.bodyReady s.pwr.ledger.hold = true → opcodeOf w = 0x20 → vopIllegal w = false → vopA n c.entered w s = .ok a →
    vopResult c.entered w a = (vd, sc, sat) →
    exec (.vop n) s = .next (s.advance n (((c.entered.setLanes (bits w 47 45) vd).putScales (bits w 38 36) sc).addFlags sat false))

/-- Completes: UNDEFINED_INSTRUCTION_ENCODING (R80), TILE_WATCHDOG_EXPIRY (R193), LINK_PARITY_FAILURE (R93, R94). A word whose opcode,
shape or function is not defined stops issue with E_SEQ_ILLEGAL. A body that reaches the watchdog aborts with E_TILE_OVERRUN. A parity
failure in an open tile puts the engine into freeze mode, counts the failure on its link and schedules a core reset; where the resent
entry fails too, the tile aborts with E_LINK_PARITY. (R80, R91, R93, R94, R193, spec/02_engines_cores_clusters.md) -/
def Obligations.CoreStops : Prop :=
  ∀ (s : State) (n : CoreId) (c : Core),
    (∀ w, Issues s n c w → encodingUndefined w = true → exec (.undefinedInstructionEncoding n) s = .next (s.abortTile n .eSeqIllegal)) ∧
    (∀ t, s.core n = c → s.issuing n = true → c.tile = some t → t.inBody = true →
      exec (.tileWatchdogExpiry n) s = .next (s.abortTile n .eTileOverrun)) ∧
    (∀ (engine : Fin 64) (link : Fin 12) (again : Bool), s.core n = c → s.errs.halted = false → c.tile ≠ none →
      ∃ t, exec (.linkParityFailure n engine link again) s = .next t ∧ Tbl.get false (t.core n).freeze engine = true ∧
        Tbl.get 0 (t.core n).parity (16 * engine.val + link.val) = Tbl.get 0 c.parity (16 * engine.val + link.val) + 1 ∧
        (t.core n).resetDue = true ∧ (again = true → (t.core n).run = .stopped .eLinkParity) ∧
        (again = false → (t.core n).run = c.run ∧ (t.core n).tile = c.tile))

/-- Completes: CORE_RESET (R98, R99). At a tile boundary of a core without live work and without an open Minuet request the reset leaves
no register, lane, accumulator, loop, queue entry or frozen engine, no swap waiting, and every byte of device memory and its poison as
they were. (R98, R99, R71, R65, R128) -/
def Obligations.CoreResetLeavesStore : Prop :=
  ∀ (s : State) (n : CoreId), s.errs.halted = false → (s.core n).quiet = true → (s.core n).tile = none → (s.core n).minuetReq = false →
    ∃ t, exec (.coreReset n) s = .next t ∧ SameMemory s t ∧ (t.core n).compat = (s.core n).compat ∧ (t.core n).run = (s.core n).run ∧
      (∀ r, (t.core n).sreg r = 0 ∧ (t.core n).areg r = 0) ∧ (∀ k, (t.core n).accWord k = 0) ∧ (∀ v l, (t.core n).lane v l = 0) ∧
      (t.core n).freeze = [] ∧ (t.core n).loops = [] ∧ (t.core n).commitQ = [] ∧ (t.core n).swapDue = [] ∧ (t.core n).resetDue = false

/-- Completes: MOVE_DESCRIPTOR_ACCEPT (R181), MOVE_COMPLETE (R119), STEM_DESCRIPTOR (R232), STEM_COMPLETE (R235). The first released move
whose signal object and layout pass goes to the lowest free slot with PARTITION, GENERATION and weight slot stamped in; where it meets an
open repair or retrain a condition of R361 fails. A move that no slice and no retraining link holds ends: with OK it signals its object
after its writes (of a stream, its segment goes on); one that fails signals no object but a reserve object of the firmware. A stem
descriptor that passes its checks is queued with H_OUT and W_OUT written into its record; with a zero dimension it completes with OK_EMPTY
and signals. The running one's output is written and its object signalled; over poison it fails with E_MEM_POISON. Stall intervals follow
(R325). (R114, R119, R123, R181, R215, R217, R232, R234, R235, R780, R325) -/
def Obligations.MoverAndStemCommands : Prop :=
  ∀ (s : State) (k : ClusterId), s.errs.halted = false →
    (∀ (m : MoveSlot) (rest : List MoveSlot) (slot : Nat), (s.cluster k).released = m :: rest → s.freeSlot k = some slot →
      ((parseMove m.raw).add = 0 ∨ s.ownsSync m.part m.gen (parseMove m.raw).sync = true) → (parseMove m.raw).err = none →
      ∀ (m' : MoveSlot) (t : State), m' = { m with
          slot := slot, weightSlot := m.part, raw := putBytes m.raw 0x38 (toLE 2 m.part ++ toLE 2 m.gen ++ toLE 1 m.part) } →
        t = s.setCluster k { s.cluster k with released := rest, moves := (s.cluster k).moves ++ [m'] } →
      exec (.moveDescriptorAccept k) s = .next (s.stallUpdate m.part (if t.troubled m.part m' then t.wcetVoid 2 m.part else t))) ∧
    (∀ (slot : Nat) (host : HostRead) (m : MoveSlot) (part : Part) (s1 s2 : State) (st : Status),
      (s.cluster k).moves.find? (fun x => x.slot == slot) = some m → s.part m.part = some part →
      s.moveHeld m.part m.gen k (parseMove m.raw) host = false →
      ((parseMove m.raw).src.space = 2 → (s.link (s.linkOf part.fn)).retraining = false) →
      s1 = s.setCluster k { s.cluster k with moves := (s.cluster k).moves.filter (fun x => !(x.slot == slot)) } →
      (∀ core tileId, m.owner = .program core tileId →
        s1.runMove part (some m.ctx) m.part m.gen k (parseMove m.raw) host = (s2, st) →
        (st = .ok → exec (.moveComplete k slot host) s =
          .next (s.stallUpdate m.part (s2.signal (parseMove m.raw).sync (parseMove m.raw).add m.part m.gen))) ∧
        (st ≠ .ok → exec (.moveComplete k slot host) s = .next (s.stallUpdate m.part (s2.failMove k m st)))) ∧
      (∀ p seg, m.owner = .stream p seg → s1.runMove part none m.part m.gen k (parseMove m.raw) host = (s2, st) →
        (st = .ok → exec (.moveComplete k slot host) s = .next (s.stallUpdate m.part
          ((s2.signal (parseMove m.raw).sync (parseMove m.raw).add m.part m.gen).streamMoveDone k p seg))) ∧
        (st ≠ .ok → exec (.moveComplete k slot host) s = .next (s.stallUpdate m.part (s2.failMove k m st)))) ∧
      (st ≠ .ok → ∀ core tileId, m.owner = .program core tileId → (s2.failMove k m st).cpu.sync = s2.cpu.sync) ∧
      (st ≠ .ok → ∀ x ∈ (s2.failMove k m st).cpu.sync.flight, x ∈ s2.cpu.sync.flight ∨ x.part = 64)) ∧
    (∀ (ctx : CtxId) (idx : U32) (raw r : List Byte) (d : Desc) (n : Nat) (w : CoreWork) (part : Part), s.desc ctx idx = some d →
      (s.descCores ctx idx).find? (fun n => n / 8 == k.val) = some n → (s.core n).work = some w → s.part w.part = some part →
      r = putBytes (slice raw 0 64) 0x14 (toLE 2 w.part ++ toLE 2 w.gen) → s.stemErr k w.part w.gen part r = none →
      ∀ (u : State) (r' : List Byte), u = s.keepGeoms k [stemGeom r] → r' = putBytes r 0x20 (geomFilled (stemGeom r)) →
      ((geomOut (stemGeom r)).1 ≠ 0 ∧ (geomOut (stemGeom r)).2 ≠ 0 →
        exec (.stemDescriptor k ctx idx raw) s = .next (u.setCluster k (({ u.cluster k with
          stemQueue := (u.cluster k).stemQueue ++ [{ raw := r', part := w.part, gen := w.gen, ctx := ctx, idx := idx }] } : Cluster).grant
            s.pwr.ledger.hold))) ∧
      ((geomOut (stemGeom r)).1 = 0 ∨ (geomOut (stemGeom r)).2 = 0 →
        exec (.stemDescriptor k ctx idx raw) s = .next (u.emptyStem ctx idx w.part w.gen r'))) ∧
    (∀ (j : StemJob) (s1 u : State), (s.cluster k).stemRun = some j →
      s1 = s.setCluster k (({ s.cluster k with stemRun := none } : Cluster).grant s.pwr.ledger.hold) →
      ((s1.poisoned (stemSrc k j.raw) (stemSizes j.raw).1 = true ∨ s1.poisoned (stemWeights k j.raw) (stemSizes j.raw).2.1 = true) →
        exec (.stemComplete k) s = .next (s1.failStem k j.ctx j.idx .eMemPoison)) ∧
      (s1.poisoned (stemSrc k j.raw) (stemSizes j.raw).1 = false → s1.poisoned (stemWeights k j.raw) (stemSizes j.raw).2.1 = false →
        u = s1.writePieces (stemDst k j.raw) (stemOutput s1 k j.raw).1 →
        exec (.stemComplete k) s = .next ((({ u with draws := u.draws + 1 } : State).setDesc j.ctx j.idx
          (fun d => { d with accSat := d.accSat || (stemOutput s1 k j.raw).2 })).signal (fld j.raw 0x10 2) (fld j.raw 0x12 2) j.part j.gen)))

/-- Completes: PROGRAM_LOAD (R184), OVERLAY_LOAD (R211). With an image that can be read and passes its checks the core holds the program,
the controller keeps the geometry records with H_OUT and W_OUT written, and all cores of the descriptor begin when the last is loaded. A
failed geometry check ends the descriptor with E_WINDOW_GEOMETRY and nothing run (R215); a zero output dimension ends it with OK_EMPTY,
DETAIL0 holding that record's H_OUT and W_OUT (R217). A core of an overlay program whose position lies outside the loaded part takes the
overlay that holds it. What is read counts, and a held read (slice, retraining link) is no case of this. (R184, R106, R211, R215, R217,
R345, R786, spec/04_plarnatur_tile_contract.md) -/
def Obligations.ProgramsLoad : Prop :=
  ∀ (s : State) (n : CoreId) (host : HostRead) (w : CoreWork) (part : Part) (img : List Byte), s.errs.halted = false →
    (s.core n).work = some w → s.part w.part = some part →
    (∀ (d : Desc) (s1 u : State), (s.core n).run = .idle → s.desc w.ctx w.idx = some d →
      s.imageHeld part (bit (fld d.raw 0 4) 11) (fld d.raw 0x20 8) = false →
      u = s.imageReads part (bit (fld d.raw 0 4) 11) (fld d.raw 0x20 8) host →
      u.readImage part w.part w.gen (n.val / 8) (bit (fld d.raw 0 4) 11) (fld d.raw 0x20 8) host = .ok img →
      loadErr img part (bit (s.ctx w.ctx).cfg.toNat 30) = none →
      s1 = u.countImage w.ctx w.part (n.val / 8) (bit (fld d.raw 0 4) 11) (fld d.raw 0x20 8) img.length →
      (geomErr img = true → exec (.programLoad n host) s = .next (s1.endUnrun w.ctx w.idx .eWindowGeometry 0)) ∧
      (∀ g, geomErr img = false → (imageGeoms img).find? (fun g => (geomOut g).1 == 0 || (geomOut g).2 == 0) = some g →
        exec (.programLoad n host) s = .next ((s1.keepGeoms (n.val / 8) (imageGeoms img)).endUnrun w.ctx w.idx .okEmpty (geomDetail g))) ∧
      (geomErr img = false → (∀ g ∈ imageGeoms img, (geomOut g).1 ≠ 0 ∧ (geomOut g).2 ≠ 0) →
        exec (.programLoad n host) s = .next ((((s1.keepGeoms (n.val / 8) (imageGeoms img)).setCore n
          ((s.core n).load img (bit (fld d.raw 0 4) 11) (fld d.raw 0x20 8) (fld d.raw 0x28 6))).noteCompat n w.part).startIfLoaded w.ctx w.idx))) ∧
    (∀ (p : Program) (b : Nat) (u : State), (s.core n).prog = some p → s.issuing n = true → (s.core n).tile = none →
      (s.core n).wordAt (s.core n).pc = none → (s.core n).pc < p.codeWords → bit p.features 2 = true →
      s.imageHeld part p.iova p.imageBase = false → u = s.imageReads part p.iova p.imageBase host →
      u.readImage part w.part w.gen (n.val / 8) p.iova p.imageBase host = .ok img → b = overlayStart 65536 (imageCode img) 0 (s.core n).pc →
      exec (.overlayLoad n host) s = .next ((u.countImage w.ctx w.part (n.val / 8) p.iova p.imageBase img.length).setCore n { s.core n with
        prog := some { p with codeBase := b, words := imageCode img }, code := ((imageCode img).drop b).take (overlayLen ((imageCode img).drop b)) }))

/-- With no earlier reply owed, the reply to a request just taken is written to the reply ring's slot at the old tail, header first and
payload after it, the tail advances by one, nothing stays owed, and the request ring's head has advanced by one, its tail with it where
the ring was empty (log entry 184). (R715, R716, R713, spec/17_firmware_and_observability.md) -/
def Obligations.ReplyReachesItsRing : Prop :=
  ∀ (s : State) (f op tag detail : Nat) (st : Status) (payload : List Byte), (s.fn f).owed = [] →
    let t := (s.taken f op tag).reply f op tag st payload detail
    (t.fn f).repTail = (s.fn f).repTail + 1 ∧
    Tbl.find (t.fn f).repRing ((s.fn f).repTail.toNat % 512) = some (msgHeader op payload.length tag st.num f detail ++ payload) ∧
    (t.fn f).owed = [] ∧ (t.fn f).reqHead = (s.fn f).reqHead + 1 ∧ 
    (t.fn f).reqTail = (if (s.fn f).reqTail = (s.fn f).reqHead then (s.fn f).reqTail + 1 else (s.fn f).reqTail)

/-- Where written and owed replies fill the 512 slots nothing is taken. A request taken in the fatal halt that does not only read is
answered E_FATAL_HALT; without firmware E_FW_ABSENT, unless it is one answered early; one of a broken format E_MSG_FORMAT; one from a
function without the right E_SEC_DENIED. (R693, R616, R718, R715) -/
def Obligations.RequestsAreRefusedInOrder : Prop :=
  ∀ (s : State) (f op tag : Nat) (early readOnly ok : Bool) (who : Issuer) (k : State → State),
    (diff32 (s.fn f).repTail.toNat (s.fn f).repHead.toNat + (s.fn f).owed.length = 512 → s.request f op tag early readOnly who ok k = .next s) ∧
    (diff32 (s.fn f).repTail.toNat (s.fn f).repHead.toNat + (s.fn f).owed.length ≠ 512 →
      (s.errs.halted = true → readOnly = false →
        s.request f op tag early readOnly who ok k = .next ((s.taken f op tag).reply f op tag .eFatalHalt)) ∧
      (s.errs.halted = false ∨ readOnly = true →
        (s.pwr.fw.running = false → early = false →
          s.request f op tag early readOnly who ok k = .next ((s.taken f op tag).reply f op tag .eFwAbsent)) ∧
        (s.pwr.fw.running = true ∨ early = true →
          (ok = false → s.request f op tag early readOnly who ok k = .next ((s.taken f op tag).reply f op tag .eMsgFormat)) ∧
          (ok = true → who.allows f = false →
            s.request f op tag early readOnly who ok k = .next ((s.taken f op tag).reply f op tag .eSecDenied)))))

/-- Completes: SYNC_ALLOC, SYNC_FREE, SYNC_SET (R201), SYNC_SIGNAL_APPLY (R195). SYNC_ALLOC answers with the lowest free objects, now the
partition's with VALUE 0, or with E_SYNC_EXHAUSTED when fewer are free, allocating none. SYNC_FREE removes owned objects. More than the
240 numbers a payload holds are a wrong format (R714; the model's choice, log entry 202). SYNC_SET gives an owned object its value. A
released signal of the current generation adds its amount modulo 2^32 and counts as applied; one of an old generation, or to an object no
longer there, is dropped and counted. (R195, R198, R200, R201) -/
def Obligations.SyncObjectCommands : Prop :=
  ∀ (s : State),
    (∀ (f : FnId) (tag : U32), Served s f false false →
      (∀ (count : U32) (p : PartId), s.ownsPart f p = true →
        (count.val ≤ syncListMax → count.val ≤ s.freeSyncCount → exec (.syncAlloc f tag count p) s = .next (((s.taken f 0x20 tag).allocSyncs f p false
          (s.freeSyncs count)).reply f 0x20 tag .ok ((s.freeSyncs count).flatMap (toLE 2)))) ∧
        (count.val ≤ syncListMax → s.freeSyncCount < count.val →
          exec (.syncAlloc f tag count p) s = .next ((s.taken f 0x20 tag).reply f 0x20 tag .eSyncExhausted)) ∧
        (syncListMax < count.val → exec (.syncAlloc f tag count p) s = .next ((s.taken f 0x20 tag).reply f 0x20 tag .eMsgFormat))) ∧
      (∀ objs : List Nat, s.ownsSyncs f objs = true →
        (objs.length ≤ syncListMax → exec (.syncFree f tag objs) s = .next (((s.taken f 0x21 tag).setSync
          { s.cpu.sync with objs := objs.foldl (fun t i => Tbl.del t i) s.cpu.sync.objs }).reply f 0x21 tag .ok)) ∧
        (syncListMax < objs.length → exec (.syncFree f tag objs) s = .next ((s.taken f 0x21 tag).reply f 0x21 tag .eMsgFormat))) ∧
      (∀ (ix : U16) (value : U32) (o : SyncObj), s.syncObj ix = some o → o.fn = f.val → o.pf0 = false →
        exec (.syncSet f tag ix value) s = .next (((s.taken f 0x22 tag).resetSyncValue ix o (BitVec.ofNat 32 value)).reply f 0x22 tag .ok) ∧
        (s.resetSyncValue ix o (BitVec.ofNat 32 value)).syncValue ix = BitVec.ofNat 32 value)) ∧
    (∀ (ix : Nat) (g : Signal) (s1 : State), s.errs.halted = false → s.cpu.sync.flight[ix]? = some g →
      s1 = s.setSync { s.cpu.sync with flight := s.cpu.sync.flight.eraseIdx ix } →
      (∀ o, s.syncObj g.sync = some o → (g.part = 64 ∨ g.gen = s.gen g.part) → exec (.syncSignalApply ix) s =
        .next ((s1.setSync { s1.cpu.sync with applied := s1.cpu.sync.applied + 1 }).putSyncValue g.sync o (o.value + BitVec.ofNat 32 g.add))) ∧
      (s.syncObj g.sync = none ∨ (g.part ≠ 64 ∧ g.gen ≠ s.gen g.part) → exec (.syncSignalApply ix) s = .next (s1.dropSignal g.part)))

/-- After an object takes a value: the object holds it and every other object stands; a core that waits on the object is woken exactly
when the value meets its condition, and a core that waits on another object, or does not wait, stands; a watch of the object that the
value meets is marked met. (R198, R196, R195, R527, R785) -/
def Obligations.WaitersSeeEveryValue : Prop :=
  ∀ (s : State) (i : Nat) (o : SyncObj) (v : Word),
    (s.putSyncValue i o v).syncValue i = v ∧ (∀ j, j ≠ i → (s.putSyncValue i o v).syncObj j = s.syncObj j) ∧
    (∀ n w, (s.core n).run = .waiting w → w.sync = i → w.holds v = true → ((s.putSyncValue i o v).core n).run = .woken) ∧
    (∀ n w, (s.core n).run = .waiting w → w.sync ≠ i ∨ w.holds v = false → (s.putSyncValue i o v).core n = s.core n) ∧
    (∀ n, (∀ w, (s.core n).run ≠ .waiting w) → (s.putSyncValue i o v).core n = s.core n) ∧
    (∀ k, ((s.putSyncValue i o v).cluster k).waitSets = (s.cluster k).waitSets.map (fun w => w.see i v))

/-- Completes: POST_DESCRIPTOR_QUEUE (R243), POST_DESCRIPTOR_START (R244), POST_DESCRIPTOR_COMPLETE (R251). A handed descriptor that
passes R243 and names an owned object joins a queue of at most 32; one that fails R243 ends with E_POST_DESC, one whose object is not
owned with E_SYNC_OWNER. An idle engine takes the first queued descriptor of the next function in turn. Of the running one, when no slice
holds a request of it, the records are written behind the header, its object is signalled and its descriptor ended with its status; poison
in what it reads ends it with E_MEM_POISON. (R242, R243, R244, R251, R253, R780) -/
def Obligations.PostEngineCommands : Prop :=
  ∀ (s : State) (j : PostJob) (part : Part), s.errs.halted = false → s.part j.part = some part →
    (∀ js, s.cpu.post.handed = j :: js → s.cpu.post.queue.length < 32 →
      (postOk part j.raw = true → (fld j.raw 0x3E 2 = 0 ∨ s.ownsSync j.part j.gen (fld j.raw 0x3C 2) = true) →
        exec .postDescriptorQueue s = .next (s.setPost { s.cpu.post with handed := js, queue := s.cpu.post.queue ++ [j] })) ∧
      (postOk part j.raw = true → fld j.raw 0x3E 2 ≠ 0 → s.ownsSync j.part j.gen (fld j.raw 0x3C 2) = false →
        exec .postDescriptorQueue s = .next ((s.setPost { s.cpu.post with handed := js }).endPost j .eSyncOwner)) ∧
      (postOk part j.raw = false → exec .postDescriptorQueue s = .next ((s.setPost { s.cpu.post with handed := js }).endPost j .ePostDesc))) ∧
    (∀ f : Nat, s.cpu.post.run = none → s.pwr.ledger.hold = false → f < 32 → s.cpu.post.queue.find? (fun x => x.fn == f) = some j →
      (∀ i, i < (f + 31 - s.cpu.post.last % 32) % 32 → s.cpu.post.queue.find? (fun x => x.fn == (s.cpu.post.last + 1 + i) % 32) = none) →
      exec .postDescriptorStart s = .next (s.setPost { s.cpu.post with run := some j, queue := s.cpu.post.queue.erase j, last := f })) ∧
    (∀ s1 : State, s.cpu.post.run = some j → (∀ e ∈ postRanges j.raw, s.memHeld e.1 e.2 = false) → s1 = s.setPost { s.cpu.post with run := none } →
      (postRanges j.raw).findSome? (fun e => s1.stackedErr part j.part j.gen e.1 e.2) = none →
      (s.stale j.part j.gen = true ∨ ((postRanges j.raw).take 2).any (fun e => e.2 != 0 && s1.poisoned e.1 e.2) = true →
        exec .postDescriptorComplete s = .next (s1.endPost j .eMemPoison)) ∧
      (∀ (s2 s3 : State) (recs : List Byte), s.stale j.part j.gen = false →
        ((postRanges j.raw).take 2).any (fun e => e.2 != 0 && s1.poisoned e.1 e.2) = false →
        recs = (postRun s1 j.raw).kept.flatMap PostEntry.bytes →
        s2 = (((postRanges j.raw).take 2).foldl (fun s e => s.accountStacked (some j.ctx) j.part 2 false e.1 e.2) s1).accountStacked
          (some j.ctx) j.part 2 true (fld j.raw 8 8) (64 + recs.length) →
        s3 = (s2.writeMem (fld j.raw 8 8 + 64) recs).writeMem (fld j.raw 8 8) (postRun s1 j.raw).header →
        exec .postDescriptorComplete s = .next ((({ s3 with draws := s3.draws + 1 } : State).signal (fld j.raw 0x3C 2) (fld j.raw 0x3E 2)
          j.part j.gen).endPost j (postRun s1 j.raw).status)))

/-- Completes: SLICE_REQUEST (R298, R310), REFRESH_DUE (R302), STACK_TEMPERATURE_REPORT (R303), MEM_STALL_CLEAR_ALL, MEM_STALL_CLEAR_PART
(R739), GROUP_MODE (R738). A request of the current generation within granted pages writes its bytes, or reads them (with poison where a
line is or becomes poisoned: a line whose two re-reads failed becomes so, R313); an answer travels in TC0. One that its stack or row holds
waits at its slice, and fails a condition of R361 where it waits for a repair. One of an old generation writes nothing and reads poison. A
due refresh is issued, or postponed up to eight times with no swap or repair waiting; an issued one is a stall cause (R326). A temperature
report sets the stack's temperature, fails a condition of R361 at 95 °C, and the slices serve what need no longer wait. PF0 clears all
stall counters, a function its own partition's. PF0 changes the mode of a group without a granted page. (R297, R298, R301, R302, R303,
R307, R309, R310, R313, R328, R738, R739) -/
def Obligations.StackedMemoryCommands : Prop :=
  ∀ (s : State),
    (∀ (p : PartId) (gen : U16) (write : Bool) (a : Dpa) (n : Nat) (data : List Byte) (ecc : Fin 256), s.errs.halted = false → 0 < n →
      a.val % 256 + n ≤ 256 →
      (s.stale p gen = true → exec (.sliceRequest p gen write a n data ecc) s =
        .next ((s.countStale p write).emit (.granule (if write then .ok else .eMemPoison) [] (!write) 0))) ∧
      (∀ part, s.stale p gen = false → s.part p = some part → s.stackedErr part p gen a n = none →
        (s.granuleHeld a = true → exec (.sliceRequest p gen write a n data ecc) s = .next (({ s with mem := { s.mem with held := s.mem.held ++ [{
          part := p, gen := gen, write := write, addr := a, len := n, data := data, ecc := ecc, cls := if write then 1 else 2 }] } } : State).waitsOn
            p (s.repairing a))) ∧
        (∀ t : State, s.granuleHeld a = false → write = true →
          t = (if a.val % 64 = 0 ∧ n % 64 = 0 then s.accountStacked none p 2 true a n
            else (s.accountStacked none p 2 true a n).readLines p a n ecc) →
          exec (.sliceRequest p gen write a n data ecc) s = .next ((t.writeMem a (slice data 0 n)).emit (.granule .ok [] false 0))) ∧
        (∀ t : State, s.granuleHeld a = false → write = false → t = (s.accountStacked none p 2 false a n).readLines p a n ecc →
          exec (.sliceRequest p gen write a n data ecc) s =
            .next (t.emit (.granule (if t.poisoned a n = true then .eMemPoison else .ok) (t.readMem a n) (t.poisoned a n) 0)) ∧
          (ecc.val = 0 → t = s.accountStacked none p 2 false a n) ∧ (∀ q, a.val / 64 ≤ q → 64 * q < a.val + n → lineEcc ecc (64 * q) = 3 → t.poisoned (64 * q) 64 = true)))) ∧
    (∀ (stack : StackId) (ch : Fin 32) (postpone : Bool), s.errs.halted = false → s.stackServes stack = true →
      (postpone = true → Tbl.get 0 s.mem.postponed (32 * stack.val + ch.val) < 8 → s.mem.repairOpen (32 * stack.val + ch.val) = false →
        exec (.refreshDue stack ch postpone) s = .next { s with mem := { s.mem with
          postponed := Tbl.set 0 s.mem.postponed (32 * stack.val + ch.val) (Tbl.get 0 s.mem.postponed (32 * stack.val + ch.val) + 1) } }) ∧
      (postpone = false ∨ 8 ≤ Tbl.get 0 s.mem.postponed (32 * stack.val + ch.val) ∨
          s.mem.repairOpen (32 * stack.val + ch.val) = true →
        exec (.refreshDue stack ch postpone) s = .next (({ s with mem := { s.mem with
          postponed := Tbl.set 0 s.mem.postponed (32 * stack.val + ch.val) 0 } } : State).noteRefresh (32 * stack.val + ch.val)))) ∧
    (∀ (stack : StackId) (temp : Int) (u : State), u = { s with mem := { s.mem with temp := Tbl.put s.mem.temp stack temp } } →
      Tbl.find u.mem.temp stack = some temp ∧ (∀ j, j ≠ stack.val → Tbl.find u.mem.temp j = Tbl.find s.mem.temp j) ∧
      (temp < 95 → exec (.stackTemperatureReport stack temp) s = .next (s.stallAll u.releaseHeld)) ∧
      (95 ≤ temp → exec (.stackTemperatureReport stack temp) s = .next (s.stallAll (u.wcetVoidAll 1).releaseHeld))) ∧
    (s.acts → exec (.memStallClearAll 0) s = .next { s with work := { s.work with stall := [] } }) ∧
    (∀ (f : FnId) (p : PartId), s.acts → (f = 0 ∨ s.holdsPart f p = true) → exec (.memStallClearPart f p) s = .next (s.clearStall p)) ∧
    (∀ (tag : U32) (g : Fin 16384) (sliced : Bool), Served s 0 false false → (∀ i, i < 4 → s.pageGranted (4 * g.val + i) = false) →
      exec (.groupMode 0 tag g sliced) s = .next (((s.taken 0 0x12 tag).setGroupMode g sliced).reply 0 0x12 tag .ok))

/-- A write to stacked memory that covers a whole poisoned line clears its poison and stores the bytes; one that does not cover it leaves
the line poisoned and every byte of it as it was. In a retired page or a failed pseudo-channel the line stays poisoned whatever is written
(R703). (R314) -/
def Obligations.PoisonedLineTakesWholeWritesOnly : Prop :=
  ∀ (s : State) (a q : Nat) (bs : List Byte), a + bs.length ≤ stackedEnd → 64 * q < stackedEnd → s.poisoned (64 * q) 64 = true →
    (s.deadHit (64 * q) 64 = false → s.retiredHit (64 * q) 64 = false →
      (a ≤ 64 * q → 64 * q + 64 ≤ a + bs.length →
        (s.writeMem a bs).poisoned (64 * q) 64 = false ∧
        (s.writeMem a bs).readMem (64 * q) 64 = (bs.drop (64 * q - a)).take 64) ∧
      (64 * q < a ∨ a + bs.length < 64 * q + 64 →
        (s.writeMem a bs).poisoned (64 * q) 64 = true ∧
        (s.writeMem a bs).readMem (64 * q) 64 = s.readMem (64 * q) 64)) ∧
    (s.deadHit (64 * q) 64 = true ∨ s.retiredHit (64 * q) 64 = true → (s.writeMem a bs).poisoned (64 * q) 64 = true)

/-- Every byte outside the range written reads as before, and poison is never added. Where no poison is held anywhere, each byte of the
range then reads the byte written. (R307, R310, R185, spec/07_memory_tiers.md) -/
def Obligations.StoreWritesOnlyItsBytes : Prop :=
  ∀ (s : State) (a : Nat) (bs : List Byte),
    (∀ x, x < a ∨ a + bs.length ≤ x →
      Memory.read (s.writeMem a bs).undef (s.writeMem a bs).dmem x = Memory.read s.undef s.dmem x) ∧
    (∀ x n, s.poisoned x n = false → (s.writeMem a bs).poisoned x n = false) ∧
    (s.poison = [] → (s.writeMem a bs).readMem a bs.length = bs)

/-- Completes: STREAM_REGISTER, STREAM_FILL_START (R321), STREAM_STOP, STREAM_STOP_AT_BOUNDARY (R324). A sound record (one whose granules
lie apart from a running stream's stops that stream: the model's choice, log entry 62) zeroes both sync objects and starts the fill of
segment 0, then of segment 1 where there is one. Segment n ≥ 2 starts when RELEASED_SYNC has reached (n − 1) · CONSUMERS; while the
cluster's domain is off no fill starts, and segments 0 and 1 wait for it (the model's choice, log entry 62). A stop request is noted, and
the stream stops once no fill is in flight, its granules undefined. A slice that holds the table makes both wait. Starting a fill leaves
the whole half undefined until it has ended (R322). Stall intervals follow (R325). (R318, R320, R321, R322, R324, R325) -/
def Obligations.WeightStreams : Prop :=
  ∀ (s : State) (f : FnId) (tag : U32) (p : PartId) (k : ClusterId),
    (∀ (raw r : List Byte) (part : Part) (w : WStream) (t u : State), Served s f false false → s.ownsPart f p = true → s.part p = some part →
      r = slice raw 0 32 → s.memHeld (fld raw 0 8) (16 * streamN raw) = false → s.streamErr part p k r = none →
      w = { raw := r, part := p, cluster := k, next := 0, filled := 0, tails := [], stopAsked := false, stopped := false } →
      t = s.taken f 0x41 tag →
      ((Tbl.find s.work.streams (16 * p.val + k.val) = none ∧ u = t) ∨
        (∃ v, Tbl.find s.work.streams (16 * p.val + k.val) = some v ∧ v.live = false ∧ u = t) ∨
        (∃ v, Tbl.find s.work.streams (16 * p.val + k.val) = some v ∧ v.live = true ∧ u = t.haltStream v)) →
      ∀ v : State, v = (u.zeroSync (streamFilled r)).zeroSync (streamReleased r) →
      (v.domainOn (clusterIsland k) = true →
        exec (.streamRegister f tag p k raw) s = .next ((t.stallAll ((v.startFill w).fillNext p k 1)).reply f 0x41 tag .ok)) ∧
      (v.domainOn (clusterIsland k) = false →
        exec (.streamRegister f tag p k raw) s = .next ((t.stallAll (v.setStream w)).reply f 0x41 tag .ok))) ∧
    (∀ w : WStream, s.errs.halted = false → Tbl.find s.work.streams (16 * p.val + k.val) = some w →
      (w.has w.next = true → w.stopAsked = false → w.stopped = false → s.domainOn (clusterIsland k) = true →
        (w.next < 2 ∨ s.waitHolds { sync := streamReleased w.raw, eq := false, target := BitVec.ofNat 32 ((w.next - 1) * streamConsumers w.raw) } = true) → s.memHeld w.nextEntry 16 = false →
        exec (.streamFillStart p k) s = .next (s.stallAll (s.startFill w))) ∧
      (Served s f false false → s.ownsPart f p = true →
        exec (.streamStop f tag p k) s = .next (((s.taken f 0x42 tag).setStream { w with stopAsked := true }).reply f 0x42 tag .ok)) ∧
      (w.stopAsked = true → w.stopped = false → w.filled = w.next → exec (.streamStopAtBoundary p k) s = .next (s.stallAll (s.haltStream w))))

/-- Completes: PART_CREATE (R337), PART_DESTROY (R556). The partition takes the lowest free identifier, with a yield object of its own and
four reserve objects of PF0, its elastic buffers placed (R209; the form of their declaration is the model's, log entry 160), its pages
granted, a mover slot per cluster set aside (log entry 159) and its counters cleared, and the reply names them and reports the buffers
placed below their first tier. A record that fails R336 is answered E_PART_CONFIG and one beyond the function's limits E_FN_LIMIT, with no
other effect than the answer; a payload longer than the 480 bytes of R714 has a wrong format. PART_DESTROY by the owner or PF0 begins the
Clearing. (R209, R334, R336, R337, R338, R556, R560, R566) -/
def Obligations.PartitionMessages : Prop :=
  ∀ (s : State) (f : FnId) (tag : U32), Served s f false false →
    (∀ raw : List Byte, 480 < raw.length → exec (.partCreate f tag raw) s = .next ((s.taken f 0x10 tag).reply f 0x10 tag .eMsgFormat)) ∧
    (∀ (raw r : List Byte), raw.length ≤ 480 → r = slice raw 0 128 → (f = 0 ∨ partFnField r = f.val) →
      (∀ (p y : Nat) (reserve : List Nat) (x : Part) (s1 t : State), s.partOk r = true →
        (s.fn (partFnField r)).bears (partOf r 0 0 [] :: s.held (partFnField r)) = true → s.freePart = some p →
        s.freeSyncs 5 = y :: reserve → x = partOf r p y reserve (placeAll (partOf r 0 0 []).room (elasticOf raw)) →
        s1 = (((s.taken f 0x10 tag).allocSyncs (partFnField r) p false [y]).allocSyncs 0 p true reserve).setPart p x →
        t = ((((List.range 16).foldl State.secureSlot (s1.grantPages p x)).clearStall p).clearAcct (0x8000 + 8 * p)).forgetMoved p →
        exec (.partCreate f tag raw) s = .next (t.reply f 0x10 tag .ok
          (createReply p (t.gen p) y reserve (placeReport (elasticOf raw) x.placed)))) ∧
      (s.partOk r = false → exec (.partCreate f tag raw) s = .next ((s.taken f 0x10 tag).reply f 0x10 tag .ePartConfig)) ∧
      (s.partOk r = true → (s.fn (partFnField r)).bears (partOf r 0 0 [] :: s.held (partFnField r)) = false →
        exec (.partCreate f tag raw) s = .next ((s.taken f 0x10 tag).reply f 0x10 tag .eFnLimit))) ∧
    (∀ (p : PartId) (x : Part), s.part p = some x → (f = 0 ∨ x.fn = f.val) → exec (.partDestroy f tag p) s =
      .next (((s.taken f 0x11 tag).triggerClearing p (if x.fn = f.val then 0 else 1)).reply f 0x11 tag .ok))

/-- Completes: CLEARING (R560). Where a Clearing has begun: its first passage raises the generation by one modulo 65,536, leaves no weight
key or binding of the partition, no active context of it with a descriptor, and its core stores, granules and pages read zero; with every
credit home the partition, its Clearing and its sync objects are gone, and with credits out it stays. Pages that no request can change yet
hold the scrub, and the partition stays (the model's choice, log entry 209). (R557, R558, R560, R561, R564, R670, R671) -/
def Obligations.ClearingRaisesGenerationAndFreesAll : Prop :=
  ∀ (s : State) (p : PartId) (home : Bool) (x : Part) (j : ClearingJob), s.errs.halted = false → s.part p = some x → s.job p = some j →
    j.step < 6 →
    (s.scrubWaits x = true → ∃ t, exec (.clearing p home) s = .next t ∧ t.gen p = (s.gen p + 1) % 65536 ∧ (t.part p).isSome = true) ∧
    (s.scrubWaits x = false → ∃ t, exec (.clearing p home) s = .next t ∧ t.gen p = (s.gen p + 1) % 65536 ∧
      Tbl.find t.trust.weightKeys p = none ∧ Tbl.find t.trust.bindings p = none ∧
      (∀ n, (s.ctx n).part = p.val → (s.ctx n).active = true → (t.ctx n).active = false ∧ (t.ctx n).descs = []) ∧
      (∀ k g a, k < 16 → g < 16 → x.ownsGranule k g = true → clusterBase k + g * 0x100000 ≤ a → a < clusterBase k + (g + 1) * 0x100000 →
        Memory.read t.undef t.dmem a = 0) ∧
      (∀ c a, c < 128 → x.ownsCore c = true → coreBase c ≤ a → a < coreBase c + coreStoreBytes → Memory.read t.undef t.dmem a = 0) ∧
      (∀ e ∈ x.extents, ∀ a, e.1 * 0x200000 ≤ a → a < (e.1 + e.2) * 0x200000 → Memory.read t.undef t.dmem a = 0) ∧
      (home = true → t.part p = none ∧ t.job p = none ∧ ∀ i o, t.syncObj i = some o → o.part ≠ p.val) ∧
      (home = false → (t.part p).isSome = true))

/-- Completes: CTX_ENABLE (R514, R515), CTX_DISABLE (R517), SQ_TAIL_DOORBELL, CQ_HEAD_DOORBELL (R530). A sound configuration enables an
inactive context with both rings empty and its counters cleared; a broken one leaves it disabled with CFG_ERR set. Disabling clears
ENABLE. An accepted SQ_TAIL is taken, with its place in the order of doorbells, and an accepted CQ_HEAD frees completion space; another
value, an inactive context and the SQ_TAIL of a STEP_CONTEXT (R533) set DB_BAD. A halted context keeps both for its restart, in their
order (R531). While the partition is cleared the doorbells of the contexts its Clearing has disabled are counted and not acted on (R560),
and on a link below its floor a doorbell is only counted (R500). (R500, R511, R514, R515, R516, R517, R530, R531, R533, R560) -/
def Obligations.ContextRegisters : Prop :=
  ∀ (s : State) (f : FnId) (n : CtxId), s.acts → s.ctxFn n = f.val →
    (∀ value : U32, (s.ctx n).enabled = false → bit value 31 = true → (s.ctx n).active = false → s.pwr.fw.running = true →
      (s.cfgOk n (value.val &&& cfgMask) = true → exec (.ctxEnable f n value) s = .next ((s.setCtx n { s.ctx n with
        cfg := BitVec.ofNat 32 (value.val &&& cfgMask), cfgErr := 0, active := true, halted := false, paused := false,
        dbBad := false, sqHead := 0, sqTail := 0, cqTail := 0, cqHead := 0, descs := [], seqReserved := 0, pending := 0,
        held := [], bells := [] }).clearAcct (8 * n.val))) ∧
      (s.cfgOk n (value.val &&& cfgMask) = false → exec (.ctxEnable f n value) s = .next (s.setCtx n { s.ctx n with
        cfg := BitVec.ofNat 32 ((value.val &&& cfgMask) % 2 ^ 31), cfgErr := Status.eCtxConfig.code }))) ∧
    ((s.ctx n).enabled = true → exec (.ctxDisable f n) s = .next ((s.setCtx n { s.ctx n with
      cfg := BitVec.ofNat 32 ((s.ctx n).cfg.toNat % 2 ^ 31) }).settleCtx n)) ∧
    (∀ v : U32, (s.link (s.linkOf f)).belowFloor = false →
      ((s.ctx n).active = false →
        exec (.sqTailDoorbell f n v) s = .next ((s.countBell n).setCtx n { s.ctx n with dbBad := true }) ∧
        exec (.cqHeadDoorbell f n v) s = .next ((s.countBell n).setCtx n { s.ctx n with dbBad := true })) ∧
      ((s.ctx n).active = true → s.isStepCtx n = true →
        exec (.sqTailDoorbell f n v) s = .next (s.setCtx n { s.ctx n with dbBad := true })) ∧
      ((s.ctx n).active = true → s.ctxClearing n = true →
        (s.isStepCtx n = false → exec (.sqTailDoorbell f n v) s = .next (s.countBell n)) ∧
        exec (.cqHeadDoorbell f n v) s = .next (s.countBell n)) ∧
      (∀ u : State, s.ctxClearing n = false → (s.ctx n).active = true →
        u = { s with work := { s.work with doorbells := s.work.doorbells + 1 } } →
        ((s.ctx n).halted = false →
          (s.isStepCtx n = false → diff32 v (s.ctx n).sqHead.toNat ≤ 2 ^ (s.ctx n).sqLog2 → 0 ≤ sdiff32 v (s.ctx n).sqTail.toNat →
            exec (.sqTailDoorbell f n v) s = .next (u.setCtx n { s.ctx n with
              sqTail := BitVec.ofNat 32 v, bells := (s.ctx n).bells ++ [(BitVec.ofNat 32 v, s.work.doorbells + 1)] })) ∧
          (s.isStepCtx n = false → 2 ^ (s.ctx n).sqLog2 < diff32 v (s.ctx n).sqHead.toNat ∨ sdiff32 v (s.ctx n).sqTail.toNat < 0 →
            exec (.sqTailDoorbell f n v) s = .next (u.setCtx n { s.ctx n with dbBad := true })) ∧
          (0 ≤ sdiff32 v (s.ctx n).cqHead.toNat → 0 ≤ sdiff32 (s.ctx n).cqTail.toNat v →
            exec (.cqHeadDoorbell f n v) s = .next (u.setCtx n { s.ctx n with cqHead := BitVec.ofNat 32 v })) ∧
          (sdiff32 v (s.ctx n).cqHead.toNat < 0 ∨ sdiff32 (s.ctx n).cqTail.toNat v < 0 →
            exec (.cqHeadDoorbell f n v) s = .next (u.setCtx n { s.ctx n with dbBad := true }))) ∧
        ((s.ctx n).halted = true →
          (s.isStepCtx n = false → exec (.sqTailDoorbell f n v) s = .next (u.setCtx n { s.ctx n with
            held := (s.ctx n).held ++ [{ head := false, value := BitVec.ofNat 32 v, order := s.work.doorbells + 1 }] })) ∧
          exec (.cqHeadDoorbell f n v) s = .next (u.setCtx n { s.ctx n with
            held := (s.ctx n).held ++ [{ head := true, value := BitVec.ofNat 32 v, order := s.work.doorbells + 1 }] })))) ∧
    (∀ (v : U32) (u : State), (s.link (s.linkOf f)).belowFloor = true → u = s.setLink (s.linkOf f) { s.link (s.linkOf f) with
        dbIgnored := satAdd (s.link (s.linkOf f)).dbIgnored 1 0xFFFF } →
      exec (.sqTailDoorbell f n v) s = .next u ∧ exec (.cqHeadDoorbell f n v) s = .next u)

/-- Completes: DESCRIPTOR_FETCH (R519), DESCRIPTOR_ARRIVE (R520), NOP (R525), COMPUTE (R786), COPY (R526), POST (R244),
IRQ_MODERATION_TIMER (R535), VECTOR_UNMASK (R536). A context with an unfetched descriptor and a free completion slot begins its next
fetch, from host memory with a read of 64 bytes in TC5; without a free slot it waits. A fetched descriptor that the host answers, or that
reads without poison from the partition's stacked memory, and that neither holds back, is taken in with its 64 bytes counted. NOP ends,
COMPUTE loads its cores, COPY, which finds a slot of its tile mover and is held by no slice and no retraining link, moves its bytes and
ends with the move's status, POST hands its post descriptor over. The moderation timer sends a context's pending message; unmasking a
vector sends the one held, if any. (R519, R520, R524, R525, R526, R343, R345, R786, R244, R535, R536) -/
def Obligations.DescriptorFetchAndWork : Prop :=
  ∀ (s : State) (n : CtxId), s.errs.halted = false →
    (∀ part, (s.ctx n).active = true → (s.ctx n).enabled = true → (s.ctx n).halted = false → s.part (s.ctx n).part = some part →
      part.clearing = false → s.pwr.fw.running = true → 1 ≤ diff32 (s.ctx n).sqTail.toNat (s.ctx n).fetchIdx →
      diff32 (s.ctx n).sqTail.toNat (s.ctx n).fetchIdx ≤ 2 ^ (s.ctx n).sqLog2 →
      (∀ (i : Nat) (u : State), (s.ctx n).cqFree = true → i = (s.ctx n).fetchIdx → u = s.setCtx n { s.ctx n with
          descs := (s.ctx n).descs ++ [Desc.fetch i ((s.ctx n).orderOf i)], bells := (s.ctx n).bellsPast i } →
        ((s.ctx n).sqDpa = true → exec (.descriptorFetch n) s = .next u) ∧
        ((s.ctx n).sqDpa = false → exec (.descriptorFetch n) s =
          .next (u.hostRead (s.ctxFn n) ((s.ctx n).sqBase + i % 2 ^ (s.ctx n).sqLog2 * 64) 64 5))) ∧
      ((s.ctx n).cqFree = false → exec (.descriptorFetch n) s = .next s)) ∧
    (∀ (d : Desc) (part : Part) (bs : List Byte), (s.ctx n).descs.find? (fun d => d.phase == .fetching) = some d →
      s.part (s.ctx n).part = some part →
      s.fetchHeld n ((s.ctx n).sqBase + d.idx % 2 ^ (s.ctx n).sqLog2 * 64) = false →
      ((s.ctx n).sqDpa = false →
        exec (.descriptorArrive n (.data bs)) s = .next ((s.account (some n) (s.ctx n).part 3 64).arrive n d part (slice bs 0 64))) ∧
      (∀ (host : HostRead) (a : Nat), (s.ctx n).sqDpa = true → a = (s.ctx n).sqBase + d.idx % 2 ^ (s.ctx n).sqLog2 * 64 →
        s.stackedErr part (s.ctx n).part (s.gen (s.ctx n).part) a 64 = none → s.poisoned a 64 = false →
        exec (.descriptorArrive n host) s = .next ((s.accountStacked (some n) (s.ctx n).part 2 false a 64).arrive n d part (s.readMem a 64)))) ∧
    (∀ (idx : U32) (d : Desc) (host : HostRead), s.desc n idx = some d → d.phase = .running →
      (fld d.raw 0 1 = 0 → exec (.nop n idx) s = .next (s.endDesc n idx .ok)) ∧
      (fld d.raw 0 1 = 1 → exec (.compute n idx host) s = .next ((s.descCores n idx).foldl (fun s m => s.loadCore m host) s)) ∧
      (∀ part, s.part (s.ctx n).part = some part →
        (fld d.raw 0 1 = 2 → s.copyWaits part d.raw = false → exec (.copy n idx host) s =
          .next ((s.runCopy n part d.raw host).1.endDesc n idx (s.runCopy n part d.raw host).2)) ∧
        (∀ s1 : State, fld d.raw 0 1 = 4 →
          (s.cpu.post.handed ++ s.cpu.post.queue ++ s.cpu.post.run.toList).any (fun j => j.ctx == n.val && j.idx == idx.val) = false →
          s.memHeld (fld d.raw 0x20 8) 64 = false → s.stackedErr part (s.ctx n).part (s.gen (s.ctx n).part) (fld d.raw 0x20 8) 64 = none → s.poisoned (fld d.raw 0x20 8) 64 = false →
          s1 = s.accountStacked (some n) (s.ctx n).part 2 false (fld d.raw 0x20 8) 64 →
          exec (.post n idx) s = .next (s1.setPost { s1.cpu.post with handed := s1.cpu.post.handed ++ [{
            raw := s1.readMem (fld d.raw 0x20 8) 64, fn := part.fn, part := (s.ctx n).part, gen := s.gen (s.ctx n).part, ctx := n, idx := idx }] })))) ∧
    (0 < (s.ctx n).pending → bits (s.ctx n).mod.toNat 25 16 ≠ 0 → exec (.irqModerationTimer n) s = .next (s.sendMsg (s.ctxFn n) (s.ctx n).entry)) ∧
    (∀ (f : FnId) (v : Fin 2048) (u : State), s.pwr.aon = true → Tbl.get true (s.fn f).masked v = true → u = s.setFn f { s.fn f with
        masked := Tbl.set true (s.fn f).masked v false, pba := Tbl.set false (s.fn f).pba v false } →
      (Tbl.get false (s.fn f).pba v = true → exec (.vectorUnmask f v) s = .next (u.sendMsg f v)) ∧
      (Tbl.get false (s.fn f).pba v = false → exec (.vectorUnmask f v) s = .next u))

/-- Completes: DESCRIPTOR_DISPATCH (R343, R344), DESCRIPTOR_COMPLETE (R528), PARTITION_FAULT_HANDLING (R356). The chosen descriptor,
REAL_TIME before NORMAL, is tested by the ledger when it is queued; admitted and with its wait and cores ready it starts and holds its
cores; one that names a retired core fails, and a NORMAL one that ends so or at the ledger uses its context's turn (R344). A descriptor
that has ended gets its record with its status; a compute descriptor whose every core has ended gets the status its flags give, or
OK_EMPTY (R217). A failed one first lets each core finish its tile; then it stops its cores, is due with its first E_ status and halts its
context. (R168, R217, R343, R344, R345, R346, R356, R517, R527, R528, R592, R703) -/
def Obligations.DescriptorsStartEndAndFail : Prop :=
  ∀ (s : State), s.errs.halted = false →
    (∀ (p : PartId) (part : Part) (n : Nat) (d : Desc) (l : List (Nat × Desc)), s.part p = some part → part.clearing = false →
      s.pwr.fw.running = true → ((s.pick (s.rtCandidates p) [] = some (n, d) ∧ l = s.rtCandidates p) ∨
        (s.pick (s.rtCandidates p) [] = none ∧ s.pick (s.normalCandidates p) [] = some (n, d) ∧ l = s.normalCandidates p)) →
      ∀ turn : State, turn = (if (s.ctx n).realtime then s else s.takeTurn p n) →
      (s.namesRetired d.raw = true → exec (.descriptorDispatch p) s = .next ((turn.closeReservation n d.idx).endDesc n d.idx .eCoreRetired)) ∧
      (s.namesRetired d.raw = false → s.desc n d.idx = some d → d.phase = .admitted → s.startable d (blockedBefore l n) = true →
        exec (.descriptorDispatch p) s = .next (s.startDesc n d)) ∧
      (∀ (s1 : State) (d' : Desc), s.namesRetired d.raw = false → d.phase = .queued → s1 = s.ledgerTest n d.idx → s1.desc n d.idx = some d' →
        (s1.startable d' (blockedBefore l n) = true → exec (.descriptorDispatch p) s = .next (s1.startDesc n d')) ∧
        (s1.startable d' (blockedBefore l n) = false →
          (d'.phase ≠ .ended → exec (.descriptorDispatch p) s = .next s1) ∧
          (d'.phase = .ended → exec (.descriptorDispatch p) s = .next (turn.ledgerTest n d.idx))))) ∧
    (∀ (n : CtxId) (idx : U32) (energy : Nat) (d : Desc) (st : Status), s.desc n idx = some d →
      (d.phase = .ended → exec (.descriptorComplete n idx energy) s = .next (s.finishDesc n d d.status energy).checkPending) ∧
      (d.phase ≠ .ended → s.computeDone n d = true →
        st = (if d.accNonfin = true then .okAccNonfinite else if d.accSat = true then .okAccSat
          else if d.status = .okEmpty then .okEmpty else .ok) →
        exec (.descriptorComplete n idx energy) s =
          .next (s.finishDesc n { d with detail0 := if st = .okEmpty then d.detail0 else 0 } st energy).checkPending)) ∧
    (∀ (n : CtxId) (idx : U32) (d : Desc) (st : Status) (detail : Nat), s.desc n idx = some d → d.phase = .running →
      s.faultCause n d = some (st, detail) →
      ((∃ m ∈ s.descCores n idx, (s.core m).midTile = true ∧ s.heldAtBody m = false) → exec (.partitionFaultHandling n idx) s =
        .next ((s.descCores n idx).foldl (fun s m => s.setCore m { s.core m with stopReq := true }) s)) ∧
      ((∀ m ∈ s.descCores n idx, (s.core m).midTile = true → s.heldAtBody m = true) →
        ∃ t, exec (.partitionFaultHandling n idx) s = .next t ∧ (t.ctx n).halted = true ∧
          (∀ d', t.desc n idx = some d' → d'.phase = .ended ∧ d'.status = st ∧ d'.detail0 = detail) ∧ (t.desc n idx).isSome = true))

/-- Completes: MINUET_REQUEST (R347, R352), MINUET_SAVE (R349), MINUET_RESTORE (R354), CTX_PAUSE (R347), CTX_RESTART (R531). A request to
a core that runs NORMAL work and that a REAL_TIME descriptor needs, whose context is paused, or whose swap is due, is noted; a core that
waits in a preamble goes back to its TILE. At a TILE the registers and the clean live ranges are saved, with their padding marks (log
entry 32), the core yields and the yield object is signalled; an ended program yields without a save, its core then free (R343, R353). A
restore loads the program and registers again and goes on at the resume TILE. Pause and restart change the context's flags, and a restart
acts on the doorbells held meanwhile, in their order. (A core whose save slot is held is not asked: the model's choice, log entry 156.)
(R338, R347, R349, R352, R353, R354, R358, R531, R594, R633) -/
def Obligations.MinuetCommands : Prop :=
  ∀ (s : State) (n : CoreId),
    (∀ (w : CoreWork) (p : Part) (migrate : Bool), s.errs.halted = false → (s.core n).minuetReq = false → (s.core n).resume = none →
      (s.core n).work = some w → s.part w.part = some p → p.save64k ≠ 0 → p.clearing = false → (s.ctx w.ctx).realtime = false →
      ((migrate = true ∧ (Tbl.find s.errs.coreDue n).isSome = true) ∨ (s.ctx w.ctx).paused = true ∨ s.rtNeeds w.part n = true) →
      (s.core n).run ≠ .idle → (s.core n).run ≠ .loaded →
      ((s.core n).atWait = false → s.heldAtBody n = false → exec (.minuetRequest n migrate) s =
        .next (s.setCore n { s.core n with minuetReq := true })) ∧
      ((s.core n).atWait = true ∨ s.heldAtBody n = true → exec (.minuetRequest n migrate) s =
        .next (stallOf n s (((s.modeUp n).dropWaits n).setCore n { (s.core n).abandon with minuetReq := true })))) ∧
    (∀ (w : CoreWork) (p : Program) (part : Part), s.errs.halted = false → (s.core n).minuetReq = true → (s.core n).work = some w → (s.core n).prog = some p →
      s.part w.part = some part → part.clearing = false → (s.core n).run = .ended →
      exec (.minuetSave n) s = .next ((s.freeCore n).setDesc w.ctx w.idx (fun d => { d with freed := true }))) ∧
    (∀ (w : CoreWork) (p : Program) (part : Part) (word : Nat) (r : Resume), s.errs.halted = false → (s.core n).minuetReq = true →
      (s.core n).work = some w → (s.core n).prog = some p → s.part w.part = some part → part.clearing = false → (s.core n).run = .running → (s.core n).tile = none →
      (s.core n).wordAt (s.core n).pc = some word → opcodeOf word = 1 →
      r = (s.core n).resumeBlock w p (bits word 15 0) (part.slotOff n) → (∀ e ∈ r.ranges, s.corePoisoned n e.1 e.2 = false) →
      ∀ bs : List Byte, bs = r.ranges.flatMap (fun e => s.coreRead n e.1 e.2) →
      exec (.minuetSave n) s = .next (((s.carryPads (r.ranges.flatMap (fun e => rangeFrom (coreBase n + e.1) e.2))
        ((areaPieces (n.val / 8) (part.saveAreaUp (n.val / 8)) 3 (part.slotOff n) bs.length).flatMap (fun e => rangeFrom e.1 e.2))
        (State.areaWriteFuel (n.val / 8) (part.saveAreaUp (n.val / 8)) 3 (part.slotOff n) bs s)).setCore n ((s.core n).yielded (some r))).yieldSignal w.part)) ∧
    (∀ (r : Resume) (part : Part) (img : List Byte) (host : HostRead), s.errs.halted = false → (s.core n).resume = some r → (s.core n).run = .yielded →
      s.part r.work.part = some part → (s.ctx r.work.ctx).halted = false → (s.ctx r.work.ctx).paused = false → part.clearing = false →
      s.rtNeeds r.work.part n = false → s.coreClosed n = false →
      s.imageHeld part r.prog.iova r.prog.imageBase = false →
      (s.imageReads part r.prog.iova r.prog.imageBase host).readImage part r.work.part r.work.gen (n.val / 8) r.prog.iova r.prog.imageBase host = .ok img →
      (areaPieces (n.val / 8) (part.saveAreaUp (n.val / 8)) 3 r.slotOff (r.ranges.foldl (fun acc e => acc + e.2) 0)).any
        (fun e => s.poisoned e.1 e.2) = false →
      ∃ t, exec (.minuetRestore n host) s = .next t ∧ (t.core n).run = .running ∧ (t.core n).pc = r.tilePos ∧ (t.core n).s = r.s ∧
        (t.core n).a = r.a ∧ (t.core n).td = r.td ∧ (t.core n).work = some r.work ∧ (t.core n).resume = none ∧ (t.core n).compat = r.prog.compat) ∧
    (∀ (f : FnId) (tag : U32) (x : CtxId), Served s f false false → s.ctxFn x = f.val →
      ((s.ctx x).realtime = false → exec (.ctxPause f tag x) s =
        .next (((s.taken f 0x31 tag).setCtx x { s.ctx x with paused := true }).reply f 0x31 tag .ok)) ∧
      (∀ u : State, u = (s.taken f 0x30 tag).setCtx x { s.ctx x with
          halted := false, paused := false, held := [], descs := (s.ctx x).descs.map (fun d =>
            if d.phase == .restored then { d with phase := .ended, status := .abortedByWindfall } else d) } →
        exec (.ctxRestart f tag x) s = .next (((s.ctx x).held.foldl (fun s b => s.takeBell x b) u).reply f 0x30 tag .ok)))

/-- Completes: PAIR_CREATE (R379), PAIR_ARM (R380), PAIR_ROUND_COMPARE (R381, R384), PAIR_TIMEOUT (R385). A sound record creates a
disarmed pair at round 0; PF0 arms or disarms it. When both done objects have reached the next round and the regions hold no poison, lie
in pages of their sides in stacks that serve, and match, the round counts and PASS_SYNC is signalled; a difference stops the pair with
E_PAIR_MISMATCH, and one side's absence at the timeout with E_PAIR_TIMEOUT. (R379, R380, R381, R384, R385) -/
def Obligations.PairCommands : Prop :=
  ∀ (s : State) (tag : U32),
    (∀ (f : FnId) (raw r : List Byte), Served s f false false → r = slice raw 0 272 → (f = 0 ∨ s.ownsPart f (pairA r) = true) → s.pairOk r = true →
      exec (.pairCreate f tag raw) s = .next (({ s.taken f 0x50 tag with work := { s.work with
        pairs := Tbl.put s.work.pairs s.freePair { raw := r, fn := s.partFn (pairA r), armed := false, round := 0, stopped := false } } } : State).reply
          f 0x50 tag .ok (toLE 4 s.freePair))) ∧
    (∀ (ix : U32) (x : Pair), Tbl.find s.work.pairs ix = some x →
      (∀ arm : Bool, Served s 0 false false → exec (.pairArm 0 tag ix arm) s = .next (({ s.taken 0 0x51 tag with work := { s.work with
        pairs := Tbl.put s.work.pairs ix { x with armed := arm, round := 0, stopped := false } } } : State).reply 0 0x51 tag .ok)) ∧
      (s.errs.halted = false → x.armed = true → x.stopped = false →
        (s.doneReached (pairDoneA x.raw) (x.round + 1) = true → s.doneReached (pairDoneB x.raw) (x.round + 1) = true →
          (∀ j, j < pairRegions x.raw → ∀ e ∈ [(pairA x.raw, (pairRegion x.raw j).1), (pairB x.raw, (pairRegion x.raw j).2.1)],
            s.poisoned (e.2 + pairStride x.raw * (x.round % pairBanks x.raw)) (pairRegion x.raw j).2.2.1 = false ∧
            s.memHeld (e.2 + pairStride x.raw * (x.round % pairBanks x.raw)) (pairRegion x.raw j).2.2.1 = false ∧
            s.sliceErr e.1 (e.2 + pairStride x.raw * (x.round % pairBanks x.raw)) (pairRegion x.raw j).2.2.1 = none) →
          ((∀ j, j < pairRegions x.raw → s.regionDiff x.raw (x.round % pairBanks x.raw) j = none) →
            ∃ t, exec (.pairRoundCompare ix) s = .next t ∧ Tbl.find t.work.pairs ix = some { x with round := x.round + 1 } ∧
              t.cpu.sync.flight = s.cpu.sync.flight ++ [{ sync := fld x.raw 8 2, add := 1, part := 64, gen := 0 }]) ∧
          ((∃ j, j < pairRegions x.raw ∧ s.regionDiff x.raw (x.round % pairBanks x.raw) j ≠ none) →
            ∃ t, exec (.pairRoundCompare ix) s = .next t ∧ Tbl.find t.work.pairs ix = some { x with stopped := true } ∧
              t.pwr.safeLow = true ∧ t.cpu.sync = s.cpu.sync)) ∧
        (s.doneReached (pairDoneA x.raw) (x.round + 1) ≠ s.doneReached (pairDoneB x.raw) (x.round + 1) →
          ∃ t, exec (.pairTimeout ix) s = .next t ∧ Tbl.find t.work.pairs ix = some { x with stopped := true } ∧ t.pwr.safeLow = true)))

/-- Completes: ATTN_REGISTER (R256), KV_PAGES (R263), SERVE_REGISTER, MODEL_SLOT (R363), SEQ_WRITE (R364, R372), STEP_START, STEP (R372),
WORK_LIST_COMPLETE (R369), CACHE_TAG_MISMATCH (R290, R291). A sound record of a served owner is stored and answered OK; pages are appended
to a pool's free list; a sequence entry is written at once, or with the next step when it takes part in an open one. In STEP_MODE 0 the
step builder forms a step when it may; in STEP_MODE 1 the STEP message does. The oldest work list of a partition whose record is written
updates its sequences, or reports its failure to them; the step ends with the last of its lists, the step number advancing. In an open
tile a cache page with an unexpected tag (R260; which page the tile reads is the model's reading, log entry 165) aborts the tile, zeroes
the item's output bytes or partial record, releases the tile's owned signals, marks the sequence FAULTED and counts the event; a mismatch
in a weight operand releases the signals and marks the list. The core goes on after the tile. (R256, R263, R363, R364, R372, R260, R268,
R290, R291, R369, R370) -/
def Obligations.ServingMessages : Prop :=
  (∀ (s : State) (f : FnId) (tag : U32) (p : PartId) (part : Part), Served s f false false → s.ownsPart f p = true → s.part p = some part →
    (∀ (raw r : List Byte), attnOk part (slice raw 0 64) = true → r = putBytes (slice raw 0 64) 0x1C (toLE 4 (attnPageBytes (slice raw 0 64))) →
      exec (.attnRegister f tag p raw) s = .next (({ s.taken f 0x40 tag with work := { s.work with
        attn := Tbl.put s.work.attn (fld r 0 8) { raw := r, part := p, head := 0, len := 0 } } } : State).reply f 0x40 tag .ok r)) ∧
    (∀ (slot : Fin 16) (first count : U32) (a : AttnReg), s.modelAttn p slot = some a → first.val + count.val ≤ attnPool a.raw →
      a.len + count.val ≤ attnPool a.raw → exec (.kvPages f tag p slot first count) s =
        .next (((s.taken f 0x47 tag).freeListAppend a (rangeFrom first count)).reply f 0x47 tag .ok)) ∧
    (∀ raw, s.servingOk p part (slice raw 0 32) = true → exec (.serveRegister f tag p raw) s =
      .next (((s.taken f 0x43 tag).setServing p { s.serving p with raw := some (slice raw 0 32), stepNo := 0 }).reply f 0x43 tag .ok)) ∧
    (∀ (slot : Fin 16) (raw r : List Byte), r = slice raw 0 32 → part.ownsStacked (fld r 0 8) 64 = true → part.ownsStacked (fld r 8 8) 320 = true →
      zeroBytes r 0x18 8 = true → exec (.modelSlot f tag p slot raw) s =
        .next (((s.taken f 0x44 tag).setServing p { s.serving p with models := Tbl.put (s.serving p).models slot r }).reply f 0x44 tag .ok)) ∧
    (∀ (ix : U32) (raw r : List Byte), ix.val < 2048 → r = slice raw 0 48 → s.ownsPart f (seqPart r) = true →
      (seqState (s.seq ix).raw = 0 ∨ s.ownsPart f (seqPart (s.seq ix).raw) = true) → seqOk r = true →
      (seqState (s.seq ix).raw ≠ 0 → seqState r = 0 ∨ seqState r = 4 → s.seqHeld (s.seq ix).raw = false) →
      (s.inStep (seqPart (s.seq ix).raw) ix = false → exec (.seqWrite f tag ix raw) s = .next (((s.taken f 0x45 tag).applySeq ix r).reply f 0x45 tag .ok)) ∧
      (s.inStep (seqPart (s.seq ix).raw) ix = true → exec (.seqWrite f tag ix raw) s =
        .next (((s.taken f 0x45 tag).setSeq ix { s.seq ix with pendingRaw := (s.seq ix).pendingRaw ++ [r] }).reply f 0x45 tag .ok))) ∧
    (∀ r : List Byte, s.stepRecord p = some (part, r) →
      (bit (fld r 0 4) 12 = false → exec (.stepStart p) s = .next (s.formStep p part r)) ∧
      (bit (fld r 0 4) 12 = true → exec (.step f tag p) s = .next (((s.taken f 0x46 tag).formStep p part r).reply f 0x46 tag .ok)))) ∧
  (∀ (s : State), s.errs.halted = false →
    (∀ (p : PartId) (part : Part) (l : WorkList) (st : Status) (u v : State), s.part p = some part →
      (s.serving p).lists.find? (fun l => l.done.isSome && !l.updated) = some l →
      (s.memHeld l.resultDpa (8 * l.entries.length) = false ∧ ∀ e ∈ s.pendingSeqs p, s.seqHeld (s.seq e.1).raw = false) →
      st = (if s.stacksOn l.resultDpa (8 * l.entries.length) = false then .eStackOff
        else if s.poisoned l.resultDpa (8 * l.entries.length) = true then .eMemPoison else l.done.getD .ok) →
      u = s.setServing p { s.serving p with lists := (s.serving p).lists.map (fun m => if m = l then { l with updated := true } else m) } →
      v = (l.entries.zip (List.range l.entries.length)).foldl (State.endSeq p part l st) u →
      ((∃ m ∈ (v.serving p).lists, m.updated = false) → exec (.workListComplete p) s = .next v) ∧
      ((∀ m ∈ (v.serving p).lists, m.updated = true) → exec (.workListComplete p) s = .next (v.endStep p part) ∧
        ((v.endStep p part).serving p).lists = [] ∧ ((v.endStep p part).serving p).stepNo = ((v.serving p).stepNo + 1) % 2 ^ 32)) ∧
    (∀ (n : CoreId) (seq : Fin 2048) (out : U64) (len : U32) (signals : List (Nat × Nat)) (w : CoreWork) (l : WorkList) (u1 u : State),
      (s.core n).work = some w → (s.serving w.part).lists.find? (fun l => l.ctx == w.ctx && l.idx == w.idx) = some l →
      u = signals.foldl (fun s e => if s.ownsSync w.part w.gen e.1 = true then s.signal e.1 e.2 w.part w.gen else s) u1 →
      (s.cacheHit n w.part l seq out len = true → (s.tilePlan n).releases signals = true → u1 = (s.abortTile n .eScaleSkew).zeroItem w.part out len →
        exec (.cacheTagMismatch n seq out len signals false) s = .next ((((u.setServing w.part { u.serving w.part with
          lists := (u.serving w.part).lists.map (fun m => if m = l then { l with skewed := l.skewed ++ [seq.val] } else m),
          skews := (u.serving w.part).skews + 1 }).markFaulted seq).forgiveSkew n w).resumeAfterTile n) ∧
        ∀ x : State, seqState ((x.markFaulted seq).seq seq).raw = 3) ∧
      ((s.core n).run = .stopped .eScaleSkew → (s.core n).plan.releases signals = true → u1 = s →
        exec (.cacheTagMismatch n seq out len signals true) s = .next (((u.setServing w.part { u.serving w.part with
          lists := (u.serving w.part).lists.map (fun m => if m = l then { l with weightSkew := true } else m) }).forgiveSkew n w).resumeAfterTile n))))

/-- Completes: CAM_POC_EN_WRITE (R393), POC_OVERCURRENT (R393), POC_OPEN_DETECT (R392), PORT_BRING_UP (R396), APHY_LINK_LOSS (R398),
CAM_PORT_OWNER_WRITE (R740). PF0's write of EN closes the switch of a port whose group is on and begins its bring-up, or opens it and ends
the link; while the group is off it acts when the group powers up. Overcurrent opens it with a latched fault and tells the owner. CURRENT
takes what is measured, and below 10 mA OPEN is set. A bring-up of a port with a profile trains after fewer than three failures and writes
the init list, then the default exposures that are due (R456); three failures, or no profile, end it with E_CAM_LINK, and a port that
failed only powers its switch. A lost link closes its frames and retrains. PF0 assigns a port no function's context runs on. Completes:
CAM_FSYNC_CTRL_WRITE (R741), CAM_FSYNC_PERIOD_WRITE, FSYNC_GENERATOR_EDGE (R403), FSYNC_EDGE (R402). PF0 sets a source's mode and high
time, and its period as written; the running period and pulse stand until the generator's next edge, which takes the written ones,
clamped. Entering output mode drives the first edge, leaving it drives nothing any more; the land is high for the pulse's microseconds of
the 38.4 MHz clock. Every edge of a source goes up the uplink of each trained port with a context that forwards it, once a port. (R391,
R392, R393, R394, R396, R397, R398, R740, R756, R402, R403, R741) -/
def Obligations.CameraPorts : Prop :=
  (∀ (s : State) (n : PortId),
    (∀ value : U32, s.acts →
      (s.groupOn (n.val / 4) = true →
        (bit value 0 = true → (s.media.port n).en = false → exec (.camPocEnWrite 0 n value) s =
          .next ((s.writePoc n value).setPort n { (s.writePoc n value).media.port n with
            en := true, st := 1, retrains := 0, attempts := 0, gear := 0, link := 0, retrain := false })) ∧
        (bit value 0 = true → (s.media.port n).en = true → exec (.camPocEnWrite 0 n value) s =
          .next ((s.writePoc n value).setPort n ((s.writePoc n value).media.port n))) ∧
        (∀ s1, s1 = (s.openSwitch n 0).writePoc n value → bit value 0 = false → exec (.camPocEnWrite 0 n value) s =
          .next (s1.setPort n { s1.media.port n with en := false, link := 0 }))) ∧
      (∀ s1 s2, s.groupOn (n.val / 4) = false → s1 = s.writePoc n value → s2 = s1.setPort n { s1.media.port n with
          en := bit value 0, late := if bit value 0 then (s1.media.port n).late else (s1.media.port n).late ||| 1 } →
        exec (.camPocEnWrite 0 n value) s = .next (if s2.groupOn (n.val / 4) then s2.groupUp (n.val / 4) else s2)) ∧
      (s.media.ctxs.any (fun e => !e.2.dflt && e.2.port == n.val) = false → exec (.camPortOwnerWrite 0 n value) s =
        .next (s.setPort n { s.media.port n with owner := bits value 4 0, ownerRefused := false })) ∧
      (s.media.ctxs.any (fun e => !e.2.dflt && e.2.port == n.val) = true → bits value 4 0 ≠ (s.media.port n).owner →
        exec (.camPortOwnerWrite 0 n value) s = .next (s.setPort n { s.media.port n with ownerRefused := true }))) ∧
    ((s.media.port n).st = 1 ∨ (s.media.port n).st = 2 → exec (.pocOvercurrent n) s = .next (((s.openSwitch n 3).setPort n
      { (s.openSwitch n 3).media.port n with overcurrent := true }).event (s.media.port n).owner .eCamPower (toLE 4 n))) ∧
    (∀ current : U16, (s.media.port n).st = 2 → exec (.pocOpenDetect n current) s = .next (s.setPort n { s.media.port n with
      opened := (s.media.port n).opened || decide (current.val < 10), current := min current 1023 })) ∧
    (∀ fails : Fin 4, s.errs.halted = false → (s.media.port n).st = 1 → (s.media.port n).link = 4 →
      exec (.portBringUp n fails) s = .next (s.setPort n { s.media.port n with st := 2 })) ∧
    (∀ fails : Fin 4, s.errs.halted = false → (s.media.port n).en = true → ((s.media.port n).st = 1 ∨ (s.media.port n).st = 2) →
      (s.media.port n).link < 2 →
      (fails.val < 3 → s.portProfile n ≠ [] → (s.media.port n).retrain = false → exec (.portBringUp n fails) s = .next (((s.setPort n
        { s.media.port n with st := 2, attempts := fails, link := 3, gear := profGear (s.portProfile n), retrain := false }).uplinkWrites n
          (s.portProfile n) ((List.range (profInit (s.portProfile n))).map (fun i => fld (s.portProfile n) (0x1980 + 4 * i) 4))).dueExps n)) ∧
      (fails.val < 3 → s.portProfile n ≠ [] → (s.media.port n).retrain = true → exec (.portBringUp n fails) s = .next ((s.setPort n
        { s.media.port n with st := 2, attempts := fails, link := 3, gear := profGear (s.portProfile n), retrain := false }).dueExps n)) ∧
      (fails.val = 3 ∨ s.portProfile n = [] → exec (.portBringUp n fails) s = .next ((s.setPort n { s.media.port n with
        st := 2, attempts := 3, link := 4, gear := 0 }).event (s.media.port n).owner .eCamLink (toLE 4 n)))) ∧
    ((s.media.port n).link = 2 ∨ (s.media.port n).link = 3 → ∃ t, exec (.aphyLinkLoss n) s = .next t ∧ (t.media.port n).link = 1 ∧
      (t.media.port n).gear = 0 ∧ (t.media.port n).attempts = 0 ∧ (t.media.port n).retrains = satAdd (s.media.port n).retrains 1 0xFF ∧
      ((t.media.port n).retrain = true ↔ (s.media.port n).link = 3))) ∧
  (∀ (s : State) (g : Fin 4) (value : U32),
    (s.acts →
      (bits value 1 0 = 1 → (s.media.source g).mode = 1 → exec (.camFsyncCtrlWrite 0 g value) s =
        .next (s.setSource g { s.media.source g with mode := 1, width := bits value 15 8 })) ∧
      (bits value 1 0 = 1 → (s.media.source g).mode ≠ 1 → exec (.camFsyncCtrlWrite 0 g value) s =
        .next (s.setSource g { s.media.source g with
          mode := 1, width := bits value 15 8, period := max 160000 (min 38400000 (s.media.source g).reg), due := true
          rise := some s.host.refTicks, pulse := max 1 (bits value 15 8) })) ∧
      (bits value 1 0 ≠ 1 → exec (.camFsyncCtrlWrite 0 g value) s = .next (s.setSource g { s.media.source g with
        mode := bits value 1 0, width := bits value 15 8, due := false, rise := none }))) ∧
    (s.acts → exec (.camFsyncPeriodWrite 0 g value) s = .next (s.setSource g { s.media.source g with reg := value })) ∧
    ((s.media.source g).mode = 1 → exec (.fsyncGeneratorEdge g) s = .next (s.setSource g { s.media.source g with
      period := max 160000 (min 38400000 (s.media.source g).reg), due := true, rise := some s.host.refTicks
      pulse := max 1 (s.media.source g).width })) ∧
    (∀ now start : Nat, ((s.media.source g).mode ≠ 1 → (s.media.source g).level now = none) ∧
      ((s.media.source g).mode = 1 → (s.media.source g).rise = some start →
        ((s.media.source g).level now = some true ↔ (now - start) * 5 < (s.media.source g).pulse * 192))) ∧
    ((s.media.source g).mode = 2 ∨ ((s.media.source g).mode = 1 ∧ (s.media.source g).due = true) →
      exec (.fsyncEdge g) s = .next (((s.media.ctxs.filter (fun e => !e.2.suspended && camFsync e.2.raw == some g.val &&
        (s.media.port e.2.port).link == 3)).map (fun e => e.2.port)).eraseDups.foldl (fun s p => s.emit (.fsync p))
          (s.setSource g { s.media.source g with due := false }))))

/-- Completes: CAM_PORT_MAP (R395), CAM_PROFILE (R401), CAM_CTX_START (R405), CAM_CTX_STOP (R404), CAM_DEFAULT_STATS (R400). PF0 stores a
sound port map, and a profile by pieces of which the last is checked. The sound context record of a port's owner on a pipe that bears it
starts the lowest free context, with its profile as stored and its sync objects at 0. A stop request is noted, and a context with no frame
goes at once. PF0 reads pieces of a default context's statistics. (R395, R400, R401, R404, R405, R436, R616) -/
def Obligations.CameraMessages : Prop :=
  ∀ (s : State) (tag : U32),
    (∀ raw : List Byte, Served s 0 false false → raw.length = 64 →
      (∀ n, n < 16 → fldBits raw (4 * n) 3 1 = 0 ∧ fldBits raw (4 * n) 31 8 = 0 ∧
        (mapEnable raw n = true → (Tbl.find s.media.profiles (mapSlot raw n)).isSome = true)) →
      exec (.camPortMap 0 tag raw) s = .next (((s.taken 0 0x61 tag).setMedia { s.media with portMap := raw }).reply 0 0x61 tag .ok)) ∧
    (∀ (slot index : U32) (data sofar : List Byte), Served s 0 false false → slot.val < 16 →
      (index.val = 0 → sofar = []) → (0 < index.val → s.media.staging = some (slot.val, sofar)) → sofar.length = 480 * index.val →
      (index.val < 17 → data.length = 480 → exec (.camProfile 0 tag slot index data) s =
        .next (((s.taken 0 0x60 tag).setMedia { s.media with staging := some (slot.val, sofar ++ data) }).reply 0 0x60 tag .ok)) ∧
      (index.val = 17 → data.length = 32 → profileOk (sofar ++ data) = true → exec (.camProfile 0 tag slot index data) s =
        .next (((s.taken 0 0x60 tag).setMedia { s.media with
          staging := none, profiles := Tbl.put s.media.profiles slot (sofar ++ data) }).reply 0 0x60 tag .ok))) ∧
    (∀ (f : FnId) (raw : List Byte) (c : Nat) (prof : List Byte), Served s f false false → raw.length = 256 →
      (List.range 16).find? (fun c => (s.media.cam c).isNone) = some c → Tbl.find s.media.profiles (fldBits raw 0 11 8) = some prof →
      s.camOk f raw prof = true → (s.media.port (fldBits raw 0 3 0)).owner = f.val →
      ((s.media.setCam c (camNew raw prof f (fldBits raw 4 5 0) (s.gen (fldBits raw 4 5 0)) (s.gen (outDesc raw 2).mirrorPart) false)).pipeLoad
        (fldBits raw 0 13 12)).1 ≤ 144000000000 * ((s.media.setCam c (camNew raw prof f (fldBits raw 4 5 0) (s.gen (fldBits raw 4 5 0))
          (s.gen (outDesc raw 2).mirrorPart) false)).pipeLoad (fldBits raw 0 13 12)).2 →
      ∃ t, exec (.camCtxStart f tag raw) s = .next t ∧
        t.media.cam c = some (camNew raw prof f (fldBits raw 4 5 0) (s.gen (fldBits raw 4 5 0)) (s.gen (outDesc raw 2).mirrorPart) false) ∧
        (t.media.port (fldBits raw 0 3 0)).slot = fldBits raw 0 11 8) ∧
    (∀ (f : FnId) (c : U32) (x : CamCtx), Served s f false false → c.val < 16 → s.media.cam c = some x → x.fn = f.val →
      (x.isOpen = true ∨ x.frames ≠ [] → ∃ t, exec (.camCtxStop f tag c) s = .next t ∧ t.media.cam c = some { x with stopAsked := true }) ∧
      (x.isOpen = false → x.frames = [] → ∃ t, exec (.camCtxStop f tag c) s = .next t ∧ t.media.cam c = none)) ∧
    (∀ (port index : U32) (x : CamCtx), Served s 0 true false → port.val < 16 → s.media.cam (16 + port.val) = some x →
      exec (.camDefaultStats 0 tag port index) s = .next ((s.taken 0 0x64 tag).reply 0 0x64 tag .ok ((x.lastStats.drop (480 * index.val)).take 480)))

/-- Completes: FRAME_START_PACKET (R409), LINE_PACKET, FRAME_END_PACKET (R412), EMBEDDED_DATA_LINE (R408). On a trained port a frame start
closes an open frame, and opens the next frame of its context with FRAME_NO counting up, or drops it when the frame in its slot is
unfinished; an inline context drops none. A line whose header cannot be corrected is only counted; one of an open frame lands in it.
Embedded lines are kept up to 64 KiB, a bad one as it came (the model's choice, log entry 172). A frame end closes the frame. A packet of
no context is counted as unmatched, a frame start of a suspended one in its FRAME_NO. (R390, R408, R409, R410, R411, R412, R413) -/
def Obligations.FramePackets : Prop :=
  ∀ (s : State) (port : PortId) (vc : Fin 32), s.portUp port = true →
    (∀ (csiNo : U16) (s1 : State), s1 = (match s.media.openCam port vc with | some e => s.closeFrame e.1 true | none => s) →
      (s1.media.nextCam port vc = none → s1.media.ctxs.find? (fun e => e.2.port == port.val && e.2.vc == vc.val && e.2.suspended) = none →
        exec (.frameStartPacket port vc csiNo) s = .next (s1.unmatchedPacket port)) ∧
      (∀ c x, s1.media.nextCam port vc = none → s1.media.ctxs.find? (fun e => e.2.port == port.val && e.2.vc == vc.val && e.2.suspended) = some (c, x) →
        exec (.frameStartPacket port vc csiNo) s = .next (s1.setCam c { x with started := x.started + 1 })) ∧
      (∀ (c : Nat) (x : CamCtx), s1.media.nextCam port vc = some (c, x) →
        (x.dflt = true ∨ (x.watch.isSome = true ∧ s1.pwr.state < 2) ∨ (∀ f ∈ x.frames, f.no % camRawSlots x.raw ≠ x.started % camRawSlots x.raw) →
          ∃ t y f, exec (.frameStartPacket port vc csiNo) s = .next t ∧ t.media.cam c = some y ∧ y.started = x.started + 1 ∧ y.isOpen = true ∧
            y.dropping = false ∧ y.frames = x.frames ++ [f] ∧ f.no = x.started ∧ f.csiNo = csiNo.val ∧ f.rows = 0 ∧ f.closed = false ∧
            f.tFs = s1.stampFor x.fn) ∧
        (x.dflt = false → (x.watch = none ∨ 2 ≤ s1.pwr.state) → (∃ f ∈ x.frames, f.no % camRawSlots x.raw = x.started % camRawSlots x.raw) →
          ∃ t y, exec (.frameStartPacket port vc csiNo) s = .next t ∧ t.media.cam c = some y ∧ y.started = x.started + 1 ∧
            y.dropping = true ∧ y.frames = x.frames ∧ (t.media.pipe x.pipe).drops = satAdd (s1.media.pipe x.pipe).drops 1 0xFFFFFFFF))) ∧
    (∀ (dt : Fin 64) (px : List Nat) (crcOk : Bool), exec (.linePacket port vc dt 2 px crcOk) s =
      .next (s.setPort port { s.media.port port with hdrEcc := satAdd (s.media.port port).hdrEcc 1 0xFFFF })) ∧
    (∀ (dt : Fin 64) (hdr : Fin 3) (px : List Nat) (crcOk : Bool) (s1 : State), hdr ≠ 2 →
      s1 = s.setPort port { s.media.port port with
        hdrCorrected := if hdr = 1 then satAdd (s.media.port port).hdrCorrected 1 0xFFFF else (s.media.port port).hdrCorrected,
        crcBad := if crcOk then (s.media.port port).crcBad else satAdd (s.media.port port).crcBad 1 0xFFFF } →
      (s.media.hasCam port vc (some dt.val) = false → exec (.linePacket port vc dt hdr px crcOk) s = .next (s1.unmatchedPacket port)) ∧
      (∀ (c : Nat) (x : CamCtx) (f : CamFrame), s.media.hasCam port vc (some dt.val) = true → s.media.openCam port vc = some (c, x) →
        x.frames.getLast? = some f → x.dropping = false → profType x.profile = dt.val →
        exec (.linePacket port vc dt hdr px crcOk) s = .next (s1.landLine c x f px crcOk))) ∧
    (∀ e : EmbLine, e.hdr = 2 → exec (.embeddedDataLine port vc e) s =
      .next (s.setPort port { s.media.port port with hdrEcc := satAdd (s.media.port port).hdrEcc 1 0xFFFF })) ∧
    (∀ (e : EmbLine) (s1 : State), e.hdr ≠ 2 → s1 = s.setPort port { s.media.port port with
        hdrCorrected := if e.hdr = 1 then satAdd (s.media.port port).hdrCorrected 1 0xFFFF else (s.media.port port).hdrCorrected,
        crcBad := if e.crcOk then (s.media.port port).crcBad else satAdd (s.media.port port).crcBad 1 0xFFFF } →
      (s.media.hasCam port vc none = false → exec (.embeddedDataLine port vc e) s = .next (s1.unmatchedPacket port)) ∧
      (∀ (c : Nat) (x : CamCtx), s.media.hasCam port vc none = true → s.media.openCam port vc = some (c, x) → x.dropping = false →
        exec (.embeddedDataLine port vc e) s = .next (s1.setCam c (x.mapLast (fun f => { f with
          emb := (f.emb ++ e.data).take 65536, bad := f.bad + (if e.crcOk then 0 else 1) }))))) ∧
    (∀ (c : Nat) (x : CamCtx), s.media.openCam port vc = some (c, x) → exec (.frameEndPacket port vc) s = .next (s.closeFrame c false)) ∧
    (s.media.openCam port vc = none → s.media.hasCam port vc none = false → exec (.frameEndPacket port vc) s = .next (s.unmatchedPacket port))

/-- Completes: ISP_UNIT_START (R431), ISP_UNIT_END (R423). Outside HOLD an idle pipe that is on starts the next ready unit, a frame's
first unit taking the parameter bank in force. At a unit's end, unless a slice that does not serve holds it, its lines have entered the
statistics, the pipe is idle, and a closed frame whose last unit this was is finished. (R423, R431, R434, R454, R594) -/
def Obligations.IspUnits : Prop :=
  ∀ (s : State) (p : Fin 4), s.errs.halted = false →
    (∀ (c n : Nat) (f : CamFrame) (x : CamCtx) (s1 : State), s.pwr.ledger.hold = false → (s.media.pipe p).run = none → s.pipeOn p = true →
      s.nextUnit p = some (c, f, n) → s.media.cam c = some x → s1 = (if f.begun then s else s.beginFrame c x f) →
      exec (.ispUnitStart p) s = .next (s1.setMedia (s1.media.setPipe p { s.media.pipe p with
        run := some { ctx := c, line := f.next, len := n }, held := some c }))) ∧
    (∀ (u : IspUnit) (x : CamCtx) (f : CamFrame) (rest : List CamFrame) (s1 : State), (s.media.pipe p).run = some u →
      s1 = s.setMedia (s.media.setPipe p { s.media.pipe p with run := none }) → s1.media.cam u.ctx = some x → x.frames = f :: rest →
      (f.inline x = true ∨ s.memHeld (x.lineAt f 0) (rawFrame x.profile) = false) → exec (.ispUnitEnd p) s = .next ((s1.setCam u.ctx { x with frames := { f with
        next := u.line + u.len, stats := f.stats.addLines (s1.camView x f) u.line u.len,
        ring := f.ring.filter (fun e => decide (u.line + u.len ≤ e.1 + 3)) } :: rest }).finishDue u.ctx))

/-- Completes: CAMERA (R445), SENSOR_WRITE, SENSOR_READ (R446), EXPOSURE (R449), ISP_PARAMS (R453). A sound camera descriptor of an owned
context joins its port's queue of sixteen; one that finds it full ends with E_CAM_CMD_FULL and an unsound one with E_CAM_CONFIG. The
command at the head writes its registers and ends OK when all were acknowledged, else with E_SENSOR_NACK, as with no link; reads the
sensor's answer into its buffer; gives a completed EXPOSURE the next identifier and its target; or loads a parameter block with the next
sequence number. One whose context is gone, or has started anew for another function or on another port (log entry 207), ends with
E_CAM_CONFIG. (R391, R445, R446, R447, R448, R449, R453, R458) -/
def Obligations.CameraCommands : Prop :=
  ∀ (s : State), s.errs.halted = false →
    (∀ (n : CtxId) (idx : U32) (d : Desc) (x : CamCtx) (r : List Byte), s.runningDesc n idx 3 = some d → r = slice d.raw 0x20 32 →
      s.media.ports.any (fun e => e.2.queue.any (fun q => q.ctx == n.val && q.idx == idx.val)) = false → s.media.cam (fldBits r 0 11 8) = some x →
      (camCmdOk r = false ∨ x.fn ≠ s.ctxFn n → exec (.camera n idx) s = .next (s.endDesc n idx .eCamConfig)) ∧
      (camCmdOk r = true → x.fn = s.ctxFn n → (s.media.port x.port).queue.length < 16 → exec (.camera n idx) s = .next (s.setPort x.port { s.media.port x.port with
        queue := (s.media.port x.port).queue ++ [{ ctx := n, idx := idx, part := (s.ctx n).part, raw := r }] })) ∧
      (camCmdOk r = true → x.fn = s.ctxFn n → 16 ≤ (s.media.port x.port).queue.length → exec (.camera n idx) s = .next (s.endDesc n idx .eCamCmdFull))) ∧
    (∀ (p : PortId) (q : CamCmd) (rest : List CamCmd) (r : Instr × Nat) (acked : Nat) (host : HostRead) (s1 : State),
      (s.media.port p).queue = q :: rest → s.camCmdHeld q = false → s1 = s.setPort p { s.media.port p with queue := rest } →
      (s.media.cam (fldBits q.raw 0 11 8) = none ∨
        ∃ x, s.media.cam (fldBits q.raw 0 11 8) = some x ∧ (x.fn ≠ s.ctxFn q.ctx ∨ x.port ≠ p.val)) →
      r ∈ [(Instr.sensorWrite p acked, 1), (.sensorRead p host, 2), (.exposure p acked, 3), (.ispParams p host, 4)] → camOp q.raw = r.2 →
      exec r.1 s = .next (s1.endDesc q.ctx q.idx .eCamConfig)) ∧
    (∀ (p : PortId) (q : CamCmd) (rest : List CamCmd) (x : CamCtx) (c : Nat) (s1 : State), (s.media.port p).queue = q :: rest →
      c = fldBits q.raw 0 11 8 → s.media.cam c = some x → s1 = s.setPort p { s.media.port p with queue := rest } →
      s.camCmdHeld q = false → x.fn = s.ctxFn q.ctx → x.port = p.val →
      (∀ acked n : Nat, n = (if (s.media.port p).link = 3 then acked else 0) → camOp q.raw = 1 → exec (.sensorWrite p acked) s =
        .next ((s1.uplinkWrites p x.profile ((camWrites q.raw).take (n + 1))).endDesc q.ctx q.idx
          (if (camWrites q.raw).length ≤ n then .ok else .eSensorNack))) ∧
      (∀ (bs : List Byte) (s2 s3 : State) (st : Status), camOp q.raw = 2 →
        s2 = s1.emit (.uplink p (toLE 1 (profAddr x.profile) ++ toLE 1 (bits (fld q.raw 4 2) 15 8) ++ toLE 1 (bits (fld q.raw 4 2) 7 0))) →
        ((s.media.port p).link ≠ 3 ∨ bs.length < camCount q.raw →
          exec (.sensorRead p (.data bs)) s = .next (s2.endDesc q.ctx q.idx .eSensorNack)) ∧
        exec (.sensorRead p .refused) s = .next (s2.endDesc q.ctx q.idx .eSensorNack) ∧
        ((s.media.port p).link = 3 → camCount q.raw ≤ bs.length → s2.camStore q (bs.take (camCount q.raw)) = (s3, st) →
        exec (.sensorRead p (.data bs)) s = .next ((s3.setDesc q.ctx q.idx (fun d =>
          { d with detail0 := if st == .ok then camCount q.raw else 0 })).endDesc q.ctx q.idx st))) ∧
      (∀ acked n : Nat, n = (if (s.media.port p).link = 3 then acked else 0) → camOp q.raw = 3 → n < (camWrites q.raw).length →
        exec (.exposure p acked) s =
          .next ((s1.uplinkWrites p x.profile ((camWrites q.raw).take (n + 1))).endDesc q.ctx q.idx .eSensorNack)) ∧
      (∀ acked : Nat, camOp q.raw = 3 → (s.media.port p).link = 3 → (camWrites q.raw).length ≤ acked →
        exec (.exposure p acked) s = .next (((((s1.uplinkWrites p x.profile (camWrites q.raw)).setCam c { x with
          lastExp := x.lastExp % 65535 + 1,
          reqs := { id := x.lastExp % 65535 + 1, target := x.started + profDelay x.profile - 1, writes := camWrites q.raw } :: x.reqs }).setDesc
            q.ctx q.idx (fun d => { d with
              detail0 := x.lastExp % 65535 + 1, detail1 := (x.started + profDelay x.profile - 1) % 2 ^ 32 })).endDesc q.ctx q.idx .ok))) ∧
      (∀ (part : Part) (load : List Byte → State → State), camOp q.raw = 4 → s.part q.part = some part →
        load = (fun bs u => ((u.setCam c { x with
          lastSeq := x.lastSeq % 65535 + 1, pend := some (bs, x.lastSeq % 65535 + 1, fld q.raw 8 4) }).setDesc q.ctx q.idx
            (fun d => { d with detail0 := x.lastSeq % 65535 + 1 })).endDesc q.ctx q.idx .ok) →
        (∀ bs : List Byte, fldBits q.raw 0 5 4 ≠ 1 → exec (.ispParams p (.data bs)) s =
          .next (load (slice bs 0 6272) ((s1.hostRead part.fn (fld q.raw 0x10 8) 6272 3).account (some q.ctx) q.part 3 6272))) ∧
        (∀ host : HostRead, fldBits q.raw 0 5 4 = 1 → s.stackedErr part q.part (s.gen q.part) (fld q.raw 0x10 8) 6272 = none →
          s.poisoned (fld q.raw 0x10 8) 6272 = false → exec (.ispParams p host) s =
            .next (load (s.readMem (fld q.raw 0x10 8) 6272) (s1.accountStacked (some q.ctx) q.part 2 false (fld q.raw 0x10 8) 6272)))))

/-- Completes: MUTE_ASSERT (R472), UNMUTE, MUTE_SETTLE_END (R473). From input good (Table 14.1) muting a group stops its clock, opens its
power switch, lights the indicator, drops its candidate, seals its session and ends its streams. Unmuting turns the indicator off, closes
the switch and starts the clock, with the group settling; before Stage A has completed only the indicator is there to act; after the
settling capture restarts with the noise floor's warm-up. (R471, R472, R473, R470) -/
def Obligations.MutedGroupStaysDark : Prop :=
  ∀ (s : State) (g : GroupId),
    (s.pwr.aon = true → ∃ t, exec (.muteAssert g) s = .next t ∧ (t.media.group g).landLow = true ∧ (t.media.group g).muted = true ∧
      (t.media.group g).clock = false ∧ (t.media.group g).power = false ∧ (t.media.group g).lit = true ∧ (t.media.group g).cand = none ∧
      (t.media.group g).session = none ∧ (t.media.group g).s = (s.media.group g).s ∧ ∀ y ∈ t.media.streams, y.group ≠ g.val) ∧
    (s.pwr.aon = false → exec (.muteAssert g) s = .next (s.setGroup g { s.media.group g with landLow := true })) ∧
    (s.pwr.aon = true → s.pwr.stageADone = false → (s.media.group g).muted = true → exec (.unmute g) s = .next (s.setGroup g { s.media.group g with
      landLow := false, muted := false, lit := false })) ∧
    (s.pwr.aon = true → s.pwr.stageADone = true → (s.media.group g).muted = true → exec (.unmute g) s = .next (s.setGroup g { s.media.group g with
      landLow := false, muted := false, settling := true, clock := true, power := true, lit := false,
      chains := [] })) ∧
    ((s.media.group g).settling = true → exec (.muteSettleEnd g) s = .next (s.setGroup g { s.media.group g with
      settling := false, warm := 50, floor := none, onset := none }))

/-- While a group is muted with its clock stopped, its microphone power off and its indicator lit, every command other than the unmute of
that group and the two that start the module leaves it so. (R471) -/
def Obligations.OnlyUnmuteLightsOut : Prop :=
  ∀ (c : Instr) (s t : State) (g : GroupId), exec c s = .next t → c ≠ .unmute g →
    (∀ a b d e f, c ≠ .powerOn a b d e f ∧ c ≠ .restartAfterSave a b d e f) → (∀ k, c ≠ .windfallSave k) →
    (s.media.group g).muted = true → (s.media.group g).clock = false → (s.media.group g).power = false → (s.media.group g).lit = true →
    (t.media.group g).muted = true ∧ (t.media.group g).clock = false ∧ (t.media.group g).power = false ∧ (t.media.group g).lit = true

/-- Completes: AUD_GROUP_CFG_WRITE (R468), AUD_WAKE_CFG_WRITE, AUD_RESEAL (R477), AUD_STORE (R467), RECOGNISER_HOP (R482), AUD_COPY
(R479), AUD_STREAM, AUD_STREAM_SLOT (R492), WAKE_QUEUE_READ (R488). PF0's writes set a group's capture and wake set-up, a refused pair
stopping the stream chain until another is in force; PF0 stores a sound audio configuration. The owner copies unsealed blocks to host
memory, reseals its group and starts a live stream, of which each 10 ms slot that is free is written and signalled. The OWNER of a group
reads its wake records, which delivers them. A hop advances the capture counter by 160 and brings the written set-up into force, a refused
pair with its stream chain stopped (R469), a changed OWNER sealing the group (R468, R477). (R467, R468, R469, R474, R476, R477, R479,
R482, R488, R490, R492, R616) -/
def Obligations.AudioRegistersAndMessages : Prop :=
  ∀ (s : State) (g : GroupId) (tag : U32),
    (∀ value : U32, s.acts → audPairOk (BitVec.ofNat 32 value &&& 0xFFFFFEFF) = true → exec (.audGroupCfgWrite 0 g value) s =
      .next (s.setGroup g { s.media.group g with cfg := BitVec.ofNat 32 value &&& 0xFFFFFEFF })) ∧
    (∀ value : U32, s.acts → audPairOk (BitVec.ofNat 32 value &&& 0xFFFFFEFF) = false → exec (.audGroupCfgWrite 0 g value) s =
      .next ((s.setGroup g { s.media.group g with cfg := BitVec.ofNat 32 value &&& 0xFFFFFEFF, chainOff := true }).event 0 .eAudConfig (toLE 4 g))) ∧
    (∀ value : U32, s.acts → exec (.audWakeCfgWrite 0 g value) s = .next (s.setGroup g { s.media.group g with
      wakeCfg := BitVec.ofNat 32 value &&& 0x7FFF001F })) ∧
    (∀ raw : List Byte, Served s 0 false false → raw.length = 24 → bit (fld raw 0 4) 8 = false → bit (fld raw 4 4) 8 = false →
      audPairOk (BitVec.ofNat 32 (fld raw 0 4)) = true → audPairOk (BitVec.ofNat 32 (fld raw 4 4)) = true → fld raw 8 4 &&& 0x8000FFE0 = 0 →
      fld raw 12 4 &&& 0x8000FFE0 = 0 → fldBits raw 16 31 4 = 0 → fldBits raw 20 31 4 = 0 →
      exec (.audStore 0 tag raw) s = .next (((s.taken 0 0x75 tag).setMedia { s.media with stored := some raw }).reply 0 0x75 tag .ok)) ∧
    (∀ (fall rise : List (List Bool)) (energy : Int), s.pwr.stageADone = true →
      ∃ t, exec (.recogniserHop g fall rise energy) s = .next t ∧ (t.media.group g).s = (s.media.group g).s + 160 ∧
        (t.media.group g).live = (s.media.group g).cfg ∧ (t.media.group g).wake = (s.media.group g).wakeCfg ∧
        (t.media.group g).ind = (s.media.group g).indCfg ∧ (t.media.group g).chainOff = !audPairOk (s.media.group g).cfg ∧
        (audOwner (s.media.group g).wakeCfg ≠ audOwner (s.media.group g).wake → (t.media.group g).session = none)) ∧
    (∀ (f : FnId) (gn mask : U32) (epoch : U16) (first : U64) (count : U32) (fmt : Fin 2) (part : PartId) (dest : U64) (o : Session) (n : Nat) (x : AudGroup)
        (bytes done : List Byte) (s1 : State),
      Served s f false false → gn.val = g.val → x = s.media.group g → audOwner x.wake = f.val → x.session = some o →
      mask.val &&& o.mask = mask.val → mask.val ≠ 0 → first.val % 256 = 0 → epoch.val = s.media.epoch % 65536 →
      x.s < first.val + 160000 → o.from_ ≤ first.val → n = min count.val (x.s / 256 - first.val / 256) →
      bytes = x.copyBytes mask first n fmt → done = toLE 4 (n * (audMics mask).length) ++ toLE 4 ((rangeFrom (first.val / 256) n).flatMap
        (fun b => (audMics mask).filter (fun i => x.badAt i b))).length →
      s1 = (s.taken f 0x70 tag).setGroup g { x with session := some { o with last := x.s } } →
      exec (.audCopy f tag gn mask epoch first count (Fin.castLE (by decide) fmt) 2 part dest) s =
        .next (((s1.accountFn f 4 bytes.length).hostWrite f dest bytes).reply f 0x70 tag .ok done) ∧
      (∀ y : Part, s.part part = some y → y.fn = f.val → y.clearing = false → s.stackedErr y part (s.gen part) dest bytes.length = none →
        exec (.audCopy f tag gn mask epoch first count (Fin.castLE (by decide) fmt) 1 part dest) s =
          .next ((s1.sliceWrite part (s.gen part) dest bytes).reply f 0x70 tag .ok done))) ∧
    (∀ (f : FnId) (gn : U32), Served s f false false → gn.val = g.val → audOwner (s.media.group g).wake = f.val →
      exec (.audReseal f tag gn) s = .next (((s.taken f 0x71 tag).closeSession g none).reply f 0x71 tag .ok)) ∧
    (∀ (f : FnId) (gn : U32) (part : PartId) (base : U64) (slots slotBytes : U32) (frameSync releaseSync : U16) (y : Part), Served s f false false →
      gn.val = g.val → audOwner (s.media.group g).wake = f.val → (s.media.group g).muted = false → (s.media.group g).settling = false →
      2 ≤ s.pwr.state → (s.media.group g).chainOff = false → s.part part = some y → y.fn = f.val → y.clearing = false →
      y.ownsStacked base (slots.val * slotBytes.val) = true → s.ownsSync part (s.gen part) frameSync = true →
      s.ownsSync part (s.gen part) releaseSync = true → base.val % 4096 = 0 → inRange slots 1 15 = true → slotBytes.val % 4096 = 0 →
      audSlotBytes (s.media.group g).live ≤ slotBytes.val →
      exec (.audStream f tag gn part base slots slotBytes frameSync releaseSync) s = .next (((s.taken f 0x72 tag).setMedia { s.media with
        streams := s.media.streams ++ [{
          group := g, fn := f, part := part, gen := s.gen part, base := base, slots := slots, slotBytes := slotBytes,
          frameSync := frameSync, releaseSync := releaseSync, started := 0, written := 0, recorded := 0,
          chains := [] }] }).reply f 0x72 tag .ok)) ∧
    (∀ (ix : Nat) (pdm : List (List (Bool × Bool))) (x : AudStream) (y : Part), s.errs.halted = false → 2 ≤ s.pwr.state → s.media.streams[ix]? = some x →
      (s.media.group x.group).chainOff = false → s.part x.part = some y → s.stale x.part x.gen = false →
      s.stackedErr y x.part x.gen (x.base + x.written % x.slots * x.slotBytes) (audSlotBytes (s.media.group x.group).live) = none →
      s.slotFree x.written x.slots x.releaseSync = true → audSlotBytes (s.media.group x.group).live ≤ x.slotBytes →
      ∃ t, exec (.audStreamSlot ix pdm) s = .next t ∧
        t.media.streams[ix]? = some { (x.hear (s.media.group x.group).live pdm).1 with started := x.started + 1, written := x.written + 1, recorded := x.started + 1 } ∧
        t.cpu.sync.flight = s.cpu.sync.flight ++ [{ sync := x.frameSync, add := 1, part := x.part, gen := x.gen }]) ∧
    (∀ (f : FnId) (first : U32), Served s f true false → s.audOwns f 0 = false → s.audOwns f 1 = false →
      exec (.wakeQueueRead f tag first) s = .next ((s.taken f 0x73 tag).reply f 0x73 tag .eSecDenied)) ∧
    (∀ (f : FnId) (first : U32), Served s f true false → s.audOwns f 0 = true ∨ s.audOwns f 1 = true →
      ∃ t, exec (.wakeQueueRead f tag first) s = .next t ∧
      t.media.wakes.map (·.raw) = s.media.wakes.map (·.raw) ∧
      ∀ r ∈ ((s.media.wakes.filter (fun r => r.owner == f.val)).drop first).take 7, ({ r with delivered := true } : WakeRec) ∈ t.media.wakes)

/-- Completes: WAKE_MATCH (R487), RUSTLE_TRIGGER (R59), SESSION_TIMEOUT (R477). A matched candidate ends: the group has an open session
from its unsealing point, the wake queue ends with its record, the event number counts, and a Rustle trigger for the owner is on its way.
The oldest trigger is taken from the queue, its event is due, and what is due goes to the functions whose link is up before the trigger
raises the owner's Glade. A session whose timeout has passed is sealed. (R59, R60, R477, R478, R485, R487, R488, R599) -/
def Obligations.WakesAndSessions : Prop :=
  ∀ (s : State) (g : GroupId),
    (∀ (c : Cand) (x : AudGroup), x = s.media.group g → x.cand = some c → c.matched = true → ∃ t o, exec (.wakeMatch g) s = .next t ∧
      (t.media.group g).cand = none ∧ (t.media.group g).session = some o ∧ o.last = x.s ∧ o.mask = audMask x.live ∧
      (x.session = none → o.from_ = x.unsealAt c.onset) ∧ (∀ old, x.session = some old → o.from_ = old.from_) ∧
      t.media.eventNo = (s.media.eventNo + 1) % 65536 ∧
      ∃ r, t.media.wakes.getLast? = some r ∧ r.owner = audOwner x.wake ∧ r.delivered = false ∧
        t.media.triggers = s.media.triggers ++ [{ owner := audOwner x.wake, record := r.raw, phrase := true }]) ∧
    (∀ (tr : Trigger) (rest : List Trigger) (s1 : State), s.media.triggers = tr :: rest →
      s1 = s.setMedia { s.media with triggers := rest, due := s.media.due ++ [tr] } →
      exec .rustleTrigger s = .next (s1.deliverWakes.rustle tr.owner)) ∧
    (∀ o : Session, (s.media.group g).session = some o → o.last + audTimeout (s.media.group g).wake * 16000 ≤ (s.media.group g).s →
      ∃ t, exec (.sessionTimeout g) s = .next t ∧ (t.media.group g).session = none ∧ (t.media.group g).s = (s.media.group g).s)

/-- Completes: LINK_UP (R498), LINK_RETRAIN (R501), PERST_ASSERT, DL_DOWN (R502), PERST_RELEASE (R608), PTM_DIALOGUE, PTM_SYNC_TIMEOUT
(R538), STAMP_ALIGN (R537), LINK_RECORD (R495). A powered link out of reset comes up at a legal rate, releasing WAKE_N where no other link
has to come back; FIRMWARE_LOST that is due (R572) and wake events held for its functions go out. Retraining is noted, voids the WCET of
partitions whose moves it holds up, and ends at a legal rate with what waited at the link's hop forwarded, a firmware load that waited
with its read (R501) then run. PERST_N resets a link that has been up, and before that is part of the start; its release lets the
functions answer. DL_Down resets the link. A dialogue gives the host's time, 100 ms without one ends the synchronisation. An island aligns
its stamp counter. PF0 stores a sound link record. (R494, R495, R498, R500, R501, R502, R537, R538, R539, R581, R608, R609) -/
def Obligations.LinkCommands : Prop :=
  ∀ (s : State) (l : LinkId) (x : Link), s.link l = x → s.hasLink l = true →
    (∀ (speed : Fin 8) (width : Fin 32), s.linkPowered l = true → x.perst = false → x.up = false → s.rateOk l speed width = true →
      ∃ u : State, u = (s.setPwr { s.pwr with
          wakeLow := s.pwr.wakeLow && (s.link (1 - l.val)).removed, fwLostDue := false }).changeLink l { x.at_ speed width with
        up := true, reached := true, removed := false, retraining := false } ∧
      exec (.linkUp l speed width) s = .next (if s.pwr.fwLostDue then u.event 0 .firmwareLost [] else u).deliverWakes) ∧
    (∀ (speed : Fin 8) (width : Fin 32), x.up = true →
      (x.retraining = false → exec (.linkRetrain l false speed width) s = .next (s.stallAll ((s.setHop l { s.hop l with used := [] }).setLink l
        { x with retraining := true, retrains := if x.retrains < 255 then x.retrains + 1 else 255 }).voidTroubled)) ∧
      (∀ u : State, x.retraining = true → s.rateOk l speed width = true →
        u = s.stallAll ((s.changeLink l { x.at_ speed width with retraining := false }).drainHop l) →
        (l.val = u.linkOf 0 ∧ u.pwr.stage ≠ 0 → exec (.linkRetrain l true speed width) s = .next u.runEarly) ∧
        (l.val ≠ u.linkOf 0 ∨ u.pwr.stage = 0 → exec (.linkRetrain l true speed width) s = .next u))) ∧
    (x.perst = false → x.reached = false → exec (.perstAssert l) s = .next (s.setLink l { x with perst := true })) ∧
    (x.perst = false → x.reached = true → exec (.perstAssert l) s =
      .next (((s.setLink l { x with perst := true }).resetLink l).changeLink l { x.down with perst := true })) ∧
    (x.perst = true → exec (.perstRelease l) s =
      .next ((s.fnsOf l).foldl State.settleFlr (s.setLink l { x with perst := false }))) ∧
    (x.up = true → exec (.dlDown l) s = .next ((s.resetLink l).changeLink l x.down)) ∧
    (∀ hostTime : U64, x.up = true → x.retraining = false → exec (.ptmDialogue l hostTime) s = .next (s.setLink l
      { x with ptm := true, ptmOffset := (hostTime % 2 ^ 62 + 2 ^ 62 - s.nowNs % 2 ^ 62) % 2 ^ 62 })) ∧
    (x.ptm = true → exec (.ptmSyncTimeout l) s = .next (s.setLink l { x with ptm := false, ptmOffset := 0 })) ∧
    (∀ i : IslandId, exec (.stampAlign i) s =
      .next { s with host := { s.host with aligned := Tbl.set 0 s.host.aligned i s.host.refTicks } }) ∧
    (∀ (tag : U32) (raw : List Byte), Served s 0 false false → linkRecordOk (slice raw 0 64) = true → exec (.linkRecord 0 tag raw) s =
      .next (((s.taken 0 0x90 tag).setPwr { s.pwr with linkRec := some (slice raw 0 64) }).reply 0 0x90 tag .ok))

/-- Completes: FN_LIMIT_WRITE, FN_QOS_WRITE (R548), FN_GROUP_OWNER_WRITE (R549), MEM_APT_WRITE (R508), APERTURE_ACCESS (R509), FLR (R555),
VF_DISABLE (R556), MGMT_EVENT_DELIVER (R717), UNKNOWN_OPCODE_REQUEST (R718). PF0's write of a limit or of weights is taken whole or
refused whole, a group changes hands with no ACTIVE context. A write with VALID maps a page that may be mapped and is refused for any
other, one without unmaps; a host write or read of a mapped page writes or reads its bytes; an unmapped one reads all ones and drops a
write; below 2 MiB the management area answers, its request ring taking what is written; an access over several pages is one to each; the
fatal halt leaves only the management area (R693). FLR and VF Disable reset VFs. A held event enters a ring with space while its link is
up (log entry 210). An unknown request is answered E_MSG_FORMAT. (R496, R508, R509, R548, R549, R554, R555, R556, R716, R717, R718) -/
def Obligations.FunctionRegistersAndResets : Prop :=
  ∀ (s : State) (f t : FnId) (value : U32),
    (s.acts →
      (∀ parts pages cores : Nat, parts = bits value 30 24 → pages = bits value 23 8 → cores = bits value 7 0 →
        (parts ≤ 64 ∧ cores ≤ 128 ∧ (s.held t).length ≤ parts ∧ coresHeld (s.held t) ≤ cores ∧ (pages = 0xFFFF ∨ pagesHeld (s.held t) ≤ pages) →
          exec (.fnLimitWrite 0 t value) s =
            .next (s.setFn t { s.fn t with limParts := parts, limPages := pages, limCores := cores, limRefused := false })) ∧
        (¬ (parts ≤ 64 ∧ cores ≤ 128 ∧ (s.held t).length ≤ parts ∧ coresHeld (s.held t) ≤ cores ∧
            (pages = 0xFFFF ∨ pagesHeld (s.held t) ≤ pages)) →
          exec (.fnLimitWrite 0 t value) s = .next (s.setFn t { s.fn t with limRefused := true }))) ∧
      (∀ e pc m : Nat, e = bits value 26 18 → pc = bits value 17 9 → m = bits value 8 0 →
        (e ≤ 256 ∧ pc ≤ 256 ∧ m ≤ 256 ∧ s.weightSum Fn.wEnergy t e ≤ 256 ∧ s.weightSum Fn.wPcie t pc ≤ 256 ∧
            s.weightSum Fn.wMem t m ≤ 256 ∧ shareHeld (s.held t) ≤ m →
          exec (.fnQosWrite 0 t value) s =
            .next (s.setFn t { s.fn t with wEnergy := e, wPcie := pc, wMem := m, qosRefused := false })) ∧
        (256 < e ∨ 256 < pc ∨ 256 < m ∨ 256 < s.weightSum Fn.wEnergy t e ∨ 256 < s.weightSum Fn.wPcie t pc ∨
            256 < s.weightSum Fn.wMem t m ∨ m < shareHeld (s.held t) →
          exec (.fnQosWrite 0 t value) s = .next (s.setFn t { s.fn t with qosRefused := true }))) ∧
      (∀ g : Fin 64, (∀ n, 64 * g.val ≤ n → n < 64 * g.val + 64 → (s.ctx n).active = false) → exec (.fnGroupOwnerWrite 0 g value) s =
        .next { s with host := { s.host with groupOwner := Tbl.set 0 s.host.groupOwner g (bits value 4 0),
                                             groupRefused := Tbl.set false s.host.groupRefused g false } }) ∧
      (∀ (g : Fin 64) (n : Nat), 64 * g.val ≤ n → n < 64 * g.val + 64 → (s.ctx n).active = true →
        bits value 4 0 ≠ Tbl.get 0 s.host.groupOwner g → exec (.fnGroupOwnerWrite 0 g value) s =
          .next { s with host := { s.host with groupRefused := Tbl.set false s.host.groupRefused g true } }) ∧
      (∀ j : Fin 4096, aptExists f j = true → bit value 31 = true → exec (.memAptWrite f j value) s =
        .next (s.setFn f { s.fn f with
          apt := Tbl.set 0 (s.fn f).apt j (BitVec.ofNat 32 ((if s.aptOk f (bits value 15 0) then 2 ^ 31 else 2 ^ 30) + bits value 15 0)) })) ∧
      (∀ j : Fin 4096, aptExists f j = true → bit value 31 = false → exec (.memAptWrite f j value) s =
        .next (s.setFn f { s.fn f with
          apt := Tbl.set 0 (s.fn f).apt j (BitVec.ofNat 32 ((if bit (Tbl.get (0 : Word) (s.fn f).apt j).toNat 30 then 2 ^ 30 else 0) +
            bits value 15 0)) }))) ∧
    (s.pwr.aon = false → ∀ (off : U64) (n : Nat) (write : Bool) (data : List Byte), exec (.apertureAccess f off n write data) s = .next s) ∧
    (∀ (off : U64) (n : Nat) (data : List Byte), s.pwr.aon = true → 0 < n → off.val + n ≤ 0x200000 →
      (off.val < 0x10000 ∨ 0x50000 < off.val + n → off.val % 4 = 0 → n = 4 → exec (.apertureAccess f off n true data) s =
        .next ((s.accountFn f 3 n).putControl f (off / 4) (leNat (slice data 0 4)))) ∧
      (off.val < 0x10000 ∨ 0x50000 < off.val + n → off.val % 4 ≠ 0 ∨ n ≠ 4 → exec (.apertureAccess f off n true data) s = .next (s.accountFn f 3 n)) ∧
      (0x10000 ≤ off.val → off.val + n ≤ 0x50000 → exec (.apertureAccess f off n true data) s = .next ((s.accountFn f 3 n).setFn f
        { (s.accountFn f 3 n).fn f with reqRing := Memory.writeN [] ((s.accountFn f 3 n).fn f).reqRing off (slice data 0 n) })) ∧
      exec (.apertureAccess f off n false data) s = .next ((s.accountFn f 4 n).emit
        (.barRead f ((rangeFrom off n).map (s.areaByte f)) false))) ∧
    (∀ (off : U64) (n : Nat) (write : Bool) (data : List Byte), s.acts → exec (.apertureAccess f off n write data) s =
      .next ((pagePieces off n).foldl (fun s e => s.bar2Access f e.1 e.2 write (slice data (e.1 - off) e.2)) s)) ∧
    (∀ (off : U64) (n : Nat) (data : List Byte) (e a : Nat), s.acts → 0x200000 ≤ off.val →
      0 < n → off.val % 0x200000 + n ≤ 0x200000 →
      e = (Tbl.get (0 : Word) (s.fn f).apt (off / 0x200000)).toNat → a = bits e 15 0 * 0x200000 + off % 0x200000 →
      (bit e 31 = false ∨ s.pageOwner (bits e 15 0) = none → exec (.apertureAccess f off n true data) s = .next s ∧
        exec (.apertureAccess f off n false data) s = .next (s.emit (.barRead f (List.replicate n 0xFF) false))) ∧
      (∀ p, bit e 31 = true → s.pageOwner (bits e 15 0) = some p →
        (s.stacksOn a n = true → exec (.apertureAccess f off n true data) s =
          .next ((s.account none p 3 n).sliceWrite p (s.gen p) a (slice data 0 n))) ∧
        (s.stacksOn a n = true → s.memHeld a n = false → exec (.apertureAccess f off n false data) s =
          .next (((s.accountStacked none p 2 false a n).account none p 4 n).emit (.barRead f (s.readMem a n) (s.poisoned a n)))) ∧
        (s.stacksOn a n = false → exec (.apertureAccess f off n true data) s = .next s ∧
          exec (.apertureAccess f off n false data) s = .next (s.emit (.barRead f (List.replicate n 0xFF) false))))) ∧
    (∀ (off : U64) (n : Nat) (write : Bool) (data : List Byte), s.errs.halted = true → 0x200000 ≤ off.val →
      exec (.apertureAccess f off n write data) s = .next s) ∧
    (f ≠ 0 → (s.host.split = false ∨ f.val ≠ s.host.link1First) → exec (.flr f) s = .next (s.resetFn 2 f)) ∧
    (∀ l : LinkId, s.hasLink l = true → exec (.vfDisable l) s =
      .next (((s.fnsOf l).filter (fun f => f != 0 && !(s.host.split && f == s.host.link1First))).foldl (fun s f => s.resetFn 3 f) s)) ∧
    (∀ (e : Event) (es : List Event) (x : Fn), s.fn f = x → x.held = e :: es → diff32 x.evtTail.toNat x.evtHead.toNat < 1024 → (s.link (s.linkOf f)).up = true →
      exec (.mgmtEventDeliver f) s = .next ((s.setFn f { x with
        held := es, evtTail := x.evtTail + 1,
        evtRing := Tbl.put x.evtRing (x.evtTail.toNat % 1024) (msgHeader e.code.num e.payload.length 0 0 f 0 ++ e.payload) }).sendMsg f 0)) ∧
    (∀ (op : U16) (tag : U32), Served s f false false → exec (.unknownOpcodeRequest f op tag) s =
      .next ((s.taken f op tag).reply f op tag .eMsgFormat))

/-- Completes: PWR_CFG_WRITE (R569), STATE_REQUEST (R576), STATE_REQUEST_TIMEOUT, REFUSER_RELEASE (R578), STATE_ENTRY (R579), STATE_RISE
(R582), THERMAL_GUARD_SAMPLE, THERMAL_RECOVERY_STEP (R588). PF0's PWR_CFG write is taken unless it moves the Sprout domains while they
run. A request waits while an entry, a rise or an admitted escalation is under way; else it replaces a pending one, and for the state in
force is answered OK, for a higher one begins a rise, for a lower one pends until descriptors, Clearings and refusers let it go; its
timeout answers E_STATE_BUSY or the lowest refuser. An entry no refuser holds enters the target, one that a refuser holds is answered with
it; a rise powers it, and enters it once the firmware runs where the retention check lost it (R572, R583); no rise goes on while the guard
locks them (R588). A sample updates the guard and acts by its stage; a cool guard raises clocks. (R569, R572, R576, R577, R578, R579,
R581, R582, R588, R603, spec/13_power_states_and_energy_ledger.md) -/
def Obligations.PowerStatesAndGuard : Prop :=
  ∀ (s : State),
    (∀ value : U32, s.acts → (s.pwr.state < 2 ∨ bits (value.val % 2 ^ 17) 3 0 = bits s.pwr.cfg.toNat 3 0) →
      (bit (value.val % 2 ^ 17) 0 = bit s.pwr.cfg.toNat 0 ∨ s.pwr.fw.running = false) →
      exec (.pwrCfgWrite 0 value) s = .next (s.setPwr { s.pwr with cfg := BitVec.ofNat 32 (value.val % 2 ^ 17) })) ∧
    (∀ value : U32, s.acts → (2 ≤ s.pwr.state ∧ bits (value.val % 2 ^ 17) 3 0 ≠ bits s.pwr.cfg.toNat 3 0) ∨
        (bit (value.val % 2 ^ 17) 0 ≠ bit s.pwr.cfg.toNat 0 ∧ s.pwr.fw.running = true) → exec (.pwrCfgWrite 0 value) s =
      .next (s.setPwr { s.pwr with cfg := BitVec.ofNat 32 (s.pwr.cfg.toNat % 2 ^ 31 + 2 ^ 31) })) ∧
    (∀ (tag target timeout : U32) (r : StateReq), Served s 0 false false → target.val ≤ 4 → (timeout.val = 0 ∨ (10 ≤ timeout.val ∧ timeout.val ≤ 2550)) →
      r = { owed := (s.fn 0).reqHead.toNat, target := target.val, counted := [],
            timeout := if timeout.val = 0 then 10 * max 1 (bits s.pwr.cfg.toNat 15 8) else timeout.val } →
      ((s.pwr.transit.isSome || s.pwr.escals.any (·.admitted)) = true → exec (.stateRequest 0 tag target timeout) s =
        .next ((s.taken 0 0x80 tag).setPwr { s.pwr with waiting := s.pwr.waiting ++ [r] })) ∧
      (∀ u, (s.pwr.transit.isSome || s.pwr.escals.any (·.admitted)) = false → u = (s.taken 0 0x80 tag).supersede →
        (target.val = s.pwr.state → exec (.stateRequest 0 tag target timeout) s = .next (u.answerReq r .ok)) ∧
        (s.pwr.state < target.val → s.pwr.thermal.lock = false → exec (.stateRequest 0 tag target timeout) s =
          .next (u.setPwr { u.pwr with transit := some { target := target.val, req := some r } })) ∧
        (s.pwr.state < target.val → s.pwr.thermal.lock = true → exec (.stateRequest 0 tag target timeout) s =
          .next (u.answerReq r .eStateRefused (Config.unstatedField 0))) ∧
        (target.val < s.pwr.state → exec (.stateRequest 0 tag target timeout) s =
          .next (u.setPwr { u.pwr with pending := some r }).checkPending))) ∧
    (s.errs.halted = false → exec .refuserRelease s = .next s.checkPending) ∧
    (∀ (r : StateReq) (c : State), s.errs.halted = false → s.checkPending = c → c.pwr.pending = some r →
      (c.busyBelow r.target = true ∨ c.clearingHolds r.target = true →
        exec .stateRequestTimeout s = .next ((c.setPwr { c.pwr with pending := none }).answerReq r .eStateBusy)) ∧
      (∀ i is, c.busyBelow r.target = false → c.clearingHolds r.target = false → c.holders r.target = i :: is →
        exec .stateRequestTimeout s = .next ((c.setPwr { c.pwr with pending := none }).answerReq r .eStateRefused i))) ∧
    (∀ (x : Transit) (c : State), s.errs.halted = false → s.pwr.transit = some x →
      (x.target < s.pwr.state → s.holders x.target = [] →
        c = (if x.target < 2 ∧ 2 ≤ s.pwr.state then s.downNotice x.target else s) →
        (exec (.stateEntry none) s = .next (((c.enter x.target).setPwr { (c.enter x.target).pwr with transit := none }).answerOpt
          x.req .ok).advance') ∧
        (∀ i, exec (.stateEntry (some i)) s = .next (((c.countRefusal i).setPwr { (c.countRefusal i).pwr with transit := none }).answerOpt
          x.req .eStateRefused i).advance')) ∧
      (∀ late i is, x.target < s.pwr.state → s.holders x.target = i :: is → exec (.stateEntry late) s =
        .next (((s.countRefusal i).setPwr { (s.countRefusal i).pwr with transit := none }).answerOpt x.req .eStateRefused i).advance') ∧
      (∀ (digestOk : Bool) (u : State), s.pwr.state ≠ 0 → s.pwr.state < x.target → s.pwr.thermal.lock = false →
        c = (if x.powered then s else if s.pwr.state < 2 then (s.powerTo x.target).wakeLinks.checkRetained digestOk else s.powerTo x.target) →
        u = c.setPwr { c.pwr with state := x.target, transit := none } →
        (2 ≤ c.pwr.state ∨ c.pwr.fwLost = false ∨ c.pwr.fw.running = true → exec (.stateRise digestOk) s =
          .next ((if c.pwr.state < 2 ∧ 2 ≤ x.target then u.camResume else u).audStateChanged.answerOpt x.req .ok).advance') ∧
        (c.pwr.state < 2 → c.pwr.fwLost = true → c.pwr.fw.running = false → exec (.stateRise digestOk) s =
          .next (c.setPwr { c.pwr with transit := some { x with powered := true } }))) ∧
      (∀ digestOk : Bool, s.pwr.thermal.lock = true → exec (.stateRise digestOk) s = .next s)) ∧
    (∀ (junction : Int) (old t : Thermal) (stage : Nat) (u v : State), s.errs.halted = false → s.unitsRun = true → old = s.pwr.thermal →
      t = s.sample junction → stage = (if 100 ≤ t.cool then s.thermalCond t else max old.stage (s.thermalCond t)) →
      u = s.setThermal { t with stage := stage } →
      v = (if stage = old.stage then u else u.event 0 .thermalStage (toLE 4 (stage + 256 * wrap 8 junction))).thermalAct stage
        (stage == 4 && old.stage != 4) (old.stage == 0) →
      exec (.thermalGuardSample junction) s = .next (if old.lock && !v.pwr.thermal.lock then v.advance' else v)) ∧
    (s.pwr.thermal.stage = 0 → (Tbl.keys s.pwr.thermal.point).Nodup → ∃ t, exec .thermalRecoveryStep s = .next t ∧
      t.work = s.work ∧ t.pwr.state = s.pwr.state ∧ ∀ n ∈ Tbl.keys s.pwr.thermal.point, ∀ part, (s.coreOwner n).bind s.part = some part →
        Tbl.get 3 t.pwr.thermal.point n =
          if part.maxClock ≤ Tbl.get 3 s.pwr.thermal.point n + 1 then 3 else Tbl.get 3 s.pwr.thermal.point n + 1)

/-- Completes: LEDGER_WINDOW_START (R591), LEDGER_HOLD (R594), PWR_LEDGER_CFG_WRITE, PWR_ALLOWANCE_WRITE (R589), TIER_REGISTER (R598),
ESCALATION_REQUEST (R599). A window start charges the debits, lets reservations lapse, opens the next window with its sub-allowances and
retests what waits. Debits that reach A put the window on HOLD. PF0 writes the window length and the allowance. A tier record is stored
when sound, else E_TIER_CONFIG. A rise of a tier's ESC_SYNC raises an escalation. (R589, R591, R593, R594, R598, R599, R601) -/
def Obligations.LedgerAndCascade : Prop :=
  ∀ (s : State),
    (∀ debits : List Debit, s.unitsRun = true → ∃ t, exec (.ledgerWindowStart debits) s = .next t ∧
      t.pwr.ledger.windowNo = (s.pwr.ledger.windowNo + 1) % 65536 ∧ t.pwr.ledger.curA = s.pwr.ledger.allowance.toNat ∧
      t.pwr.ledger.curMs = max 1 (min 1000 s.pwr.ledger.windowMs) ∧ t.pwr.ledger.hold = false) ∧
    (∀ (debits : List Debit) (t : State), t = s.debits debits → s.unitsRun = true → t.pwr.ledger.hold = false →
      t.pwr.ledger.curA * 1024 ≤ t.pwr.ledger.debited → exec (.ledgerHold debits) s =
        .next ((t.setLedger { t.pwr.ledger with hold := true }).wcetVoidAll 3)) ∧
    (∀ value : U32, s.acts →
      exec (.pwrLedgerCfgWrite 0 value) s = .next (s.setLedger { s.pwr.ledger with windowMs := bits value 9 0 }) ∧
      exec (.pwrAllowanceWrite 0 value) s = .next (s.setLedger { s.pwr.ledger with allowance := BitVec.ofNat 32 value })) ∧
    (∀ (tag t : U32) (raw r : List Byte), Served s 0 false false → r = slice raw 0 16 →
      (s.tierOk t r = true → exec (.tierRegister 0 tag t raw) s = .next (((s.taken 0 0x81 tag).setPwr { s.pwr with
        tiers := Tbl.put s.pwr.tiers t r,
        escSeen := Tbl.put s.pwr.escSeen t (s.syncValue (tierEsc r)) }).reply 0 0x81 tag .ok)) ∧
      (s.tierOk t r = false → exec (.tierRegister 0 tag t raw) s = .next ((s.taken 0 0x81 tag).reply 0 0x81 tag .eTierConfig))) ∧
    (∀ (t : Fin 4) (r : List Byte) (seen : Word), s.errs.halted = false → (t = 2 ∨ t = 3) → Tbl.find s.pwr.tiers t = some r →
      seen = Tbl.get 0 s.pwr.escSeen t →
      (0 < sdiff32 (s.syncValue (tierEsc r)).toNat seen.toNat → exec (.escalationRequest t) s =
        .next ((s.setPwr { s.pwr with escSeen := Tbl.put s.pwr.escSeen t (seen + 1) }).raiseEscal t 0)) ∧
      (sdiff32 (s.syncValue (tierEsc r)).toNat seen.toNat ≤ 0 → exec (.escalationRequest t) s = .next s))

/-- Completes: SIGNER_REVOKE (R654), SVN_COMMIT (R653), RELEASE_OPEN, RELEASE_CLOSE, RELEASE_ENTRY_TIMEOUT (R663), RELEASE_KEY (R665),
UNLOCK_NONCE, UNLOCK (R672), RECOG_IMAGE (R481). With its function's mailbox free the root of trust accepts a command and answers it. It
reads the buffer and SIGNER_REVOKE of a valid revocation image blows its bits unless that would revoke its own signer or leave none.
SVN_COMMIT raises a counter to the running image's version, does nothing when it stands there, or fails with E_FW_ROLLBACK. RELEASE_OPEN
adds an entry while fewer than 16 stand and the test port is closed, RELEASE_CLOSE and a timeout end it, RELEASE_KEY installs the key of a
sound message. UNLOCK_NONCE stores a fresh nonce, UNLOCK a token. A recogniser image is read, checked and kept until it takes effect.
While the link retrains a command that reads host memory stays. (R481, R643, R646, R647, R648, R653, R654, R663, R665, R668, R672) -/
def Obligations.MailboxAndRecogniser : Prop :=
  ∀ (s : State), s.errs.halted = false →
    (∀ (d b : List Byte) (u : State), (s.link (s.linkOf 0)).retraining = false → s.mailFree 0 → u = (s.mailGo 0 1 none).mailRead 0 (.data d) →
      b = u.mailBytes 0 d → exec (.signerRevoke 0 (.data d)) s = .next (match u.imageErr 3 b with
      | some e => u.mailDone 0 e []
      | none =>
        if fldBits (imgBody b) 0 31 4 ≠ 0 then u.mailDone 0 .eSecDenied []
        else if bit (fldBits (imgBody b) 0 3 0) (imgSigner b) = true ∨ validSigners (u.trust.revoke ||| fldBits (imgBody b) 0 3 0) = [] then
          u.mailDone 0 .eLastSigner []
        else (u.setTrust { u.trust with revoke := u.trust.revoke ||| fldBits (imgBody b) 0 3 0 }).mailDone 0 .ok [])) ∧
    (s.mailFree 0 →
      (∀ t : State, t = s.mailGo 0 2 (some 0) →
        (s.trust.fwSvn = s.trust.runSvn → exec (.svnCommit 0 0) s = .next (t.mailDone 0 .ok [])) ∧
        (s.trust.fwSvn < s.trust.runSvn → exec (.svnCommit 0 0) s =
          .next ((t.setTrust { t.trust with fwFuse := blowPairs s.trust.fwFuse s.trust.runSvn }).mailDone 0 .ok [])) ∧
        (s.trust.runSvn < s.trust.fwSvn → exec (.svnCommit 0 0) s = .next (t.mailDone 0 .eFwRollback []))) ∧
      (∀ t : State, t = s.mailGo 0 2 (some 1) →
        (s.trust.recogSvn = s.trust.recogImageSvn → exec (.svnCommit 0 1) s = .next (t.mailDone 0 .ok [])) ∧
        (s.trust.recogSvn < s.trust.recogImageSvn → exec (.svnCommit 0 1) s =
          .next ((t.setTrust { t.trust with recogFuse := blowPairs s.trust.recogFuse s.trust.recogImageSvn }).mailDone 0 .ok [])) ∧
        (s.trust.recogImageSvn < s.trust.recogSvn → exec (.svnCommit 0 1) s = .next (t.mailDone 0 .eFwRollback [])))) ∧
    (∀ (f : FnId) (p : U32) (r : Release) (t : State), s.mailFree f → s.ownsPart f p = true → s.trust.scope = none → s.trust.releases.length < 16 →
      r = { reqId := s.trust.nextReq, fn := f, part := p, gen := s.gen p, rand := slice (Config.freshRandom s.draws) 0 32 } →
      t = s.mailGo f 3 (some p) →
      exec (.releaseOpen f p) s = .next ((({ t with draws := s.draws + 1 } : State).setTrust { t.trust with
        releases := s.trust.releases ++ [r], nextReq := (s.trust.nextReq + 1) % 2 ^ 32 }).mailDone f .ok r.bytes)) ∧
    (∀ (f : FnId) (p : U32), s.mailFree f → s.ownsPart f p = true →
      (s.trust.scope ≠ none → exec (.releaseOpen f p) s = .next ((s.mailGo f 3 (some p)).mailDone f .eDebugOpen [])) ∧
      (s.trust.scope = none → 16 ≤ s.trust.releases.length →
        exec (.releaseOpen f p) s = .next ((s.mailGo f 3 (some p)).mailDone f .eSecBusy []))) ∧
    (∀ (f : FnId) (id : U32), s.mailFree f → s.trust.releases.any (fun r => r.reqId == id && r.fn == f) = true →
      exec (.releaseClose f id) s = .next (((s.mailGo f 5 (some id)).closeRelease id).mailDone f .ok [])) ∧
    (∀ id : U32, exec (.releaseEntryTimeout id) s = .next (s.closeRelease id)) ∧
    (∀ (f : FnId) (b : List Byte) (u : State), (s.link (s.linkOf f)).retraining = false → s.mailFree f → (s.mbox f).len.toNat = 384 →
      s.trust.identityOk = true → s.trust.scope = none → u = (s.mailGo f 4 none).mailRead f (.data b) →
      exec (.releaseKey f (.data b)) s = .next (match unwrapRelease b with
        | none => u.mailDone f .eRelease []
        | some msg => match u.releaseFor f msg with
          | none => (u.closeRelease (fld msg 0x28 4)).mailDone f .eRelease []
          | some r =>
            if (u.closeRelease r.reqId).decrypting r.part then (u.closeRelease r.reqId).mailDone f .eWeightSlotBusy []
            else (((u.closeRelease r.reqId).installKey r msg).1).mailDone f ((u.closeRelease r.reqId).installKey r msg).2.1
              ((u.closeRelease r.reqId).installKey r msg).2.2)) ∧
    (∀ (f : FnId) (host : HostRead), (s.link (s.linkOf f)).retraining = false → s.mailFree f →
      ((s.mbox f).len.toNat ≠ 384 → exec (.releaseKey f host) s = .next ((s.mailGo f 4 none).mailDone f .eSecDenied [])) ∧
      ((s.mbox f).len.toNat = 384 → s.trust.identityOk = false →
        exec (.releaseKey f host) s = .next ((s.mailGo f 4 none).mailDone f .eIdentityLost [])) ∧
      ((s.mbox f).len.toNat = 384 → s.trust.identityOk = true → s.trust.scope ≠ none →
        exec (.releaseKey f host) s = .next ((s.mailGo f 4 none).mailDone f .eDebugOpen []))) ∧
    (∀ (n : List Byte) (t : State), s.mailFree 0 → n = slice (Config.freshRandom s.draws) 0 32 → t = s.mailGo 0 6 none →
      exec (.unlockNonce 0) s = .next (({ t with draws := s.draws + 1, trust := { t.trust with nonce := some n } } : State).mailDone 0 .ok n)) ∧
    (∀ (d b : List Byte) (u : State), (s.link (s.linkOf 0)).retraining = false → s.mailFree 0 → u = (s.mailGo 0 7 none).mailRead 0 (.data d) →
      b = u.mailBytes 0 d → exec (.unlock 0 (.data d)) s = .next (match u.imageErr 4 b with
      | some e => u.mailDone 0 e []
      | none =>
        if slice (imgBody b) 0 12 ≠ slice Config.serial 0 12 ∨ some (slice (imgBody b) 16 32) ≠ u.trust.nonce ∨
            8 ≤ fld (imgBody b) 12 4 then u.mailDone 0 .eSecDenied []
        else (u.setTrust { u.trust with token := some (fld (imgBody b) 12 4) }).mailDone 0 .ok [])) ∧
    (∀ (tag : U32) (h : ImageRead) (u v : State), Served s 0 false false → (s.link (s.linkOf 0)).retraining = false →
      u = (s.taken 0 0x74 tag).hostRead 0 h.iova.toNat h.len.toNat 6 → v = u.accountFn 0 3 h.len.toNat →
      (∀ b, h.answer = .data b → exec (.recogImage 0 tag h) s = .next (match v.imageErr 2 b with
        | some e => (v.logError 3 e 184 0).reply 0 0x74 tag .eAudModel
        | none => (v.setMedia { v.media with
            nextImage := some (imgSvn b, sha256 (b.take (0x400 + imgLength b))) }).reply 0 0x74 tag .ok)) ∧
      (h.answer = .refused → exec (.recogImage 0 tag h) s = .next (u.reply 0 0x74 tag .eIovaFault)))

/-- Completes: GET_VERSION, GET_CAPABILITIES, NEGOTIATE_ALGORITHMS, GET_DIGESTS, GET_CERTIFICATE (R655), CHALLENGE, GET_MEASUREMENTS
(R656), SPDM_UNSUPPORTED_REQUEST (R655). GET_VERSION, GET_CAPABILITIES and NEGOTIATE_ALGORITHMS are always answered; with the identity
authenticated GET_DIGESTS, GET_CERTIFICATE of slot 0, CHALLENGE and GET_MEASUREMENTS are too, the last two signed over request and body,
and without it they answer an error. Another request answers unsupported, or the same error without the identity. An answer changes
nothing but what is sent. (R641, R642, R643, R655, R656) -/
def Obligations.SpdmRequests : Prop :=
  ∀ (s : State) (f : FnId) (req : List Byte), s.carriesSpdm f = true → s.errs.halted = false →
    exec (.getVersion f req) s = .next (s.emit (.spdm f (Config.spdmBody 0x04 (req ++ toLE 2 0x1200)))) ∧
    exec (.getCapabilities f req) s = .next (s.emit (.spdm f (Config.spdmBody 0x61 (req ++ (toLE 1 18 ++ toLE 4 0x36))))) ∧
    exec (.negotiateAlgorithms f req) s = .next (s.emit (.spdm f (Config.spdmBody 0x63 (req ++ (toLE 1 1 ++ toLE 4 2 ++ toLE 4 8 ++ toLE 4 1))))) ∧
    (∀ (slot index : U8) (off len : U16),
      (s.trust.identityOk = true →
        exec (.getDigests f req) s = .next (s.emit (.spdm f (Config.spdmBody 0x01 (req ++ sha256 certificateChain)))) ∧
        (slot.val = 0 → exec (.getCertificate f slot off len req) s =
          .next (s.emit (.spdm f (Config.spdmBody 0x02 (req ++ (certificateChain.drop off).take len))))) ∧
        (slot.val ≠ 0 → exec (.getCertificate f slot off len req) s = .next (s.emit (.spdm f (spdmError 0x01)))) ∧
        (∀ body, body = sha256 certificateChain ++ (rangeFrom 1 7).flatMap (fun i => (s.measurement i).getD []) →
          exec (.challenge f req) s =
            .next (s.emit (.spdm f (Config.spdmBody 0x03 (req ++ (body ++ identitySign (req ++ body))))))) ∧
        (0 < index.val → index.val < 255 → s.measurement index = none →
          exec (.getMeasurements f index req) s = .next (s.emit (.spdm f (spdmError 0x01)))) ∧
        (∀ body, (index.val = 0 ∧ body = toLE 1 8) ∨ (index.val = 255 ∧ body = (rangeFrom 1 7 ++ [0xF0]).flatMap (fun i => (s.measurement i).getD [])) ∨
            (0 < index.val ∧ index.val < 255 ∧ s.measurement index = some body) → exec (.getMeasurements f index req) s =
          .next (s.emit (.spdm f (Config.spdmBody 0x60 (req ++ (body ++ identitySign (req ++ body)))))))) ∧
      (s.trust.identityOk = false →
        exec (.getDigests f req) s = .next (s.emit (.spdm f (spdmError 0x05))) ∧
        exec (.getCertificate f slot off len req) s = .next (s.emit (.spdm f (spdmError 0x05))) ∧
        exec (.challenge f req) s = .next (s.emit (.spdm f (spdmError 0x05))) ∧
        exec (.getMeasurements f index req) s = .next (s.emit (.spdm f (spdmError 0x05))))) ∧
    exec (.spdmUnsupportedRequest f) s = .next (s.emit (.spdm f (spdmError (if s.trust.identityOk then 0x07 else 0x05))))

/-- Completes: FATAL_HALT (R692), TALLY_AUDIT (R679), TALLY_CLEARING_TIMEOUT (R564), D2D_PACKET_TAG_FAIL (R659), ERRLOG_READ (R694),
SPARE_READ (R704), SMBUS_MCTP_CONTROL, SMBUS_PLDM_SENSOR_READ (R543), SMBUS_ERRLOG_SUMMARY, SMBUS_ERRLOG_ENTRY, SMBUS_SPARE_SUMMARY,
SMBUS_SPARE_RECORD (R695). A fatal halt sets HALTED, drives both latches, disarms, logs and reports. An audit's step 1 opens its epoch and
its end closes it; one that balances changes nothing else; one that does not stops the partition it belongs to or halts. A Clearing whose
credits are not home ends with its identifier retired. Tag failures are counted and the sixteenth in a row voids guarantees. Log and spare
records are answered. (R543, R564, R659, R679, R680, R682, R691, R692, R693, R694, R695, R704) -/
def Obligations.ErrorReports : Prop :=
  ∀ (s : State),
    (∀ (island : IslandId) (detail : U64), s.errs.halted = false → s.pwr.aon = true →
      exec (.fatalHalt island detail) s = .next (s.fatal .eFatalHalt island detail false) ∧
      (s.fatal .eFatalHalt island detail false).errs.halted = true ∧ (s.fatal .eFatalHalt island detail false).pwr.safeLow = true ∧
      (s.fatal .eFatalHalt island detail false).pwr.faultLow = true ∧ (s.fatal .eFatalHalt island detail false).pwr.armed = false) ∧
    (∀ (pool : U32) (holder : Option Nat) (c : AuditCounts), s.errs.halted = false → s.unitsRun = true → c.opens = true → bits pool 31 29 ≤ 3 →
      (bits pool 31 29 < 3 → s.errs.audits.contains pool.val = false →
        exec (.tallyAudit pool holder c) s = .next { s with errs := { s.errs with audits := pool.val :: s.errs.audits } }) ∧
      (bits pool 31 29 = 3 ∨ s.errs.audits.contains pool.val = true → exec (.tallyAudit pool holder c) s = .next s)) ∧
    (∀ (pool : U32) (holder : Option Nat) (c : AuditCounts) (u : State), s.errs.halted = false → s.unitsRun = true → c.opens = false →
      u = s.endAudit pool → bits pool 31 29 < 3 →
      (auditPasses c (bits pool 31 29) = true → (bits pool 31 29 = 2 → u.signalsHome = true) → exec (.tallyAudit pool holder c) s = .next u) ∧
      (auditPasses c (bits pool 31 29) = false ∨ (bits pool 31 29 = 2 ∧ u.signalsHome = false) →
        (∀ p, u.violator pool holder c.foreign = some p →
          exec (.tallyAudit pool holder c) s = .next (u.violatePart pool p (auditDiff c))) ∧
        (u.violator pool holder c.foreign = none → exec (.tallyAudit pool holder c) s =
          .next ((u.tallyRecord pool 0 true (auditDiff c)).fatal .eTallyViolation (poolIsland pool) pool (u.poolDirty pool))))) ∧
    (∀ (pool : U32) (holder : Option Nat) (c : AuditCounts) (u : State), s.errs.halted = false → s.unitsRun = true → c.opens = false →
      u = s.endAudit pool → bits pool 31 29 = 3 →
      (u.energyDiff = 0 → exec (.tallyAudit pool holder c) s = .next u) ∧
      (u.energyDiff ≠ 0 → exec (.tallyAudit pool holder c) s =
        .next ((u.tallyRecord pool 0 true u.energyDiff).fatal .eTallyViolation (poolIsland pool) pool (u.poolDirty pool)))) ∧
    (∀ (p : PartId) (pool : U32) (diff : Int) (j : ClearingJob), s.job p = some j → 7 ≤ j.step → s.errs.halted = false →
      exec (.tallyClearingTimeout p pool diff) s = .next ((s.tallyPart pool p diff).clearFinish p).checkPending) ∧
    (∀ (link : D2dId) (dir : Fin 2) (fresh : Bool) (n : Nat) (u v : State), s.errs.halted = false →
      n = (if fresh then 0 else Tbl.get 0 s.trust.d2dFails link) + 1 →
      u = s.setTrust { s.trust with
        d2dCount := Tbl.set 0 s.trust.d2dCount (2 * link.val + dir.val) (Tbl.get 0 s.trust.d2dCount (2 * link.val + dir.val) + 1),
        d2dFails := Tbl.set 0 s.trust.d2dFails link (n % 16) } →
      v = u.corrected (.unstated 1) (180 + link.val) (2 * link.val + dir.val) →
      exec (.d2dPacketTagFail link dir fresh) s = .next (if n = 16 then v.noteRetrain link else v)) ∧
    (∀ (f : FnId) (tag ix : U32), Served s f true true →
      exec (.errlogRead f tag ix) s = .next ((s.taken f 0xA0 tag).reply f 0xA0 tag .ok ((s.errEntry ix).getD [])) ∧
      exec (.spareRead f tag ix) s = .next ((s.taken f 0xA1 tag).reply f 0xA1 tag .ok ((s.spareBytes ix).getD []))) ∧
    (s.pwr.aon = true → ∀ (ix : U16) (meter i : U32) (code : U8) (body : List Byte),
      exec (.smbusErrlogEntry i) s = .next (s.smbusSend ((s.errEntry i).getD [])) ∧
      exec (.smbusSpareRecord i) s = .next (s.smbusSend ((s.spareBytes i).getD [])) ∧
      exec .smbusErrlogSummary s = .next (s.smbusSend
        (toLE 4 s.errs.seqNo ++ toLE 4 s.errs.contained ++ toLE 4 s.errs.fatal ++ toLE 4 (b2n s.pwr.aFault))) ∧
      exec .smbusSpareSummary s = .next (s.smbusSend (toLE 4 s.sprSummary ++ toLE 4 s.sprLanes ++ toLE 4 s.errs.spares.length)) ∧
      exec (.smbusPldmSensorRead ix meter) s = .next (s.smbusSend (toLE 4 (wrap 32 (s.sensor ix meter)))) ∧
      (∀ u : State, u = { s with host := { s.host with eid := mctpEid s.host.eid code body } } →
        exec (.smbusMctpControl code body) s = .next (u.smbusSend (Config.mctpBody u.host.eid code body))))

/-- Completes: AGEING_MONITOR_READ (R696), CORE_MIGRATION (R699), SRAM_ROW_SWAP (R700), STACK_ROW_REPAIR, PSEUDO_CHANNEL_SWAP (R701),
UCIE_LANE_REPAIR (R702). A row of SRAM or stacked memory takes the next spare row, a pseudo-channel the next spare slice, a lane the next
spare lane, a due core the cluster's spare core: each writes a spare-map record and counts. With none left the part is retired or halved
and SPARE_EXHAUSTED is reported. A worn island is stepped up ten times at most. (R696, R697, R698, R699, R700, R701, R702, R703, R704) -/
def Obligations.SparesAndWear : Prop :=
  ∀ (s : State), s.errs.halted = false →
    (∀ (cluster uncorrectable : Bool) (unit : Fin 128) (bank row : U16) (key used island : Nat) (v : State), v = s.rowError cluster unit bank row uncorrectable →
      key = (if cluster then 128 + unit.val else unit.val) * 64 + bank.val → used = Tbl.get 0 s.errs.rowsUsed key →
      island = (if cluster then clusterIsland unit else coreIsland unit) → (cluster = true ∨ (s.core unit).tile = none) →
      (∀ r : State, used < (if cluster then 16 else 8) →
        r = v.spareRecord (if cluster then 3 else 2) (if uncorrectable then 3 else 2) unit (bank.val * 65536 + row.val) used island →
        exec (.sramRowSwap cluster unit bank row uncorrectable) s =
          .next { r with errs := { r.errs with rowsUsed := Tbl.set 0 r.errs.rowsUsed key (used + 1) } }) ∧
      (cluster = true → 16 ≤ used → exec (.sramRowSwap cluster unit bank row uncorrectable) s =
        .next (v.spareExhausted ((v.islandUsers island).map v.partFn) island)) ∧
      (∀ r : State, cluster = false → 8 ≤ used → r = { v with errs := { v.errs with coreDue := Tbl.put v.errs.coreDue unit 7 } } →
        exec (.sramRowSwap cluster unit bank row uncorrectable) s = .next (r.spareExhausted (r.coreFn unit) island))) ∧
    (∀ (stack : StackId) (ch : Fin 32) (key : Nat), key = 32 * stack.val + ch.val →
      (∀ (row : U32) (pg : U16) (uncorrectable ppr : Bool) (cause used : Nat), cause = (if uncorrectable then 3 else 2) →
        used = Tbl.get 0 s.errs.remapUsed key →
        exec (.stackRowRepair stack ch row pg uncorrectable ppr false) s =
          .next (s.stallAll (s.openSwap key (some (row.val, pg.val))).voidTroubled) ∧
        (s.swapReady key (some (row.val, pg.val)) = true →
          (ppr = true → exec (.stackRowRepair stack ch row pg uncorrectable ppr true) s =
            .next (s.closeSwap key (some (row.val, pg.val)) (fun u => u.spareRecord 4 cause key row 0 (stackIsland stack)))) ∧
          (ppr = false → used < 4096 → exec (.stackRowRepair stack ch row pg uncorrectable ppr true) s =
            .next (s.closeSwap key (some (row.val, pg.val)) (fun u => ({ u.spareRecord 5 cause key row used (stackIsland stack) with
              errs := { (u.spareRecord 5 cause key row used (stackIsland stack)).errs with
                remapUsed := Tbl.set 0 (u.spareRecord 5 cause key row used (stackIsland stack)).errs.remapUsed key (used + 1) } } : State)))) ∧
          (ppr = false → 4096 ≤ used → exec (.stackRowRepair stack ch row pg uncorrectable ppr true) s =
            .next (s.closeSwap key (some (row.val, pg.val)) (fun u => ((u.spareRecord 9 7 key pg 0xFFFFFFFF (stackIsland stack)).retirePage pg).spareExhausted
              ((u.pageOwner pg).toList.map u.partFn) (stackIsland stack)))))) ∧
      (∀ (cause : Fin 16) (used : Nat), used = Tbl.get 0 s.errs.slicesUsed stack →
        exec (.pseudoChannelSwap stack ch cause false) s =
          .next (s.stallAll (s.openSwap key none).voidTroubled) ∧
        (s.swapReady key none = true → used < 4 → exec (.pseudoChannelSwap stack ch cause true) s =
          .next (s.closeSwap key none (fun u => ({ u.spareRecord 6 cause key (u.slicePos key) (32 + used) (stackIsland stack) with
            errs := { (u.spareRecord 6 cause key (u.slicePos key) (32 + used) (stackIsland stack)).errs with
              slicesUsed := Tbl.set 0 (u.spareRecord 6 cause key (u.slicePos key) (32 + used) (stackIsland stack)).errs.slicesUsed stack (used + 1) } } : State)))) ∧
        (s.swapReady key none = true → 4 ≤ used → exec (.pseudoChannelSwap stack ch cause true) s =
          .next (s.closeSwap key none (fun u => ({ u with errs := { u.errs with
            deadSlices := Tbl.set false u.errs.deadSlices key true } } : State).spareExhausted
              ((u.stackUsers stack).map u.partFn) (stackIsland stack)))))) ∧
    (∀ (link : D2dId) (dir : Fin 2) (lane : Fin 1024) (training : Bool) (key used : Nat) (v r : State), key = 2 * link.val + dir.val →
      v = s.noteRetrain link → used = Tbl.get 0 s.errs.lanesUsed key →
      (used < 40 → r = v.spareRecord 7 (if training then 5 else 2) key lane used (180 + link.val) →
        exec (.ucieLaneRepair link dir lane training) s =
          .next { r with errs := { r.errs with lanesUsed := Tbl.set 0 r.errs.lanesUsed key (used + 1) } }) ∧
      (40 ≤ used → r = { v with errs := { v.errs with halfWidth := Tbl.set false v.errs.halfWidth key true } } →
        exec (.ucieLaneRepair link dir lane training) s = .next (r.spareExhausted [] (180 + link.val)))) ∧
    (∀ (n : CoreId) (cause : Nat) (selfTest : Bool), Tbl.find s.errs.coreDue n = some cause → Tbl.get false s.errs.retiredCores n = false →
      (s.core n).quiet = true → (s.core n).tile = none →
      (Tbl.get false s.errs.spareCoreUsed (n.val / 8) = false →
        ∃ t, exec (.coreMigration n selfTest) s = .next t ∧ Tbl.get false t.errs.spareCoreUsed (n.val / 8) = true ∧
          Tbl.find t.errs.coreDue n = none ∧ t.errs.spares.length = s.errs.spares.length + 1 ∧ (t.core n).work = none ∧
          ∀ m, m ≠ n.val → t.core m = s.core m) ∧
      (∀ r u : State, Tbl.get false s.errs.spareCoreUsed (n.val / 8) = true → (s.core n).resume = none →
        r = s.spareRecord 10 7 n (s.corePos n) 0xFFFFFFFF (coreIsland n) →
        u = { r with errs := { r.errs with
          retiredCores := Tbl.set false r.errs.retiredCores n true, coreDue := Tbl.del r.errs.coreDue n } } →
        exec (.coreMigration n selfTest) s = .next ((u.coreOff n).spareExhausted (u.coreFn n) (coreIsland n)))) ∧
    (∀ (ix : IslandId) (slack : U8) (m : Margin) (first : Option Nat) (u : State), s.unitsRun = true →
      first = (if s.pwr.stage = 0 then (s.margin ix).baseline else some ((s.margin ix).baseline.getD slack.val)) →
      m = { s.margin ix with slack := slack.val, base := first.getD 0, baseline := first } →
      u = s.setMargin ix m →
      (8 ≤ slack.val → exec (.ageingMonitorRead ix slack) s = .next u) ∧
      (slack.val < 8 → m.steps < 10 → (∀ k, m.stepAt = some k → k + 384000000 ≤ s.host.refTicks) →
        exec (.ageingMonitorRead ix slack) s = .next ((domainIslands ix).foldl (fun s j => s.setMargin j { s.margin j with
          steps := m.steps + 1, stepAt := some s.host.refTicks }) u)) ∧
      (slack.val < 5 → m.steps = 10 → islandCore ix = none →
        exec (.ageingMonitorRead ix slack) s = .next (if islandSpared ix then u.wornSlice ix else u.capIsland ix)) ∧
      (∀ n, slack.val < 5 → m.steps = 10 → islandCore ix = some n → Tbl.find s.errs.coreDue n = none →
        exec (.ageingMonitorRead ix slack) s = .next { u with errs := { u.errs with coreDue := Tbl.put s.errs.coreDue n 0 } }))

/-- Completes: BAR0_MISALIGNED_ACCESS (R730), COUNTER_LO_READ (R24), RC_REGISTER_READ (R26), REGISTER_WRITE (R55), GLB_SAFE_CLEAR (R734),
GLB_FAULT_CLEAR (R735), TRC_CTRL_WRITE (R723), TRACE_RECORD_EMIT (R722). A module with power counts a misaligned access and reads it as 0.
The low word of a counter is read and its high word latched. A register read gives the register's value. A write of a register without a
row of its own changes its fields and neither memory nor power. PF0 clears the safe latch once its cause is gone, the fault latch once the
thermal cause is cool, and sets the trace. An enabled point writes its record into the trace ring, or is counted as dropped when the ring
is full or its next hop has no room. (R24, R26, R55, R506, R690, R722, R723, R727, R730, R731, R734, R735) -/
def Obligations.RegisterAccess : Prop :=
  ∀ (s : State) (f : FnId),
    (∀ u : State, s.pwr.aon = true → u = s.setFn f { s.fn f with accessErr := if (s.fn f).accessErr < 0xFFFF then (s.fn f).accessErr + 1 else 0xFFFF } →
      exec (.bar0MisalignedAccess f true) s = .next u ∧ exec (.bar0MisalignedAccess f false) s = .next (u.emit (.regRead f 0))) ∧
    (∀ addr : U32, s.pwr.aon = true → s.counter f addr = none → exec (.counterLoRead f addr) s = .next (s.emit (.regRead f 0))) ∧
    (∀ (addr : U32) (v : Nat), s.pwr.aon = true → s.counter f addr = some v → exec (.counterLoRead f addr) s =
      .next ((s.setFn f { s.fn f with
        latch := Tbl.put (s.fn f).latch addr (BitVec.ofNat 32 (v / 2 ^ 32)) }).emit (.regRead f (BitVec.ofNat 32 v)))) ∧
    (∀ addr : U32, s.pwr.aon = true → addr.val % 4 = 0 → s.counter f addr = none → exec (.rcRegisterRead f addr) s =
      .next (((s.emit (.regRead f (BitVec.ofNat 32 (s.readReg f addr)))).useLatch f addr).clearRead f addr)) ∧
    (∀ (n : CtxId) (o : Nat) (off value : U32), s.acts → s.ctxFn n = f.val → o < 64 → o % 4 = 0 → off.val = 0x300000 + 64 * n.val + o →
      exec (.registerWrite f off value) s = .next (s.writeCtx n o value)) ∧
    (∀ off value : U32, s.acts → off.val % 4 = 0 → ∃ t, exec (.registerWrite f off value) s = .next t ∧ t.dmem = s.dmem ∧
      t.undef = s.undef ∧ t.poison = s.poison ∧ t.pwr = s.pwr ∧ t.errs = s.errs ∧ t.cpu = s.cpu ∧ t.pending = s.pending ∧
      ((∀ n : CtxId, off.val ≠ 0x300000 + 64 * n.val + 0x14) → t.sent = s.sent)) ∧
    (s.acts → exec (.glbSafeClear 0 false) s = .next (s.setPwr { s.pwr with safeLow := false, safeCause := 0 }) ∧
      exec (.glbSafeClear 0 true) s = .next s ∧
      (s.pwr.faultCause = 3 → s.pwr.thermal.junction < 95 →
        exec (.glbFaultClear 0) s = .next (s.setPwr { s.pwr with faultLow := false, faultCause := 0 })) ∧
      (s.pwr.faultCause ≠ 3 ∨ 95 ≤ s.pwr.thermal.junction → exec (.glbFaultClear 0) s = .next s) ∧
      (∀ (value : U32) (t : Trace), s.host.trace = t →
        (t.en = true → exec (.trcCtrlWrite 0 value) s = .next (s.setTrace { t with en := bit value 31 })) ∧
        (t.en = false → bit value 31 = true → exec (.trcCtrlWrite 0 value) s =
          .next (s.setTrace { t with en := true, ringLog2 := value.val % 32, tail := 0, head := 0, seq := [] })) ∧
        (t.en = false → bit value 31 = false → exec (.trcCtrlWrite 0 value) s =
          .next (s.setTrace { t with en := false, ringLog2 := value.val % 32 })))) ∧
    (∀ (point : U16) (island : IslandId) (p : PartId) (args : List Word) (t : Trace), s.host.trace = t → t.en = true →
      tracePoint point = true → bit (Tbl.get (0 : Word) t.enable (point.val / 32)).toNat (point.val % 32) = true → s.errs.halted = false →
      (∀ blocked : Bool, blocked = true ∨ s.traceBlocked = true ∨ 2 ^ t.ringLog2 ≤ diff32 t.tail.toNat t.head.toNat →
        exec (.traceRecordEmit point island f p args blocked) s = .next (s.setTrace { t with
          seq := Tbl.set 0 t.seq island ((Tbl.get 0 t.seq island + 1) % 2 ^ 32),
          drops := if t.drops = 0xFFFFFFFF then t.drops else t.drops + 1 })) ∧
      (s.traceBlocked = false → diff32 t.tail.toNat t.head.toNat < 2 ^ t.ringLog2 → ∃ u, exec (.traceRecordEmit point island f p args false) s = .next u ∧
        u.host.trace = { t with seq := Tbl.set 0 t.seq island ((Tbl.get 0 t.seq island + 1) % 2 ^ 32), tail := t.tail + 1 } ∧
        u.dmem = s.dmem ∧ u.pwr = s.pwr))

/-- Completes: POWER_ON (R607), RESTART_AFTER_SAVE (R606), STAGE_B (R611), WINDFALL_SAVE (R625), WINDFALL_ARMING_CHANGE (R622),
BANK_RETEST (R620), FW_LOAD (R707), START_STATUS (R617), FW_REGION_DECLARE (R630). A module without power starts with Stage A: its start
number rises and it is in Dormant before Stage B. Stage B with sound stacks enters Sprout once the default contexts have landed their
first frames, otherwise it sets B_FAULT and stays. A firmware load waits for Stage B's end, then is refused, or its image is checked and
runs, or its error is answered and kept as the outcome. Losing power saves an image when armed after Stage C, and in every case leaves the
module off. A bank's measurement and voltage are stored and arming is settled anew. (R606, R607, R610, R611, R613, R614, R617, R620, R622,
R625, R630, R707) -/
def Obligations.StartAndSave : Prop :=
  ∀ (s : State),
    (∀ (selfTest identity low0 low1 : Bool) (banks : List (Nat × Nat)), s.pwr.aon = false → ∀ t, t = s.powerDown.stageA selfTest identity low0 low1 banks →
      exec (.powerOn selfTest identity low0 low1 banks) s = .next t ∧
      (s.pwr.saved = true → exec (.restartAfterSave selfTest identity low0 low1 banks) s = .next t) ∧
      t.pwr.aon = true ∧ t.pwr.safeLow = true ∧ t.pwr.safeCause = 1 ∧
      (selfTest = true → t.pwr.stageADone = true ∧ t.pwr.stage = 0 ∧ t.pwr.startNo = s.pwr.startNo + 1 ∧ t.trust.identityOk = identity) ∧
      (selfTest = false → t.pwr.aFault = true ∧ t.pwr.faultLow = true ∧ t.pwr.startNo = s.pwr.startNo)) ∧
    (∀ (check : Fin 4) (stacksOk : Bool), s.pwr.stageADone = true → s.pwr.state = 0 → s.pwr.bFault = false → s.errs.halted = false → s.pwr.fw.early = none →
      (s.pwr.bOpen = false → ∃ t, exec (.stageB check stacksOk) s = .next t ∧
        (stacksOk = false → t.pwr.bFault = true ∧ t.pwr.state = 0 ∧ t.pwr.faultLow = true) ∧
        (stacksOk = true → s.errs.deadSlices = [] → t.pwr.bFault = false ∧
          ((t.pwr.state = 2 ∧ t.pwr.stage = 1) ∨ (t.pwr.state = 0 ∧ t.pwr.bOpen = true ∧ t.firstFrames = false)))) ∧
      (s.pwr.bOpen = true → exec (.stageB check stacksOk) s = .next (if s.firstFrames then s.enterSprout else s)) ∧
      s.enterSprout.pwr.state = 2 ∧ s.enterSprout.pwr.stage = 1 ∧ s.enterSprout.pwr.bOpen = false) ∧
    (∀ (cause : Fin 4), s.pwr.aon = true →
      ∃ t, exec (.windfallSave cause) s = .next t ∧ t.pwr.aon = false ∧ t.pwr.faultLow = true ∧ t.pending = s.pending ∧
        t.trust.revoke = s.trust.revoke ∧ t.trust.fwSvn = s.trust.fwSvn ∧ t.trust.recogSvn = s.trust.recogSvn ∧
        t.errs.spares = s.errs.spares ∧
        (s.saves = true → t.pwr.image = some (s.imageOf cause) ∧ t.pwr.saveNo = s.pwr.saveNo + 1) ∧
        (s.saves = false → t.pwr.image = s.pwr.image ∧ t.pwr.saveNo = s.pwr.saveNo)) ∧
    (s.unitsRun = true → ∀ v : U8, exec (.windfallArmingChange v) s = .next (s.setPwr { s.pwr with bankV := v.val }).rearm) ∧
    (∀ (b : Fin 4) (cap esr : U16), s.unitsRun = true → (Tbl.get Bank.reset s.pwr.banks b).state = 1 → 1900 ≤ cap.val → esr.val ≤ 40 →
      exec (.bankRetest b cap esr) s = .next (s.setPwr { s.pwr with
        banks := Tbl.set Bank.reset s.pwr.banks b { state := 1, esr := esr.val, cap := cap.val } }).rearm) ∧
    (∀ (b : Fin 4) (cap esr : U16), s.unitsRun = true → (Tbl.get Bank.reset s.pwr.banks b).state = 1 → (cap.val < 1900 ∨ 40 < esr.val) →
      exec (.bankRetest b cap esr) s = .next ((s.setPwr { s.pwr with
        banks := Tbl.set Bank.reset s.pwr.banks b { state := 3, esr := esr.val, cap := cap.val } }).spareRecord 8 6 b b 0xFFFFFFFF 185).rearm) ∧
    (∀ (tag : U32) (raw r : List Byte) (host : HostRead) (takes : Bool) (t u : State), Served s 0 true false →
      (s.link (s.linkOf 0)).retraining = false → r = slice raw 0 16 → fwLoadFormat r = true → t = s.taken 0 1 tag →
      s.pwr.bFault = false → s.pwr.fw.early = none →
      (s.pwr.stage = 0 → exec (.fwLoad 0 tag raw host takes) s =
        .next (t.setEarly (some { num := t.lastRequest 0, raw := r, host := host, takes := takes }))) ∧
      (0 < s.pwr.stage → t.fwLoadRefused r = true → exec (.fwLoad 0 tag raw host takes) s = .next (t.reply 0 1 tag .eFwLoadState)) ∧
      (0 < s.pwr.stage → t.fwLoadRefused r = false →
        u = (rangeFrom (fwGroup r) (fwGroups r)).foldl (fun (s : State) g => s.setGroupMode g true) t →
        ∀ (b : List Byte) (v w : State), host = .data b → fwBytes r ≤ b.length →
        v = u.setPwr { u.pwr with fw := { u.pwr.fw with
          area := some (fwGroup r, fwGroups r), areas := u.pwr.fw.areas ++ u.pwr.fw.area.toList } } →
        w = (v.hostRead 0 (fld r 0 8) (fwBytes r) 6).accountFn 0 3 (fwBytes r) →
        exec (.fwLoad 0 tag raw host takes) s = .next (match w.imageErr 1 (b.take (fwBytes r)) with
          | some e => (w.fwFail e).reply 0 1 tag e
          | none => (w.fwRun (b.take (fwBytes r)) takes).reply 0 1 tag .ok))) ∧
    (∀ (f : FnId) (tag : U32), Served s f true false → exec (.startStatus f tag) s = .next ((s.taken f 2 tag).reply f 2 tag .ok
      (toLE 4 ((s.taken f 2 tag).regGlb f 0x20) ++ toLE 4 (match s.pwr.fw.outcome with
        | some st => st.num
        | none => Config.unstatedField 2)))) ∧
    (∀ off len version : U32, s.pwr.fw.running = true → s.errs.halted = false →
      (len.val = 0 → exec (.fwRegionDeclare off len version) s = .next (s.setPwr { s.pwr with fw := { s.pwr.fw with region := none } })) ∧
      (0 < len.val → (off.val % 64 ≠ 0 ∨ len.val % 64 ≠ 0 ∨ 4 * 2 ^ 20 < len.val ∨ 6 * 2 ^ 20 < off.val + len.val) →
        exec (.fwRegionDeclare off len version) s = .next (s.logWrite 0 178 0 0 .eFwRegion))) ∧
    (∀ off len version : U32, s.pwr.fw.running = true → s.errs.halted = false → 0 < len.val → off.val % 64 = 0 → len.val % 64 = 0 →
      len.val ≤ 4 * 2 ^ 20 → off.val + len.val ≤ 6 * 2 ^ 20 → exec (.fwRegionDeclare off len version) s =
        .next (s.setPwr { s.pwr with fw := { s.pwr.fw with region := some (off.val, len.val, version.val) } }))

/-- From every state, whatever command stands at the front of the queue, a step leaves every blown revocation bit blown and neither anti-
rollback counter lower. (R640, R653, R654, spec/15_trust_keys_and_weights.md, spec/16_conservation_errors_and_spares.md) -/
def Obligations.NonVolatileCountersNeverFall : Prop :=
  ∀ (s t : State), step s = .next t →
    s.trust.revoke ||| t.trust.revoke = t.trust.revoke ∧ s.trust.fwSvn ≤ t.trust.fwSvn ∧ s.trust.recogSvn ≤ t.trust.recogSvn

/-- Before power-on the module is in Dormant with no domain powered and SAFE_N low with cause 1, every core idle with zero registers and
accumulators and an empty core store, every partition, context, sync object and log empty. PF0 holds every limit and weight, the other
functions none; PWR_CFG is 0x6400. The queue is empty and memory in its canonical form. (Values of registers that the spec leaves without
a reset value are the model's choice, log entry 3.) (R64, R508, R511, R548, R549, R569, R622, R735, spec/02_engines_cores_clusters.md,
spec/18_set_up_registers.md) -/
def Obligations.ResetState : Prop :=
  State.reset.MemOk ∧ State.reset.pending = [] ∧ State.reset.sent = [] ∧ State.reset.pwr.aon = false ∧ State.reset.pwr.state = 0 ∧
  State.reset.pwr.cfg = 0x6400 ∧ State.reset.pwr.safeLow = true ∧ State.reset.pwr.safeCause = 1 ∧
  State.reset.errs.halted = false ∧ State.reset.errs.log = [] ∧
  (∀ n, State.reset.core n = Core.reset ∧ (State.reset.core n).run = .idle ∧ State.reset.part n = none ∧ State.reset.ctx n = Ctx.reset ∧
    State.reset.syncObj n = none ∧ State.reset.domainOn n = false ∧ State.reset.gen n = 0) ∧
  (∀ f, f < 32 → (State.reset.fn f).limParts = (if f = 0 then 64 else 0) ∧ (State.reset.fn f).limPages = (if f = 0 then 0xFFFF else 0) ∧
    (State.reset.fn f).limCores = (if f = 0 then 128 else 0) ∧ (State.reset.fn f).wEnergy = (if f = 0 then 256 else 0) ∧
    (State.reset.fn f).wPcie = (if f = 0 then 256 else 0) ∧ (State.reset.fn f).wMem = (if f = 0 then 256 else 0)) ∧
  (∀ g, Tbl.get 0 State.reset.host.groupOwner g = 0)
end

