-- ==== Sys2Proof/Laws/Issue.lean ====
section
/-!
SUPPORT. How an instruction issues, a body begins, a management request is taken, a register is written and a mailbox command runs: each
said once.
-/
namespace Sys2Proof.Machine

/-- A core at an instruction runs the meaning of its opcode and no other. -/
theorem State.issue_at {s : State} {n : Nat} {c : Core} {w : Nat} (h : Issues s n c w) (op : Nat) (f : Core → Nat → State) :
    s.issue n op f = if opcodeOf w = op then .next (f c w) else .next s := by
  obtain ⟨h1, h2, h3⟩ := h
  simp [State.issue, h1, h2, h3]

/-- A core that does not issue is left as it is. -/
theorem State.issue_idle {s : State} {n : Nat} (h : s.issuing n = false) (op : Nat) (f : Core → Nat → State) : s.issue n op f = .next s := by
  simp [State.issue, h]

/-- A core that is ready runs a body instruction with its body begun. -/
theorem State.inBody_ready {s : State} {n : Nat} {c : Core} (h : c.bodyReady s.pwr.ledger.hold = true) (f : Core → State) :
    s.inBody n c f = f c.entered := by
  cases ht : c.tile with
  | none => simp [Core.bodyReady, ht] at h
  | some t =>
    simp [Core.bodyReady, ht] at h
    simp [State.inBody, State.inTile, ht, Core.entered, h]
    intro a b; simp_all

/-- A core that is ready runs an instruction that may stand anywhere, with its body begun when a tile is open. -/
theorem State.anyPlace_ready {s : State} {n : Nat} {c : Core} (h : c.anyReady s.pwr.ledger.hold = true) (f : Core → State) :
    s.anyPlace n c f = f c.entered := by
  cases ht : c.tile with
  | none => cases c; simp_all [State.anyPlace, Core.entered]
  | some t => simp [Core.anyReady, ht] at h; simp [State.anyPlace, ht, State.inBody_ready h]

/-! Beginning a body changes no register. -/

@[simp] theorem Core.entered_s (c : Core) : c.entered.s = c.s := rfl
@[simp] theorem Core.entered_a (c : Core) : c.entered.a = c.a := rfl
@[simp] theorem Core.entered_td (c : Core) : c.entered.td = c.td := rfl
@[simp] theorem Core.entered_v (c : Core) : c.entered.v = c.v := rfl
@[simp] theorem Core.entered_acc (c : Core) : c.entered.acc = c.acc := rfl
@[simp] theorem Core.entered_accFp (c : Core) : c.entered.accFp = c.accFp := rfl
@[simp] theorem Core.entered_pc (c : Core) : c.entered.pc = c.pc := rfl
@[simp] theorem Core.entered_loops (c : Core) : c.entered.loops = c.loops := rfl
@[simp] theorem Core.entered_commitQ (c : Core) : c.entered.commitQ = c.commitQ := rfl
@[simp] theorem Core.entered_compat (c : Core) : c.entered.compat = c.compat := rfl
@[simp] theorem Core.entered_owner (c : Core) : c.entered.owner = c.owner := rfl
@[simp] theorem Core.entered_work (c : Core) : c.entered.work = c.work := rfl
@[simp] theorem Core.entered_run (c : Core) : c.entered.run = c.run := rfl
@[simp] theorem Core.entered_sreg (c : Core) (i : Nat) : c.entered.sreg i = c.sreg i := rfl
@[simp] theorem Core.entered_areg (c : Core) (i : Nat) : c.entered.areg i = c.areg i := rfl
@[simp] theorem Core.entered_tdreg (c : Core) (i : Nat) : c.entered.tdreg i = c.tdreg i := rfl
@[simp] theorem Core.entered_lanes (c : Core) (i : Nat) : c.entered.lanes i = c.lanes i := rfl
@[simp] theorem Core.entered_opAt (c : Core) (i : Nat) : c.entered.opAt i = c.opAt i := rfl

/-! Requests, registers, mailbox. -/

@[simp] theorem State.taken_errs (s : State) (f op tag : Nat) : (s.taken f op tag).errs = s.errs := rfl
@[simp] theorem State.taken_pwr (s : State) (f op tag : Nat) : (s.taken f op tag).pwr = s.pwr := rfl
@[simp] theorem State.taken_work (s : State) (f op tag : Nat) : (s.taken f op tag).work = s.work := rfl
@[simp] theorem State.taken_cpu (s : State) (f op tag : Nat) : (s.taken f op tag).cpu = s.cpu := rfl
@[simp] theorem State.taken_media (s : State) (f op tag : Nat) : (s.taken f op tag).media = s.media := rfl
@[simp] theorem State.taken_mem (s : State) (f op tag : Nat) : (s.taken f op tag).mem = s.mem := rfl
@[simp] theorem State.taken_trust (s : State) (f op tag : Nat) : (s.taken f op tag).trust = s.trust := rfl

/-- A served request of sound form from an allowed issuer runs on the state in which it has been taken. -/
theorem State.request_served {s : State} {f op tag : Nat} {early ro : Bool} (h : Served s f early ro) (who : Issuer) (k : State → State)
    (hw : who.allows f = true) : s.request f op tag early ro who true k = .next (k (s.taken f op tag)) := by
  obtain ⟨a, b, c⟩ := h
  simp [State.request, a, hw]
  split
  · rename_i h; simp [h] at b
  · split
    · rename_i h; simp [h] at c
    · rfl

/-- A served request whose fields are out of form is answered E_MSG_FORMAT. -/
theorem State.request_form {s : State} {f op tag : Nat} {early ro : Bool} (h : Served s f early ro) (who : Issuer) (k : State → State) :
    s.request f op tag early ro who false k = .next ((s.taken f op tag).reply f op tag .eMsgFormat) := by
  obtain ⟨a, b, c⟩ := h
  simp [State.request, a]
  split
  · rename_i h; simp [h] at b
  · split
    · rename_i h; simp [h] at c
    · rfl

/-- A request of sound form that its issuer may not make is answered E_SEC_DENIED. -/
theorem State.request_denied {s : State} {f op tag : Nat} {early ro : Bool} (h : Served s f early ro) (who : Issuer) (k : State → State)
    (hw : who.allows f = false) : s.request f op tag early ro who true k = .next ((s.taken f op tag).reply f op tag .eSecDenied) := by
  obtain ⟨a, b, c⟩ := h
  simp [State.request, a, hw]
  split
  · rename_i h; simp [h] at b
  · split
    · rename_i h; simp [h] at c
    · rfl

/-- A request that finds the reply ring full stays where it is. -/
theorem State.request_full {s : State} {f : Nat} (h : diff32 (s.fn f).repTail.toNat (s.fn f).repHead.toNat + (s.fn f).owed.length = 512)
    (op tag : Nat) (early ro : Bool) (who : Issuer) (ok : Bool) (k : State → State) : s.request f op tag early ro who ok k = .next s := by
  simp [State.request, h]

/-- An allowed register write to a module that runs acts; one that is not allowed has no effect. -/
theorem State.regWrite_acts {s : State} {k : State → State} (h : s.acts) : s.regWrite true k = .next (k s) := by
  obtain ⟨h, ha⟩ := h
  simp [State.regWrite, h, ha]

theorem State.regWrite_refused (s : State) (k : State → State) : s.regWrite false k = .next s := by simp [State.regWrite]

/-- A mailbox command to a free mailbox runs to its end. -/
theorem State.mailbox_live {s : State} {f c : Nat} {a : Option Nat} {k : State → State × Status × List Byte}
    (h : s.errs.halted = false) (hf : s.mailFree f) :
    s.mailbox f c a true k = .next ((k (s.mailGo f c a)).1.mailDone f (k (s.mailGo f c a)).2.1 (k (s.mailGo f c a)).2.2) := by
  obtain ⟨h1, h2⟩ := hf
  simp [State.mailbox, h, h2, Mbox.takes, h1]

/-- A mailbox command of a function that may not send it ends with E_SEC_DENIED and does nothing else. -/
theorem State.mailbox_denied {s : State} {f c : Nat} {a : Option Nat} {k : State → State × Status × List Byte}
    (h : s.errs.halted = false) (hf : s.mailFree f) :
    s.mailbox f c a false k = .next ((s.mailGo f c a).mailDone f .eSecDenied []) := by
  obtain ⟨h1, h2⟩ := hf
  simp [State.mailbox, h, h2, Mbox.takes, h1]

end Sys2Proof.Machine
end

