-- ==== Sys2Proof/Laws/Table.lean ====
section
/-!
SUPPORT. Sparse tables: what is read after a key is set, and that setting keeps the keys rising.
-/
namespace Sys2Proof.Machine

variable {α : Type}

@[simp] theorem Tbl.find_nil (n : Nat) : Tbl.find ([] : Tbl α) n = none := rfl

@[simp] theorem Tbl.get_nil (d : α) (n : Nat) : Tbl.get d ([] : Tbl α) n = d := rfl

theorem Tbl.find_del (t : Tbl α) (n m : Nat) : Tbl.find (Tbl.del t n) m = if m = n then none else Tbl.find t m := by
  induction t with
  | nil => simp [Tbl.del, Tbl.find]
  | cons e t ih =>
    obtain ⟨k, v⟩ := e
    unfold Tbl.del at ih ⊢
    rw [List.filter_cons]
    by_cases hk : k = n
    · subst hk
      simp only [beq_self_eq_true, Bool.not_true, Bool.false_eq_true, if_false, ih, Tbl.find]
      by_cases hm : m = k
      · simp [hm]
      · simp [hm, Ne.symm hm]
    · rw [if_pos (by simp [hk])]
      simp only [Tbl.find, ih]
      by_cases hm : m = n
      · subst hm; simp [hk]
      · simp [hm]

theorem Tbl.find_ins (n m : Nat) (v : α) (t : Tbl α) (h : Tbl.find t n = none) :
    Tbl.find (Tbl.ins n v t) m = if m = n then some v else Tbl.find t m := by
  induction t with
  | nil =>
    simp only [Tbl.ins, Tbl.find]
    by_cases hm : m = n
    · simp [hm]
    · simp [hm, Ne.symm hm]
  | cons e t ih =>
    obtain ⟨k, w⟩ := e
    simp only [Tbl.find] at h
    by_cases hkn : k = n
    · simp [hkn] at h
    · rw [if_neg hkn] at h
      simp only [Tbl.ins]
      split
      · simp only [Tbl.find]; by_cases hm : m = n
        · simp [hm]
        · simp [hm, Ne.symm hm]
      · simp only [Tbl.find, ih h]
        by_cases hkm : k = m
        · subst hkm; simp [hkn]
        · simp [hkm]

theorem Tbl.find_put (t : Tbl α) (n m : Nat) (v : α) : Tbl.find (Tbl.put t n v) m = if m = n then some v else Tbl.find t m := by
  rw [Tbl.put, Tbl.find_ins _ _ _ _ (by simp [Tbl.find_del]), Tbl.find_del]
  by_cases h : m = n <;> simp [h]

@[simp] theorem Tbl.find_put_same (t : Tbl α) (n : Nat) (v : α) : Tbl.find (Tbl.put t n v) n = some v := by simp [Tbl.find_put]

theorem Tbl.find_put_ne (t : Tbl α) {n m : Nat} (v : α) (h : m ≠ n) : Tbl.find (Tbl.put t n v) m = Tbl.find t m := by
  simp [Tbl.find_put, h]

@[simp] theorem Tbl.get_put_same (d : α) (t : Tbl α) (n : Nat) (v : α) : Tbl.get d (Tbl.put t n v) n = v := by simp [Tbl.get]

theorem Tbl.get_put_ne (d : α) (t : Tbl α) {n m : Nat} (v : α) (h : m ≠ n) : Tbl.get d (Tbl.put t n v) m = Tbl.get d t m := by
  simp [Tbl.get, Tbl.find_put_ne t v h]

theorem Tbl.get_set [DecidableEq α] (d : α) (t : Tbl α) (n m : Nat) (v : α) :
    Tbl.get d (Tbl.set d t n v) m = if m = n then v else Tbl.get d t m := by
  unfold Tbl.get Tbl.set
  by_cases hv : v = d
  · rw [if_pos hv, Tbl.find_del]; by_cases h : m = n <;> simp [h, hv]
  · rw [if_neg hv, Tbl.find_put]; by_cases h : m = n <;> simp [h]

@[simp] theorem Tbl.get_set_same [DecidableEq α] (d : α) (t : Tbl α) (n : Nat) (v : α) : Tbl.get d (Tbl.set d t n v) n = v := by
  simp [Tbl.get_set]

theorem Tbl.get_set_ne [DecidableEq α] (d : α) (t : Tbl α) {n m : Nat} (v : α) (h : m ≠ n) :
    Tbl.get d (Tbl.set d t n v) m = Tbl.get d t m := by simp [Tbl.get_set, h]

/-! Rising keys. -/

theorem Tbl.sorted_iff (t : Tbl α) : Tbl.sorted t = true ↔ t.Pairwise (fun a b => a.1 < b.1) := by
  induction t with
  | nil => simp [Tbl.sorted]
  | cons e t ih =>
    cases t with
    | nil => simp [Tbl.sorted]
    | cons f t =>
      obtain ⟨a, v⟩ := e; obtain ⟨b, w⟩ := f
      simp only [Tbl.sorted, Bool.and_eq_true, decide_eq_true_eq, ih, List.pairwise_cons]
      constructor
      · rintro ⟨h, hb, ht⟩
        refine ⟨fun x hx => ?_, hb, ht⟩
        rcases List.mem_cons.1 hx with rfl | hx
        · exact h
        · exact Nat.lt_trans h (hb x hx)
      · rintro ⟨h, hb, ht⟩
        exact ⟨h _ (List.mem_cons_self ..), hb, ht⟩

theorem Tbl.mem_ins (n : Nat) (v : α) (t : Tbl α) (e : Nat × α) : e ∈ Tbl.ins n v t ↔ e = (n, v) ∨ e ∈ t := by
  induction t with
  | nil => simp [Tbl.ins]
  | cons f t ih =>
    obtain ⟨k, w⟩ := f
    simp only [Tbl.ins]
    split
    · simp
    · simp only [List.mem_cons, ih]
      constructor
      · rintro (h | h | h) <;> simp [h]
      · rintro (h | h | h) <;> simp [h]

theorem Tbl.sorted_filter (p : Nat × α → Bool) {t : Tbl α} (h : Tbl.sorted t = true) : Tbl.sorted (t.filter p) = true :=
  (Tbl.sorted_iff _).2 (((Tbl.sorted_iff _).1 h).filter p)

theorem Tbl.sorted_del {t : Tbl α} (h : Tbl.sorted t = true) (n : Nat) : Tbl.sorted (Tbl.del t n) = true := Tbl.sorted_filter _ h

theorem Tbl.sorted_ins {t : Tbl α} (n : Nat) (v : α) (h : Tbl.sorted t = true) (hn : ∀ e ∈ t, e.1 ≠ n) :
    Tbl.sorted (Tbl.ins n v t) = true := by
  rw [Tbl.sorted_iff] at *
  induction t with
  | nil => simp [Tbl.ins]
  | cons e t ih =>
    obtain ⟨k, w⟩ := e
    rw [List.pairwise_cons] at h
    simp only [Tbl.ins]
    split
    · rename_i hk
      rw [List.pairwise_cons]
      refine ⟨fun x hx => ?_, List.pairwise_cons.2 h⟩
      rcases List.mem_cons.1 hx with rfl | hx
      · exact hk
      · exact Nat.lt_trans hk (h.1 x hx)
    · rename_i hk
      have hne : k ≠ n := hn (k, w) (List.mem_cons_self ..)
      rw [List.pairwise_cons]
      refine ⟨fun x hx => ?_, ih h.2 (fun e he => hn e (List.mem_cons_of_mem _ he))⟩
      rcases (Tbl.mem_ins n v t x).1 hx with rfl | hx
      · show k < n; omega
      · exact h.1 x hx

theorem Tbl.mem_del {t : Tbl α} {n : Nat} {e : Nat × α} : e ∈ Tbl.del t n ↔ e ∈ t ∧ e.1 ≠ n := by
  simp [Tbl.del, List.mem_filter]

theorem Tbl.sorted_put {t : Tbl α} (h : Tbl.sorted t = true) (n : Nat) (v : α) : Tbl.sorted (Tbl.put t n v) = true :=
  Tbl.sorted_ins n v (Tbl.sorted_del h n) (fun _ he => (Tbl.mem_del.1 he).2)

theorem Tbl.mem_put {t : Tbl α} {n : Nat} {v : α} {e : Nat × α} : e ∈ Tbl.put t n v ↔ e = (n, v) ∨ (e ∈ t ∧ e.1 ≠ n) := by
  rw [Tbl.put, Tbl.mem_ins, Tbl.mem_del]

theorem Tbl.mem_keys {t : Tbl α} {n : Nat} : n ∈ Tbl.keys t ↔ ∃ v, (n, v) ∈ t := by
  simp [Tbl.keys]

theorem Tbl.mem_of_find {t : Tbl α} {n : Nat} {v : α} (h : Tbl.find t n = some v) : (n, v) ∈ t := by
  induction t with
  | nil => simp at h
  | cons e t ih =>
    obtain ⟨k, w⟩ := e
    simp only [Tbl.find] at h
    split at h
    · rename_i hk; cases h; subst hk; exact List.mem_cons_self ..
    · exact List.mem_cons_of_mem _ (ih h)

end Sys2Proof.Machine
end

