-- ==== Sys2Proof/Laws/Memory.lean ====
section
/-!
SUPPORT. Device memory: a byte reads as written, other bytes stay, and every memory operation keeps the canonical form.
-/
namespace Sys2Proof.Machine

/-! One byte. -/

theorem Memory.wf_iff (u : List FreeRange) (m : List Host.Cell) :
    Memory.wf u m = true ↔ Tbl.sorted m = true ∧ ∀ e ∈ m, e.2 = 0 → (freeAt u e.1).isSome = true := by
  simp only [Memory.wf, Bool.and_eq_true, List.all_eq_true, Bool.or_eq_true, Bool.not_eq_true', beq_eq_false_iff_ne, ne_eq]
  constructor
  · rintro ⟨h, g⟩; exact ⟨h, fun e he hz => (g e he).resolve_left (fun k => k hz)⟩
  · rintro ⟨h, g⟩; refine ⟨h, fun e he => ?_⟩
    by_cases hz : e.2 = 0
    · exact .inr (g e he hz)
    · exact .inl hz

theorem Memory.read_write_same (u : List FreeRange) (m : List Host.Cell) (a : Nat) (b : Byte) :
    Memory.read u (Memory.write u m a b) a = b := by
  unfold Memory.read Memory.write
  by_cases h : b = 0 ∧ freeAt u a = none
  · rw [if_pos h, Tbl.find_del, if_pos rfl]; simp [h.1, h.2]
  · rw [if_neg h, Tbl.find_put, if_pos rfl]

theorem Memory.read_write_ne (u : List FreeRange) (m : List Host.Cell) {a x : Nat} (b : Byte) (h : x ≠ a) :
    Memory.read u (Memory.write u m a b) x = Memory.read u m x := by
  unfold Memory.read Memory.write
  by_cases hb : b = 0 ∧ freeAt u a = none
  · rw [if_pos hb, Tbl.find_del, if_neg h]
  · rw [if_neg hb, Tbl.find_put, if_neg h]

theorem Memory.wf_write {u : List FreeRange} {m : List Host.Cell} (h : Memory.wf u m = true) (a : Nat) (b : Byte) :
    Memory.wf u (Memory.write u m a b) = true := by
  rw [Memory.wf_iff] at *
  unfold Memory.write
  split
  · exact ⟨Tbl.sorted_del h.1 a, fun e he => h.2 e (Tbl.mem_del.1 he).1⟩
  · rename_i hb
    refine ⟨Tbl.sorted_put h.1 a b, fun e he hz => ?_⟩
    rcases Tbl.mem_put.1 he with rfl | he
    · cases hf : freeAt u a with
      | none => exact absurd ⟨hz, hf⟩ hb
      | some _ => rfl
    · exact h.2 e he.1 hz

/-! Runs of bytes. -/

theorem Memory.wf_writeN {u : List FreeRange} {m : List Host.Cell} (h : Memory.wf u m = true) (a : Nat) (bs : List Byte) :
    Memory.wf u (Memory.writeN u m a bs) = true := by
  induction bs generalizing m a with
  | nil => exact h
  | cons b bs ih => exact ih (Memory.wf_write h a b) (a + 1)

theorem Memory.read_writeN (u : List FreeRange) (m : List Host.Cell) (a : Nat) (bs : List Byte) (x : Nat) :
    Memory.read u (Memory.writeN u m a bs) x = if a ≤ x ∧ x < a + bs.length then bs.getD (x - a) 0 else Memory.read u m x := by
  induction bs generalizing m a with
  | nil =>
    have : ¬ (a ≤ x ∧ x < a + ([] : List Byte).length) := by simp only [List.length_nil]; omega
    rw [if_neg this]; rfl
  | cons b bs ih =>
    rw [Memory.writeN, ih]
    simp only [List.length_cons]
    by_cases hx : x = a
    · subst hx
      rw [if_neg (by omega), if_pos (by omega), Memory.read_write_same]; simp
    · by_cases hr : a ≤ x ∧ x < a + (bs.length + 1)
      · rw [if_pos hr, if_pos (by omega)]
        obtain ⟨k, hk⟩ : ∃ k, x - a = k + 1 := ⟨x - a - 1, by omega⟩
        rw [hk, show x - (a + 1) = k by omega]; rfl
      · rw [if_neg hr, if_neg (by omega), Memory.read_write_ne u m b hx]

/-- What is written is read back. -/
theorem Memory.readN_writeN (u : List FreeRange) (m : List Host.Cell) (a : Nat) (bs : List Byte) :
    Memory.readN u (Memory.writeN u m a bs) a bs.length = bs := by
  apply List.ext_getElem
  · simp [Memory.readN]
  · intro i h1 h2
    simp [Memory.readN, Memory.read_writeN, h2]

/-- Bytes away from a write are read as before. -/
theorem Memory.readN_writeN_away (u : List FreeRange) (m : List Host.Cell) (a : Nat) (bs : List Byte) (x n : Nat)
    (h : x + n ≤ a ∨ a + bs.length ≤ x) : Memory.readN u (Memory.writeN u m a bs) x n = Memory.readN u m x n := by
  unfold Memory.readN
  refine List.map_congr_left (fun i hi => ?_)
  rw [List.mem_range] at hi
  rw [Memory.read_writeN, if_neg (by omega)]

theorem Memory.wf_outside {u : List FreeRange} {m : List Host.Cell} (h : Memory.wf u m = true) (a n : Nat) :
    Memory.wf u (Memory.outside m a n) = true := by
  rw [Memory.wf_iff] at *
  exact ⟨Tbl.sorted_filter _ h.1, fun e he => h.2 e (List.mem_filter.1 he).1⟩

/-! Free ranges. -/

theorem freeAt_isSome (u : List FreeRange) (a : Nat) : (freeAt u a).isSome = true ↔ ∃ f ∈ u, f.base ≤ a ∧ a < f.base + f.len := by
  induction u with
  | nil => simp [freeAt]
  | cons f u ih =>
    simp only [freeAt]
    by_cases h : f.base ≤ a ∧ a < f.base + f.len
    · rw [if_pos h]; simp [h]
    · rw [if_neg h, ih]; simp [h]

theorem freeAt_cut {u : List FreeRange} {a n x : Nat} (h : (freeAt u x).isSome = true) (hx : x < a ∨ a + n ≤ x) :
    (freeAt (u.flatMap (fun f => f.cut a n)) x).isSome = true := by
  rw [freeAt_isSome] at *
  obtain ⟨f, hf, h1, h2⟩ := h
  rcases hx with hx | hx
  · refine ⟨{ f with len := min (f.base + f.len) a - f.base }, List.mem_flatMap.2 ⟨f, hf, ?_⟩, ?_, ?_⟩
    · simp only [FreeRange.cut, List.mem_filter, bne_iff_ne, ne_eq]; refine ⟨by simp, by omega⟩
    · exact h1
    · show x < f.base + (min (f.base + f.len) a - f.base); omega
  · refine ⟨{ f with base := max f.base (a + n), len := f.base + f.len - max f.base (a + n) }, List.mem_flatMap.2 ⟨f, hf, ?_⟩, ?_, ?_⟩
    · simp only [FreeRange.cut, List.mem_filter, bne_iff_ne, ne_eq]; refine ⟨by simp, by omega⟩
    · show max f.base (a + n) ≤ x; omega
    · show x < max f.base (a + n) + (f.base + f.len - max f.base (a + n)); omega

/-! The operations of the state keep the canonical form. -/

theorem State.memOk_of {s t : State} (h : s.MemOk) (hm : t.dmem = s.dmem) (hu : t.undef = s.undef) : t.MemOk := by
  unfold State.MemOk at *; rw [hm, hu]; exact h

theorem State.setPoison_memOk {s : State} (h : s.MemOk) (a n : Nat) : (s.setPoison a n).MemOk := h

theorem State.clearPoison_memOk {s : State} (h : s.MemOk) (a n : Nat) : (s.clearPoison a n).MemOk := h

theorem State.writeUnit_memOk {s : State} (h : s.MemOk) (g a : Nat) (bs : List Byte) (q : Nat) : (s.writeUnit g a bs q).MemOk := by
  unfold State.writeUnit
  simp only []
  split
  · split
    · exact Memory.wf_writeN h _ _
    · exact h
  · exact Memory.wf_writeN h _ _

theorem foldl_keeps {α β : Type} (P : β → Prop) (f : β → α → β) (hf : ∀ b a, P b → P (f b a)) (l : List α) {b : β} (h : P b) :
    P (l.foldl f b) := by
  induction l generalizing b with
  | nil => exact h
  | cons a l ih => exact ih (hf b a h)

theorem State.writeMem_memOk {s : State} (h : s.MemOk) (a : Nat) (bs : List Byte) : (s.writeMem a bs).MemOk := by
  unfold State.writeMem
  split
  · exact Memory.wf_writeN h _ _
  · exact foldl_keeps State.MemOk _ (fun t q ht => State.writeUnit_memOk ht _ _ _ q) _ h

theorem State.writePoison_memOk {s : State} (h : s.MemOk) (a : Nat) (bs : List Byte) : (s.writePoison a bs).MemOk :=
  Memory.wf_writeN h _ _

theorem State.coreWrite_memOk {s : State} (h : s.MemOk) (n off : Nat) (bs : List Byte) : (s.coreWrite n off bs).MemOk :=
  State.writeMem_memOk h _ _

theorem State.zeroFill_memOk {s : State} (h : s.MemOk) (a n : Nat) : (s.zeroFill a n).MemOk := by
  show Memory.wf (s.undef.flatMap (fun f => f.cut a n)) (Memory.outside s.dmem a n) = true
  have h' := (Memory.wf_iff _ _).1 h
  refine (Memory.wf_iff _ _).2 ⟨Tbl.sorted_filter _ h'.1, fun e he hz => ?_⟩
  obtain ⟨hm, hp⟩ := List.mem_filter.1 he
  simp only [Bool.or_eq_true, decide_eq_true_eq] at hp
  exact freeAt_cut (h'.2 e hm hz) hp

theorem State.undefine_memOk {s : State} (h : s.MemOk) (a n : Nat) : (s.undefine a n).MemOk := by
  unfold State.undefine
  split
  · exact h
  · have h' := (Memory.wf_iff _ _).1 (Memory.wf_outside h a n)
    refine (Memory.wf_iff _ _).2 ⟨h'.1, fun e he hz => ?_⟩
    rw [freeAt_isSome]
    obtain ⟨f, hf, h1⟩ := (freeAt_isSome _ _).1 (h'.2 e he hz)
    exact ⟨f, List.mem_cons_of_mem _ hf, h1⟩

theorem State.padRange_memOk {s : State} (h : s.MemOk) (a n : Nat) (k : Padding) : (s.padRange a n k).MemOk := by
  unfold State.padRange
  split
  · exact h
  · have h' := (Memory.wf_iff _ _).1 (Memory.wf_outside h a n)
    refine (Memory.wf_iff _ _).2 ⟨h'.1, fun e he hz => ?_⟩
    rw [freeAt_isSome]
    obtain ⟨f, hf, h1⟩ := (freeAt_isSome _ _).1 (h'.2 e he hz)
    exact ⟨f, List.mem_cons_of_mem _ hf, h1⟩

theorem State.carryPads_memOk {s : State} (h : s.MemOk) (before : State) (src dst : List Nat) : (before.carryPads src dst s).MemOk := by
  unfold State.carryPads
  split
  · exact h
  · refine foldl_keeps State.MemOk _ (fun t e ht => ?_) _ h
    split
    · split
      · exact ht
      · exact State.padRange_memOk ht _ _ _
    · exact ht

theorem State.keepRanges_memOk {s : State} (h : s.MemOk) (n : Nat) (rs : List (Nat × Nat)) : (s.keepRanges n rs).MemOk :=
  foldl_keeps State.MemOk _ (fun _ _ ht => State.undefine_memOk ht _ _) _ h

theorem State.markPads_memOk {s : State} (h : s.MemOk) (a : Nat) (pads : List (Option Padding)) : (s.markPads a pads).MemOk := by
  refine foldl_keeps State.MemOk _ (fun t e ht => ?_) _ h
  split
  · split
    · exact ht
    · exact State.padRange_memOk ht _ _ _
  · exact ht

theorem State.writePiece_memOk {s : State} (h : s.MemOk) (base : Nat) (p : Piece) : (s.writePiece base p).MemOk := by
  unfold State.writePiece
  split
  · exact State.writePoison_memOk h _ _
  · exact State.writeMem_memOk h _ _

theorem State.padPiece_memOk {s : State} (h : s.MemOk) (base : Nat) (p : Piece) : (s.padPiece base p).MemOk := by
  unfold State.padPiece
  split
  · exact h
  · exact State.markPads_memOk h _ _

theorem State.writePieces_memOk {s : State} (h : s.MemOk) (base : Nat) (ps : List Piece) : (s.writePieces base ps).MemOk :=
  foldl_keeps State.MemOk _ (fun _ p ht => State.padPiece_memOk ht base p) ps
    (foldl_keeps State.MemOk _ (fun _ p ht => State.writePiece_memOk ht base p) _ h)

/-! Reading and writing through the state, where nothing is poisoned. -/

theorem State.readMem_writeMem {s : State} (h : s.poison = []) (a : Nat) (bs : List Byte) : (s.writeMem a bs).readMem a bs.length = bs := by
  simp only [State.writeMem, h, List.isEmpty_nil, if_true, State.readMem]; exact Memory.readN_writeN ..

theorem State.readMem_writeMem_away {s : State} (h : s.poison = []) (a : Nat) (bs : List Byte) (x n : Nat)
    (hx : x + n ≤ a ∨ a + bs.length ≤ x) : (s.writeMem a bs).readMem x n = s.readMem x n := by
  simp only [State.writeMem, h, List.isEmpty_nil, if_true, State.readMem]; exact Memory.readN_writeN_away _ _ _ _ _ _ hx

/-! What writing memory leaves alone. -/

theorem State.writeUnit_rest (s : State) (g a : Nat) (bs : List Byte) (q : Nat) :
    ∃ d p, s.writeUnit g a bs q = { s with dmem := d, poison := p } := by
  unfold State.writeUnit
  simp only []
  split
  · split
    · exact ⟨_, _, rfl⟩
    · exact ⟨s.dmem, s.poison, rfl⟩
  · exact ⟨_, s.poison, rfl⟩

/-- Writing device memory changes its bytes and poison, nothing else. -/
theorem State.writeMem_rest (s : State) (a : Nat) (bs : List Byte) : ∃ d p, s.writeMem a bs = { s with dmem := d, poison := p } := by
  unfold State.writeMem
  split
  · exact ⟨_, s.poison, rfl⟩
  · refine foldl_keeps (fun t : State => ∃ d p, t = { s with dmem := d, poison := p }) _ ?_ _ ⟨s.dmem, s.poison, rfl⟩
    rintro t q ⟨d, p, rfl⟩
    obtain ⟨d', p', h⟩ := State.writeUnit_rest { s with dmem := d, poison := p } (poisonUnit a) a bs q
    exact ⟨d', p', h⟩

/-- Noting padding changes the bytes of device memory and the record of free bytes, nothing else. -/
theorem State.padRange_rest (s : State) (a n : Nat) (k : Padding) : ∃ d u m, s.padRange a n k = { s with dmem := d, undef := u, draws := m } := by
  unfold State.padRange
  split
  · exact ⟨s.dmem, s.undef, s.draws, rfl⟩
  · exact ⟨_, _, _, rfl⟩

theorem State.markPads_rest (s : State) (a : Nat) (pads : List (Option Padding)) :
    ∃ d u m, s.markPads a pads = { s with dmem := d, undef := u, draws := m } := by
  refine foldl_keeps (fun t : State => ∃ d u m, t = { s with dmem := d, undef := u, draws := m }) _ ?_ _ ⟨s.dmem, s.undef, s.draws, rfl⟩
  rintro t e ⟨d, u, m, rfl⟩
  split
  · split
    · exact ⟨d, u, m, rfl⟩
    · obtain ⟨d', u', m', h⟩ := State.padRange_rest { s with dmem := d, undef := u, draws := m } e.1 1 ‹_›
      exact ⟨d', u', m', h⟩
  · exact ⟨d, u, m, rfl⟩

theorem State.padPiece_rest (s : State) (base : Nat) (q : Piece) : ∃ d u m, s.padPiece base q = { s with dmem := d, undef := u, draws := m } := by
  unfold State.padPiece
  split
  · exact ⟨s.dmem, s.undef, s.draws, rfl⟩
  · exact State.markPads_rest ..

/-- Writing a piece changes the bytes of device memory and their poison, nothing else. -/
theorem State.writePiece_rest (s : State) (base : Nat) (q : Piece) : ∃ d p, s.writePiece base q = { s with dmem := d, poison := p } := by
  unfold State.writePiece
  split
  · exact ⟨_, _, rfl⟩
  · exact State.writeMem_rest ..

/-- Writing pieces changes the bytes of device memory, their poison and the record of free bytes, nothing else. -/
theorem State.writePieces_rest (s : State) (base : Nat) (ps : List Piece) :
    ∃ d u p n, s.writePieces base ps = { s with dmem := d, undef := u, poison := p, draws := n } := by
  refine foldl_keeps (fun t : State => ∃ d u p n, t = { s with dmem := d, undef := u, poison := p, draws := n }) _ ?_ ps ?_
  · rintro t q ⟨d, u, p, n, rfl⟩
    obtain ⟨d', u', n', h⟩ := State.padPiece_rest { s with dmem := d, undef := u, poison := p, draws := n } base q
    exact ⟨d', u', p, n', h⟩
  · refine foldl_keeps (fun t : State => ∃ d u p n, t = { s with dmem := d, undef := u, poison := p, draws := n }) _ ?_ _
      ⟨s.dmem, s.undef, s.poison, s.draws, rfl⟩
    rintro t q ⟨d, u, p, n, rfl⟩
    obtain ⟨d', p', h⟩ := State.writePiece_rest { s with dmem := d, undef := u, poison := p, draws := n } base q
    exact ⟨d', u, p', n, h⟩

end Sys2Proof.Machine
end

