-- ==== Sys2Proof/Laws/Shared.lean ====
section
/-!
SUPPORT. What each shared operation can change: a state it answers differs from the one it was given in the named parts alone.
-/
namespace Sys2Proof.Machine

/-! Sending and counting. -/

/-- Sending to a host changes the link's hop and what has been sent. -/
theorem State.toHost_rest (s : State) (f c n : Nat) (o : Out) :
    ∃ h l, s.toHost f c n o = { s with host := { s.host with hops := h }, sent := l } := by
  unfold State.toHost
  dsimp only
  split
  · exact ⟨_, s.sent, rfl⟩
  · exact ⟨_, _, rfl⟩

theorem State.hostWriteFuel_rest (f : Nat) (po : Bool) (at_ : ReqAttr) (n a : Nat) (bs : List Byte) (s : State) :
    ∃ h l, State.hostWriteFuel f po at_ n a bs s = { s with host := { s.host with hops := h }, sent := l } := by
  induction n generalizing a bs s with
  | zero => exact ⟨s.host.hops, s.sent, rfl⟩
  | succ n ih =>
    unfold State.hostWriteFuel
    split
    · exact ⟨s.host.hops, s.sent, rfl⟩
    · obtain ⟨h, l, e⟩ := State.toHost_rest s f at_.tc (min 256 bs.length) (.hostWrite f a (bs.take 256) po at_)
      rw [e]
      obtain ⟨h', l', k⟩ := ih (a + 256) (bs.drop 256) { s with host := { s.host with hops := h }, sent := l }
      exact ⟨h', l', k⟩

/-- A posted write to host memory changes the link's hop and what has been sent. -/
theorem State.hostWrite_rest (s : State) (f a : Nat) (bs : List Byte) (po : Bool) (tc : Nat) (data : Bool) :
    ∃ h l, s.hostWrite f a bs po tc data = { s with host := { s.host with hops := h }, sent := l } :=
  State.hostWriteFuel_rest f po _ _ a bs s

/-- Accounting changes counters of the work. -/
theorem State.account_rest (s : State) (ctx : Option Nat) (p i n : Nat) : ∃ t, s.account ctx p i n = { s with work := { s.work with acct := t } } := by
  unfold State.account
  split
  · exact ⟨s.work.acct, rfl⟩
  · exact ⟨_, rfl⟩

theorem State.accountStacked_rest (s : State) (ctx : Option Nat) (p die : Nat) (w : Bool) (a n : Nat) :
    ∃ t, s.accountStacked ctx p die w a n = { s with work := { s.work with acct := t } } := by
  unfold State.accountStacked
  obtain ⟨t, h⟩ := State.account_rest s ctx p (if w then 2 else 1) n
  obtain ⟨u, k⟩ := State.account_rest (s.account ctx p (if w then 2 else 1) n) ctx p 5 (s.remoteBytes die a n)
  rw [h] at k
  exact ⟨u, by rw [← h] at k; rw [k, h]⟩

theorem State.exportFuel_rest (f p : Nat) (ps : List Piece) (n a off : Nat) (bs : List Byte) (s : State) :
    ∃ h l b, State.exportFuel f p ps n a off bs s =
      { s with host := { s.host with hops := h }, sent := l, trust := { s.trust with bindings := b } } := by
  induction n generalizing a off bs s with
  | zero => exact ⟨s.host.hops, s.sent, s.trust.bindings, rfl⟩
  | succ n ih =>
    cases bs with
    | nil => exact ⟨s.host.hops, s.sent, s.trust.bindings, rfl⟩
    | cons x xs =>
      cases hb : Tbl.find s.trust.bindings p with
      | none =>
        refine ⟨s.host.hops, s.sent, s.trust.bindings, ?_⟩
        unfold State.exportFuel
        simp only [hb]
      | some b =>
        unfold State.exportFuel
        simp only [hb]
        obtain ⟨h, l, e⟩ := State.hostWrite_rest s f a (exportRecord b b.counter ((x :: xs).take 4032)) (piecesBad ps off 4032) 3 true
        rw [e]
        obtain ⟨h', l', b', k⟩ := ih (a + 4096) (off + 4032) ((x :: xs).drop 4032) { s with
          host := { s.host with hops := h }, sent := l,
          trust := { s.trust with bindings := Tbl.put s.trust.bindings p { b with counter := b.counter + 1 } } }
        exact ⟨h', l', b', k⟩

/-- A write to host memory under a partition changes accounting, the link's hop, what has been sent and the counters of its binding. -/
theorem State.egress_rest (s : State) (ctx : Option Nat) (f p a n : Nat) (ps : List Piece) (d2d : Bool) :
    ∃ t h l b, s.egress ctx f p a n ps d2d =
      { s with work := { s.work with acct := t }, host := { s.host with hops := h }, sent := l, trust := { s.trust with bindings := b } } := by
  unfold State.egress
  dsimp only
  generalize (if (Tbl.find s.trust.weightKeys p).isNone = true then pieceBytes ps else cdiv n 4032 * 4096) = m
  obtain ⟨t, e⟩ := State.account_rest s ctx p 4 m
  have e2 : ∃ u, (if d2d = true then (s.account ctx p 4 m).account ctx p 5 m else s.account ctx p 4 m) =
      { s with work := { s.work with acct := u } } := by
    rw [e]
    split
    · obtain ⟨u, k⟩ := State.account_rest { s with work := { s.work with acct := t } } ctx p 5 m
      exact ⟨u, k⟩
    · exact ⟨t, rfl⟩
  obtain ⟨u, e2⟩ := e2
  rw [e2]
  split
  · have : ∃ h l, ps.foldl (fun s q => s.hostWrite f (a + q.off) q.data q.poison 3) ({ s with work := { s.work with acct := u } } : State) =
        { s with work := { s.work with acct := u }, host := { s.host with hops := h }, sent := l } := by
      refine foldl_keeps (fun x : State => ∃ h l, x = { s with work := { s.work with acct := u }, host := { s.host with hops := h }, sent := l })
        _ ?_ ps ⟨s.host.hops, s.sent, rfl⟩
      rintro x q ⟨h, l, rfl⟩
      obtain ⟨h', l', k⟩ := State.hostWrite_rest
        { s with work := { s.work with acct := u }, host := { s.host with hops := h }, sent := l } f (a + q.off) q.data q.poison 3 true
      exact ⟨h', l', k⟩
    obtain ⟨h, l, k⟩ := this
    exact ⟨u, h, l, s.trust.bindings, k⟩
  · obtain ⟨h, l, b, k⟩ := State.exportFuel_rest f p ps (cdiv n 4032) a 0 (flattenPieces n ps) { s with work := { s.work with acct := u } }
    exact ⟨u, h, l, b, k⟩

/-- A signal enters the flight of signals. -/
theorem State.signal_rest (s : State) (i add p g : Nat) : ∃ u, s.signal i add p g = { s with cpu := { s.cpu with sync := u } } := by
  unfold State.signal
  split
  · exact ⟨s.cpu.sync, rfl⟩
  · exact ⟨_, rfl⟩

/-! Messages, events and replies. -/

/-- A message changes function registers, the link's hop, pending counts of contexts and what has been sent. -/
theorem State.sendMsg_rest (s : State) (f v : Nat) :
    ∃ x h c l, s.sendMsg f v = { s with host := { s.host with fns := x, hops := h }, work := { s.work with ctxs := c }, sent := l } := by
  unfold State.sendMsg
  dsimp only
  split
  · exact ⟨_, s.host.hops, s.work.ctxs, s.sent, rfl⟩
  · obtain ⟨h, l, e⟩ := State.toHost_rest s f 0 4 (.msix f v)
    rw [e]
    refine foldl_keeps (fun t : State => ∃ x h c l, t =
        { s with host := { s.host with fns := x, hops := h }, work := { s.work with ctxs := c }, sent := l })
      _ ?_ _ ⟨s.host.fns, h, s.work.ctxs, l, rfl⟩
    rintro t n ⟨x, h, c, l, rfl⟩
    dsimp only
    split
    · exact ⟨x, h, _, l, rfl⟩
    · exact ⟨x, h, c, l, rfl⟩

/-- A log entry changes the log ring. -/
theorem State.logEvent_rest (s : State) (f : Nat) (code : Status) :
    ∃ g, s.logEvent f code = { s with host := { s.host with logRing := g } } := by
  unfold State.logEvent State.logWrite
  dsimp only
  split
  · generalize (if code.isError = true then 0 else 2) = lv
    split
    · exact ⟨s.host.logRing, rfl⟩
    · exact ⟨_, rfl⟩
  · exact ⟨s.host.logRing, rfl⟩

/-- An event changes function registers and the log ring. -/
theorem State.event_rest (s : State) (f : Nat) (code : Status) (pl : List Byte) (keep : Bool) :
    ∃ x g, s.event f code pl keep = { s with host := { s.host with fns := x, logRing := g } } := by
  unfold State.event
  obtain ⟨g, h⟩ := State.logEvent_rest s f code
  rw [h]
  dsimp only
  split <;> exact ⟨_, _, rfl⟩

theorem State.eventBoth_rest (s : State) (f : Nat) (code : Status) (pl : List Byte) :
    ∃ x g, s.eventBoth f code pl = { s with host := { s.host with fns := x, logRing := g } } := by
  unfold State.eventBoth
  split
  · exact State.event_rest ..
  · obtain ⟨x, g, h⟩ := State.event_rest s f code pl false
    obtain ⟨y, g', k⟩ := State.event_rest (s.event f code pl) 0 code pl false
    rw [h] at k
    exact ⟨y, g', by rw [← h] at k; rw [k, h]⟩

theorem State.putReply_rest (s : State) (f : Nat) (bs : List Byte) :
    ∃ x h c l, s.putReply f bs = { s with host := { s.host with fns := x, hops := h }, work := { s.work with ctxs := c }, sent := l } := by
  unfold State.putReply
  obtain ⟨x, h, c, l, e⟩ := State.sendMsg_rest (s.setFn f { s.fn f with
    repRing := Tbl.put (s.fn f).repRing ((s.fn f).repTail.toNat % 512) bs, repTail := (s.fn f).repTail + 1 }) f 0
  exact ⟨x, h, c, l, e⟩

theorem State.flushReplies_rest (f : Nat) (os : List Owed) (s : State) :
    ∃ x h c l, State.flushReplies f os s =
      { s with host := { s.host with fns := x, hops := h }, work := { s.work with ctxs := c }, sent := l } := by
  induction os generalizing s with
  | nil => exact ⟨_, s.host.hops, s.work.ctxs, s.sent, rfl⟩
  | cons o os ih =>
    unfold State.flushReplies
    split
    · rename_i b _
      obtain ⟨x, h, c, l, e⟩ := State.putReply_rest s f b
      obtain ⟨x', h', c', l', k⟩ := ih (s.putReply f b)
      rw [e] at k
      exact ⟨x', h', c', l', by rw [← e] at k; rw [k, e]⟩
    · exact ⟨_, s.host.hops, s.work.ctxs, s.sent, rfl⟩

/-- A reply changes function registers, the link's hop, pending counts of contexts and what has been sent. -/
theorem State.reply_rest (s : State) (f op tag : Nat) (st : Status) (pl : List Byte) (d : Nat) :
    ∃ x h c l, s.reply f op tag st pl d =
      { s with host := { s.host with fns := x, hops := h }, work := { s.work with ctxs := c }, sent := l } :=
  State.flushReplies_rest ..

theorem State.answer_rest (s : State) (f num : Nat) (st : Status) (pl : List Byte) (d : Nat) :
    ∃ x h c l, s.answer f num st pl d =
      { s with host := { s.host with fns := x, hops := h }, work := { s.work with ctxs := c }, sent := l } :=
  State.flushReplies_rest ..

/-- Taking a request changes its function's registers. -/
theorem State.taken_rest (s : State) (f op tag : Nat) : ∃ x, s.taken f op tag = { s with host := { s.host with fns := x } } := ⟨_, rfl⟩

/-! The error log and the spare map. -/

/-- An error-log entry changes the error state. -/
theorem State.logError_rest (s : State) (cls : Nat) (code : Status) (i d : Nat) (prior : Bool) :
    ∃ e, s.logError cls code i d prior = { s with errs := e } := by
  unfold State.logError
  dsimp only
  split
  · exact ⟨_, rfl⟩
  · exact ⟨_, rfl⟩

theorem State.contained_rest (s : State) (code : Status) (i d : Nat) :
    ∃ e x g l, s.contained code i d = { s with errs := e, host := { s.host with fns := x, logRing := g }, sent := l } := by
  unfold State.contained
  obtain ⟨e, h⟩ := State.logError_rest s 1 code i d false
  simp only [h]
  obtain ⟨x, g, k⟩ := State.event_rest { s with errs := e } 0 code (toLE 8 d) false
  simp only [k]
  exact ⟨_, _, _, _, rfl⟩

theorem State.corrected_rest (s : State) (code : Status) (i d : Nat) : ∃ e l, s.corrected code i d = { s with errs := e, sent := l } := by
  unfold State.corrected
  obtain ⟨e, h⟩ := State.logError_rest s 0 code i d false
  rw [h]
  exact ⟨_, _, rfl⟩

theorem State.spareRecord_rest (s : State) (kind cause lg ph sp i : Nat) :
    ∃ e x g, s.spareRecord kind cause lg ph sp i = { s with errs := e, host := { s.host with fns := x, logRing := g } } := by
  unfold State.spareRecord
  dsimp only
  obtain ⟨e, h⟩ := State.logError_rest { s with errs := { s.errs with spares := s.errs.spares ++ [{
    kind := kind, cause := cause, startNo := s.pwr.startNo, time := s.nowNs % 2 ^ 62, logical := lg, physical := ph, spare := sp }] } }
    3 .spareSwapped i s.errs.spares.length false
  rw [h]
  split
  · obtain ⟨x, g, k⟩ := State.event_rest { s with errs := e } 0 .spareSwapped (toLE 4 s.errs.spares.length) false
    exact ⟨e, x, g, k⟩
  · exact ⟨e, s.host.fns, s.host.logRing, rfl⟩

/-! Completion records. -/

/-- A completion record changes accounting, contexts, function registers, the link's hop and what has been sent. -/
theorem State.writeRecord_rest (s : State) (n : Nat) (r : Rec) (now : Bool) :
    ∃ t c x h l, s.writeRecord n r now =
      { s with work := { s.work with acct := t, ctxs := c }, host := { s.host with fns := x, hops := h }, sent := l } := by
  unfold State.writeRecord
  dsimp only
  obtain ⟨h, l, e⟩ := State.hostWrite_rest s (s.ctxFn n) ((s.ctx n).cqBase + (s.ctx n).cqTail.toNat % 2 ^ (s.ctx n).cqLog2 * 32)
    (r.bytes (((s.ctx n).cqTail.toNat / 2 ^ (s.ctx n).cqLog2) % 2 == 0) (s.ctx n).sqHead.toNat (s.stampFor (s.ctxFn n))) false 0 false
  rw [e]
  obtain ⟨t, k⟩ := State.account_rest { s with host := { s.host with hops := h }, sent := l } (some n) (s.ctx n).part 4 32
  rw [k]
  split
  · obtain ⟨x, h', c, l', m⟩ := State.sendMsg_rest (State.setCtx { s with
        host := { s.host with hops := h }, sent := l, work := { s.work with acct := t } } n
      { s.ctx n with cqTail := (s.ctx n).cqTail + 1, pending := (s.ctx n).pending + 1 }) (s.ctxFn n)
      ({ s.ctx n with cqTail := (s.ctx n).cqTail + 1, pending := (s.ctx n).pending + 1 } : Ctx).entry
    exact ⟨t, c, x, h', l', m⟩
  · exact ⟨t, _, s.host.fns, h, l, rfl⟩

/-- The energy credited to an accounting key changes its counter and the ledger's carried fraction. -/
theorem State.creditKey_rest (s : State) (key n : Nat) :
    ∃ t f, s.creditKey key n = { s with work := { s.work with acct := t }, pwr := { s.pwr with ledger := { s.pwr.ledger with frac := f } } } :=
  ⟨_, _, rfl⟩

/-- Driving a safe pin changes the pins. -/
theorem State.driveSafe_rest (s : State) (c : Nat) : ∃ a b, s.driveSafe c = { s with pwr := { s.pwr with safeLow := a, safeCause := b } } := by
  unfold State.driveSafe
  split
  · exact ⟨s.pwr.safeLow, s.pwr.safeCause, rfl⟩
  · exact ⟨_, _, rfl⟩

theorem State.driveFault_rest (s : State) (c : Nat) : ∃ a b, s.driveFault c = { s with pwr := { s.pwr with faultLow := a, faultCause := b } } := by
  unfold State.driveFault
  split
  · exact ⟨s.pwr.faultLow, s.pwr.faultCause, rfl⟩
  · exact ⟨_, _, rfl⟩

end Sys2Proof.Machine
end

