-- ==== Sys2Proof/Laws/State.lean ====
section
/-!
SUPPORT. What each update of the state leaves as it was, and what is read after it.
-/
namespace Sys2Proof.Machine

variable (s : State)


/-! setCore -/

@[simp] theorem State.setCore_pending (n : Nat) (c : Core) : (s.setCore n c).pending = s.pending := rfl
@[simp] theorem State.setCore_work (n : Nat) (c : Core) : (s.setCore n c).work = s.work := rfl
@[simp] theorem State.setCore_host (n : Nat) (c : Core) : (s.setCore n c).host = s.host := rfl
@[simp] theorem State.setCore_errs (n : Nat) (c : Core) : (s.setCore n c).errs = s.errs := rfl
@[simp] theorem State.setCore_pwr (n : Nat) (c : Core) : (s.setCore n c).pwr = s.pwr := rfl
@[simp] theorem State.setCore_mem (n : Nat) (c : Core) : (s.setCore n c).mem = s.mem := rfl
@[simp] theorem State.setCore_trust (n : Nat) (c : Core) : (s.setCore n c).trust = s.trust := rfl
@[simp] theorem State.setCore_media (n : Nat) (c : Core) : (s.setCore n c).media = s.media := rfl
@[simp] theorem State.setCore_dmem (n : Nat) (c : Core) : (s.setCore n c).dmem = s.dmem := rfl
@[simp] theorem State.setCore_undef (n : Nat) (c : Core) : (s.setCore n c).undef = s.undef := rfl
@[simp] theorem State.setCore_poison (n : Nat) (c : Core) : (s.setCore n c).poison = s.poison := rfl
@[simp] theorem State.setCore_draws (n : Nat) (c : Core) : (s.setCore n c).draws = s.draws := rfl
@[simp] theorem State.setCore_sent (n : Nat) (c : Core) : (s.setCore n c).sent = s.sent := rfl
@[simp] theorem State.setCore_cpu_clusters (n : Nat) (c : Core) : (s.setCore n c).cpu.clusters = s.cpu.clusters := rfl
@[simp] theorem State.setCore_cpu_sync (n : Nat) (c : Core) : (s.setCore n c).cpu.sync = s.cpu.sync := rfl
@[simp] theorem State.setCore_cpu_post (n : Nat) (c : Core) : (s.setCore n c).cpu.post = s.cpu.post := rfl

/-! setCluster -/

@[simp] theorem State.setCluster_pending (k : Nat) (c : Cluster) : (s.setCluster k c).pending = s.pending := rfl
@[simp] theorem State.setCluster_work (k : Nat) (c : Cluster) : (s.setCluster k c).work = s.work := rfl
@[simp] theorem State.setCluster_host (k : Nat) (c : Cluster) : (s.setCluster k c).host = s.host := rfl
@[simp] theorem State.setCluster_errs (k : Nat) (c : Cluster) : (s.setCluster k c).errs = s.errs := rfl
@[simp] theorem State.setCluster_pwr (k : Nat) (c : Cluster) : (s.setCluster k c).pwr = s.pwr := rfl
@[simp] theorem State.setCluster_mem (k : Nat) (c : Cluster) : (s.setCluster k c).mem = s.mem := rfl
@[simp] theorem State.setCluster_trust (k : Nat) (c : Cluster) : (s.setCluster k c).trust = s.trust := rfl
@[simp] theorem State.setCluster_media (k : Nat) (c : Cluster) : (s.setCluster k c).media = s.media := rfl
@[simp] theorem State.setCluster_dmem (k : Nat) (c : Cluster) : (s.setCluster k c).dmem = s.dmem := rfl
@[simp] theorem State.setCluster_undef (k : Nat) (c : Cluster) : (s.setCluster k c).undef = s.undef := rfl
@[simp] theorem State.setCluster_poison (k : Nat) (c : Cluster) : (s.setCluster k c).poison = s.poison := rfl
@[simp] theorem State.setCluster_draws (k : Nat) (c : Cluster) : (s.setCluster k c).draws = s.draws := rfl
@[simp] theorem State.setCluster_sent (k : Nat) (c : Cluster) : (s.setCluster k c).sent = s.sent := rfl
@[simp] theorem State.setCluster_cpu_cores (k : Nat) (c : Cluster) : (s.setCluster k c).cpu.cores = s.cpu.cores := rfl
@[simp] theorem State.setCluster_cpu_sync (k : Nat) (c : Cluster) : (s.setCluster k c).cpu.sync = s.cpu.sync := rfl
@[simp] theorem State.setCluster_cpu_post (k : Nat) (c : Cluster) : (s.setCluster k c).cpu.post = s.cpu.post := rfl

/-! setSync -/

@[simp] theorem State.setSync_pending (u : SyncUnit) : (s.setSync u).pending = s.pending := rfl
@[simp] theorem State.setSync_work (u : SyncUnit) : (s.setSync u).work = s.work := rfl
@[simp] theorem State.setSync_host (u : SyncUnit) : (s.setSync u).host = s.host := rfl
@[simp] theorem State.setSync_errs (u : SyncUnit) : (s.setSync u).errs = s.errs := rfl
@[simp] theorem State.setSync_pwr (u : SyncUnit) : (s.setSync u).pwr = s.pwr := rfl
@[simp] theorem State.setSync_mem (u : SyncUnit) : (s.setSync u).mem = s.mem := rfl
@[simp] theorem State.setSync_trust (u : SyncUnit) : (s.setSync u).trust = s.trust := rfl
@[simp] theorem State.setSync_media (u : SyncUnit) : (s.setSync u).media = s.media := rfl
@[simp] theorem State.setSync_dmem (u : SyncUnit) : (s.setSync u).dmem = s.dmem := rfl
@[simp] theorem State.setSync_undef (u : SyncUnit) : (s.setSync u).undef = s.undef := rfl
@[simp] theorem State.setSync_poison (u : SyncUnit) : (s.setSync u).poison = s.poison := rfl
@[simp] theorem State.setSync_draws (u : SyncUnit) : (s.setSync u).draws = s.draws := rfl
@[simp] theorem State.setSync_sent (u : SyncUnit) : (s.setSync u).sent = s.sent := rfl
@[simp] theorem State.setSync_cpu_cores (u : SyncUnit) : (s.setSync u).cpu.cores = s.cpu.cores := rfl
@[simp] theorem State.setSync_cpu_clusters (u : SyncUnit) : (s.setSync u).cpu.clusters = s.cpu.clusters := rfl
@[simp] theorem State.setSync_cpu_post (u : SyncUnit) : (s.setSync u).cpu.post = s.cpu.post := rfl

/-! setPost -/

@[simp] theorem State.setPost_pending (u : PostUnit) : (s.setPost u).pending = s.pending := rfl
@[simp] theorem State.setPost_work (u : PostUnit) : (s.setPost u).work = s.work := rfl
@[simp] theorem State.setPost_host (u : PostUnit) : (s.setPost u).host = s.host := rfl
@[simp] theorem State.setPost_errs (u : PostUnit) : (s.setPost u).errs = s.errs := rfl
@[simp] theorem State.setPost_pwr (u : PostUnit) : (s.setPost u).pwr = s.pwr := rfl
@[simp] theorem State.setPost_mem (u : PostUnit) : (s.setPost u).mem = s.mem := rfl
@[simp] theorem State.setPost_trust (u : PostUnit) : (s.setPost u).trust = s.trust := rfl
@[simp] theorem State.setPost_media (u : PostUnit) : (s.setPost u).media = s.media := rfl
@[simp] theorem State.setPost_dmem (u : PostUnit) : (s.setPost u).dmem = s.dmem := rfl
@[simp] theorem State.setPost_undef (u : PostUnit) : (s.setPost u).undef = s.undef := rfl
@[simp] theorem State.setPost_poison (u : PostUnit) : (s.setPost u).poison = s.poison := rfl
@[simp] theorem State.setPost_draws (u : PostUnit) : (s.setPost u).draws = s.draws := rfl
@[simp] theorem State.setPost_sent (u : PostUnit) : (s.setPost u).sent = s.sent := rfl
@[simp] theorem State.setPost_cpu_cores (u : PostUnit) : (s.setPost u).cpu.cores = s.cpu.cores := rfl
@[simp] theorem State.setPost_cpu_clusters (u : PostUnit) : (s.setPost u).cpu.clusters = s.cpu.clusters := rfl
@[simp] theorem State.setPost_cpu_sync (u : PostUnit) : (s.setPost u).cpu.sync = s.cpu.sync := rfl

/-! setPart -/

@[simp] theorem State.setPart_pending (p : Nat) (x : Part) : (s.setPart p x).pending = s.pending := rfl
@[simp] theorem State.setPart_cpu (p : Nat) (x : Part) : (s.setPart p x).cpu = s.cpu := rfl
@[simp] theorem State.setPart_host (p : Nat) (x : Part) : (s.setPart p x).host = s.host := rfl
@[simp] theorem State.setPart_errs (p : Nat) (x : Part) : (s.setPart p x).errs = s.errs := rfl
@[simp] theorem State.setPart_pwr (p : Nat) (x : Part) : (s.setPart p x).pwr = s.pwr := rfl
@[simp] theorem State.setPart_mem (p : Nat) (x : Part) : (s.setPart p x).mem = s.mem := rfl
@[simp] theorem State.setPart_trust (p : Nat) (x : Part) : (s.setPart p x).trust = s.trust := rfl
@[simp] theorem State.setPart_media (p : Nat) (x : Part) : (s.setPart p x).media = s.media := rfl
@[simp] theorem State.setPart_dmem (p : Nat) (x : Part) : (s.setPart p x).dmem = s.dmem := rfl
@[simp] theorem State.setPart_undef (p : Nat) (x : Part) : (s.setPart p x).undef = s.undef := rfl
@[simp] theorem State.setPart_poison (p : Nat) (x : Part) : (s.setPart p x).poison = s.poison := rfl
@[simp] theorem State.setPart_draws (p : Nat) (x : Part) : (s.setPart p x).draws = s.draws := rfl
@[simp] theorem State.setPart_sent (p : Nat) (x : Part) : (s.setPart p x).sent = s.sent := rfl
@[simp] theorem State.setPart_work_gens (p : Nat) (x : Part) : (s.setPart p x).work.gens = s.work.gens := rfl
@[simp] theorem State.setPart_work_retired (p : Nat) (x : Part) : (s.setPart p x).work.retired = s.work.retired := rfl
@[simp] theorem State.setPart_work_clearings (p : Nat) (x : Part) : (s.setPart p x).work.clearings = s.work.clearings := rfl
@[simp] theorem State.setPart_work_ctxs (p : Nat) (x : Part) : (s.setPart p x).work.ctxs = s.work.ctxs := rfl
@[simp] theorem State.setPart_work_doorbells (p : Nat) (x : Part) : (s.setPart p x).work.doorbells = s.work.doorbells := rfl
@[simp] theorem State.setPart_work_lastNormal (p : Nat) (x : Part) : (s.setPart p x).work.lastNormal = s.work.lastNormal := rfl
@[simp] theorem State.setPart_work_seqs (p : Nat) (x : Part) : (s.setPart p x).work.seqs = s.work.seqs := rfl
@[simp] theorem State.setPart_work_attn (p : Nat) (x : Part) : (s.setPart p x).work.attn = s.work.attn := rfl
@[simp] theorem State.setPart_work_streams (p : Nat) (x : Part) : (s.setPart p x).work.streams = s.work.streams := rfl
@[simp] theorem State.setPart_work_serving (p : Nat) (x : Part) : (s.setPart p x).work.serving = s.work.serving := rfl
@[simp] theorem State.setPart_work_pairs (p : Nat) (x : Part) : (s.setPart p x).work.pairs = s.work.pairs := rfl
@[simp] theorem State.setPart_work_stall (p : Nat) (x : Part) : (s.setPart p x).work.stall = s.work.stall := rfl
@[simp] theorem State.setPart_work_stallFrom (p : Nat) (x : Part) : (s.setPart p x).work.stallFrom = s.work.stallFrom := rfl
@[simp] theorem State.setPart_work_acct (p : Nat) (x : Part) : (s.setPart p x).work.acct = s.work.acct := rfl

/-! setCtx -/

@[simp] theorem State.setCtx_pending (n : Nat) (c : Ctx) : (s.setCtx n c).pending = s.pending := rfl
@[simp] theorem State.setCtx_cpu (n : Nat) (c : Ctx) : (s.setCtx n c).cpu = s.cpu := rfl
@[simp] theorem State.setCtx_host (n : Nat) (c : Ctx) : (s.setCtx n c).host = s.host := rfl
@[simp] theorem State.setCtx_errs (n : Nat) (c : Ctx) : (s.setCtx n c).errs = s.errs := rfl
@[simp] theorem State.setCtx_pwr (n : Nat) (c : Ctx) : (s.setCtx n c).pwr = s.pwr := rfl
@[simp] theorem State.setCtx_mem (n : Nat) (c : Ctx) : (s.setCtx n c).mem = s.mem := rfl
@[simp] theorem State.setCtx_trust (n : Nat) (c : Ctx) : (s.setCtx n c).trust = s.trust := rfl
@[simp] theorem State.setCtx_media (n : Nat) (c : Ctx) : (s.setCtx n c).media = s.media := rfl
@[simp] theorem State.setCtx_dmem (n : Nat) (c : Ctx) : (s.setCtx n c).dmem = s.dmem := rfl
@[simp] theorem State.setCtx_undef (n : Nat) (c : Ctx) : (s.setCtx n c).undef = s.undef := rfl
@[simp] theorem State.setCtx_poison (n : Nat) (c : Ctx) : (s.setCtx n c).poison = s.poison := rfl
@[simp] theorem State.setCtx_draws (n : Nat) (c : Ctx) : (s.setCtx n c).draws = s.draws := rfl
@[simp] theorem State.setCtx_sent (n : Nat) (c : Ctx) : (s.setCtx n c).sent = s.sent := rfl
@[simp] theorem State.setCtx_work_parts (n : Nat) (c : Ctx) : (s.setCtx n c).work.parts = s.work.parts := rfl
@[simp] theorem State.setCtx_work_gens (n : Nat) (c : Ctx) : (s.setCtx n c).work.gens = s.work.gens := rfl
@[simp] theorem State.setCtx_work_retired (n : Nat) (c : Ctx) : (s.setCtx n c).work.retired = s.work.retired := rfl
@[simp] theorem State.setCtx_work_clearings (n : Nat) (c : Ctx) : (s.setCtx n c).work.clearings = s.work.clearings := rfl
@[simp] theorem State.setCtx_work_doorbells (n : Nat) (c : Ctx) : (s.setCtx n c).work.doorbells = s.work.doorbells := rfl
@[simp] theorem State.setCtx_work_lastNormal (n : Nat) (c : Ctx) : (s.setCtx n c).work.lastNormal = s.work.lastNormal := rfl
@[simp] theorem State.setCtx_work_seqs (n : Nat) (c : Ctx) : (s.setCtx n c).work.seqs = s.work.seqs := rfl
@[simp] theorem State.setCtx_work_attn (n : Nat) (c : Ctx) : (s.setCtx n c).work.attn = s.work.attn := rfl
@[simp] theorem State.setCtx_work_streams (n : Nat) (c : Ctx) : (s.setCtx n c).work.streams = s.work.streams := rfl
@[simp] theorem State.setCtx_work_serving (n : Nat) (c : Ctx) : (s.setCtx n c).work.serving = s.work.serving := rfl
@[simp] theorem State.setCtx_work_pairs (n : Nat) (c : Ctx) : (s.setCtx n c).work.pairs = s.work.pairs := rfl
@[simp] theorem State.setCtx_work_stall (n : Nat) (c : Ctx) : (s.setCtx n c).work.stall = s.work.stall := rfl
@[simp] theorem State.setCtx_work_stallFrom (n : Nat) (c : Ctx) : (s.setCtx n c).work.stallFrom = s.work.stallFrom := rfl
@[simp] theorem State.setCtx_work_acct (n : Nat) (c : Ctx) : (s.setCtx n c).work.acct = s.work.acct := rfl

/-! setDesc -/

@[simp] theorem State.setDesc_pending (n i : Nat) (f : Desc → Desc) : (s.setDesc n i f).pending = s.pending := rfl
@[simp] theorem State.setDesc_cpu (n i : Nat) (f : Desc → Desc) : (s.setDesc n i f).cpu = s.cpu := rfl
@[simp] theorem State.setDesc_host (n i : Nat) (f : Desc → Desc) : (s.setDesc n i f).host = s.host := rfl
@[simp] theorem State.setDesc_errs (n i : Nat) (f : Desc → Desc) : (s.setDesc n i f).errs = s.errs := rfl
@[simp] theorem State.setDesc_pwr (n i : Nat) (f : Desc → Desc) : (s.setDesc n i f).pwr = s.pwr := rfl
@[simp] theorem State.setDesc_mem (n i : Nat) (f : Desc → Desc) : (s.setDesc n i f).mem = s.mem := rfl
@[simp] theorem State.setDesc_trust (n i : Nat) (f : Desc → Desc) : (s.setDesc n i f).trust = s.trust := rfl
@[simp] theorem State.setDesc_media (n i : Nat) (f : Desc → Desc) : (s.setDesc n i f).media = s.media := rfl
@[simp] theorem State.setDesc_dmem (n i : Nat) (f : Desc → Desc) : (s.setDesc n i f).dmem = s.dmem := rfl
@[simp] theorem State.setDesc_undef (n i : Nat) (f : Desc → Desc) : (s.setDesc n i f).undef = s.undef := rfl
@[simp] theorem State.setDesc_poison (n i : Nat) (f : Desc → Desc) : (s.setDesc n i f).poison = s.poison := rfl
@[simp] theorem State.setDesc_draws (n i : Nat) (f : Desc → Desc) : (s.setDesc n i f).draws = s.draws := rfl
@[simp] theorem State.setDesc_sent (n i : Nat) (f : Desc → Desc) : (s.setDesc n i f).sent = s.sent := rfl
@[simp] theorem State.setDesc_work_parts (n i : Nat) (f : Desc → Desc) : (s.setDesc n i f).work.parts = s.work.parts := rfl
@[simp] theorem State.setDesc_work_gens (n i : Nat) (f : Desc → Desc) : (s.setDesc n i f).work.gens = s.work.gens := rfl
@[simp] theorem State.setDesc_work_retired (n i : Nat) (f : Desc → Desc) : (s.setDesc n i f).work.retired = s.work.retired := rfl
@[simp] theorem State.setDesc_work_clearings (n i : Nat) (f : Desc → Desc) : (s.setDesc n i f).work.clearings = s.work.clearings := rfl
@[simp] theorem State.setDesc_work_doorbells (n i : Nat) (f : Desc → Desc) : (s.setDesc n i f).work.doorbells = s.work.doorbells := rfl
@[simp] theorem State.setDesc_work_lastNormal (n i : Nat) (f : Desc → Desc) : (s.setDesc n i f).work.lastNormal = s.work.lastNormal := rfl
@[simp] theorem State.setDesc_work_seqs (n i : Nat) (f : Desc → Desc) : (s.setDesc n i f).work.seqs = s.work.seqs := rfl
@[simp] theorem State.setDesc_work_attn (n i : Nat) (f : Desc → Desc) : (s.setDesc n i f).work.attn = s.work.attn := rfl
@[simp] theorem State.setDesc_work_streams (n i : Nat) (f : Desc → Desc) : (s.setDesc n i f).work.streams = s.work.streams := rfl
@[simp] theorem State.setDesc_work_serving (n i : Nat) (f : Desc → Desc) : (s.setDesc n i f).work.serving = s.work.serving := rfl
@[simp] theorem State.setDesc_work_pairs (n i : Nat) (f : Desc → Desc) : (s.setDesc n i f).work.pairs = s.work.pairs := rfl
@[simp] theorem State.setDesc_work_stall (n i : Nat) (f : Desc → Desc) : (s.setDesc n i f).work.stall = s.work.stall := rfl
@[simp] theorem State.setDesc_work_stallFrom (n i : Nat) (f : Desc → Desc) : (s.setDesc n i f).work.stallFrom = s.work.stallFrom := rfl
@[simp] theorem State.setDesc_work_acct (n i : Nat) (f : Desc → Desc) : (s.setDesc n i f).work.acct = s.work.acct := rfl

/-! setJob -/

@[simp] theorem State.setJob_pending (p : Nat) (f : ClearingJob → ClearingJob) : (s.setJob p f).pending = s.pending := by unfold State.setJob; split <;> rfl
@[simp] theorem State.setJob_cpu (p : Nat) (f : ClearingJob → ClearingJob) : (s.setJob p f).cpu = s.cpu := by unfold State.setJob; split <;> rfl
@[simp] theorem State.setJob_host (p : Nat) (f : ClearingJob → ClearingJob) : (s.setJob p f).host = s.host := by unfold State.setJob; split <;> rfl
@[simp] theorem State.setJob_errs (p : Nat) (f : ClearingJob → ClearingJob) : (s.setJob p f).errs = s.errs := by unfold State.setJob; split <;> rfl
@[simp] theorem State.setJob_pwr (p : Nat) (f : ClearingJob → ClearingJob) : (s.setJob p f).pwr = s.pwr := by unfold State.setJob; split <;> rfl
@[simp] theorem State.setJob_mem (p : Nat) (f : ClearingJob → ClearingJob) : (s.setJob p f).mem = s.mem := by unfold State.setJob; split <;> rfl
@[simp] theorem State.setJob_trust (p : Nat) (f : ClearingJob → ClearingJob) : (s.setJob p f).trust = s.trust := by unfold State.setJob; split <;> rfl
@[simp] theorem State.setJob_media (p : Nat) (f : ClearingJob → ClearingJob) : (s.setJob p f).media = s.media := by unfold State.setJob; split <;> rfl
@[simp] theorem State.setJob_dmem (p : Nat) (f : ClearingJob → ClearingJob) : (s.setJob p f).dmem = s.dmem := by unfold State.setJob; split <;> rfl
@[simp] theorem State.setJob_undef (p : Nat) (f : ClearingJob → ClearingJob) : (s.setJob p f).undef = s.undef := by unfold State.setJob; split <;> rfl
@[simp] theorem State.setJob_poison (p : Nat) (f : ClearingJob → ClearingJob) : (s.setJob p f).poison = s.poison := by unfold State.setJob; split <;> rfl
@[simp] theorem State.setJob_draws (p : Nat) (f : ClearingJob → ClearingJob) : (s.setJob p f).draws = s.draws := by unfold State.setJob; split <;> rfl
@[simp] theorem State.setJob_sent (p : Nat) (f : ClearingJob → ClearingJob) : (s.setJob p f).sent = s.sent := by unfold State.setJob; split <;> rfl
@[simp] theorem State.setJob_work_parts (p : Nat) (f : ClearingJob → ClearingJob) : (s.setJob p f).work.parts = s.work.parts := by unfold State.setJob; split <;> rfl
@[simp] theorem State.setJob_work_gens (p : Nat) (f : ClearingJob → ClearingJob) : (s.setJob p f).work.gens = s.work.gens := by unfold State.setJob; split <;> rfl
@[simp] theorem State.setJob_work_retired (p : Nat) (f : ClearingJob → ClearingJob) : (s.setJob p f).work.retired = s.work.retired := by unfold State.setJob; split <;> rfl
@[simp] theorem State.setJob_work_ctxs (p : Nat) (f : ClearingJob → ClearingJob) : (s.setJob p f).work.ctxs = s.work.ctxs := by unfold State.setJob; split <;> rfl
@[simp] theorem State.setJob_work_doorbells (p : Nat) (f : ClearingJob → ClearingJob) : (s.setJob p f).work.doorbells = s.work.doorbells := by unfold State.setJob; split <;> rfl
@[simp] theorem State.setJob_work_lastNormal (p : Nat) (f : ClearingJob → ClearingJob) : (s.setJob p f).work.lastNormal = s.work.lastNormal := by unfold State.setJob; split <;> rfl
@[simp] theorem State.setJob_work_seqs (p : Nat) (f : ClearingJob → ClearingJob) : (s.setJob p f).work.seqs = s.work.seqs := by unfold State.setJob; split <;> rfl
@[simp] theorem State.setJob_work_attn (p : Nat) (f : ClearingJob → ClearingJob) : (s.setJob p f).work.attn = s.work.attn := by unfold State.setJob; split <;> rfl
@[simp] theorem State.setJob_work_streams (p : Nat) (f : ClearingJob → ClearingJob) : (s.setJob p f).work.streams = s.work.streams := by unfold State.setJob; split <;> rfl
@[simp] theorem State.setJob_work_serving (p : Nat) (f : ClearingJob → ClearingJob) : (s.setJob p f).work.serving = s.work.serving := by unfold State.setJob; split <;> rfl
@[simp] theorem State.setJob_work_pairs (p : Nat) (f : ClearingJob → ClearingJob) : (s.setJob p f).work.pairs = s.work.pairs := by unfold State.setJob; split <;> rfl
@[simp] theorem State.setJob_work_stall (p : Nat) (f : ClearingJob → ClearingJob) : (s.setJob p f).work.stall = s.work.stall := by unfold State.setJob; split <;> rfl
@[simp] theorem State.setJob_work_stallFrom (p : Nat) (f : ClearingJob → ClearingJob) : (s.setJob p f).work.stallFrom = s.work.stallFrom := by unfold State.setJob; split <;> rfl
@[simp] theorem State.setJob_work_acct (p : Nat) (f : ClearingJob → ClearingJob) : (s.setJob p f).work.acct = s.work.acct := by unfold State.setJob; split <;> rfl

/-! setServing -/

@[simp] theorem State.setServing_pending (p : Nat) (x : Serving) : (s.setServing p x).pending = s.pending := rfl
@[simp] theorem State.setServing_cpu (p : Nat) (x : Serving) : (s.setServing p x).cpu = s.cpu := rfl
@[simp] theorem State.setServing_host (p : Nat) (x : Serving) : (s.setServing p x).host = s.host := rfl
@[simp] theorem State.setServing_errs (p : Nat) (x : Serving) : (s.setServing p x).errs = s.errs := rfl
@[simp] theorem State.setServing_pwr (p : Nat) (x : Serving) : (s.setServing p x).pwr = s.pwr := rfl
@[simp] theorem State.setServing_mem (p : Nat) (x : Serving) : (s.setServing p x).mem = s.mem := rfl
@[simp] theorem State.setServing_trust (p : Nat) (x : Serving) : (s.setServing p x).trust = s.trust := rfl
@[simp] theorem State.setServing_media (p : Nat) (x : Serving) : (s.setServing p x).media = s.media := rfl
@[simp] theorem State.setServing_dmem (p : Nat) (x : Serving) : (s.setServing p x).dmem = s.dmem := rfl
@[simp] theorem State.setServing_undef (p : Nat) (x : Serving) : (s.setServing p x).undef = s.undef := rfl
@[simp] theorem State.setServing_poison (p : Nat) (x : Serving) : (s.setServing p x).poison = s.poison := rfl
@[simp] theorem State.setServing_draws (p : Nat) (x : Serving) : (s.setServing p x).draws = s.draws := rfl
@[simp] theorem State.setServing_sent (p : Nat) (x : Serving) : (s.setServing p x).sent = s.sent := rfl
@[simp] theorem State.setServing_work_parts (p : Nat) (x : Serving) : (s.setServing p x).work.parts = s.work.parts := rfl
@[simp] theorem State.setServing_work_gens (p : Nat) (x : Serving) : (s.setServing p x).work.gens = s.work.gens := rfl
@[simp] theorem State.setServing_work_retired (p : Nat) (x : Serving) : (s.setServing p x).work.retired = s.work.retired := rfl
@[simp] theorem State.setServing_work_clearings (p : Nat) (x : Serving) : (s.setServing p x).work.clearings = s.work.clearings := rfl
@[simp] theorem State.setServing_work_ctxs (p : Nat) (x : Serving) : (s.setServing p x).work.ctxs = s.work.ctxs := rfl
@[simp] theorem State.setServing_work_doorbells (p : Nat) (x : Serving) : (s.setServing p x).work.doorbells = s.work.doorbells := rfl
@[simp] theorem State.setServing_work_lastNormal (p : Nat) (x : Serving) : (s.setServing p x).work.lastNormal = s.work.lastNormal := rfl
@[simp] theorem State.setServing_work_seqs (p : Nat) (x : Serving) : (s.setServing p x).work.seqs = s.work.seqs := rfl
@[simp] theorem State.setServing_work_attn (p : Nat) (x : Serving) : (s.setServing p x).work.attn = s.work.attn := rfl
@[simp] theorem State.setServing_work_streams (p : Nat) (x : Serving) : (s.setServing p x).work.streams = s.work.streams := rfl
@[simp] theorem State.setServing_work_pairs (p : Nat) (x : Serving) : (s.setServing p x).work.pairs = s.work.pairs := rfl
@[simp] theorem State.setServing_work_stall (p : Nat) (x : Serving) : (s.setServing p x).work.stall = s.work.stall := rfl
@[simp] theorem State.setServing_work_stallFrom (p : Nat) (x : Serving) : (s.setServing p x).work.stallFrom = s.work.stallFrom := rfl
@[simp] theorem State.setServing_work_acct (p : Nat) (x : Serving) : (s.setServing p x).work.acct = s.work.acct := rfl

/-! setSeq -/

@[simp] theorem State.setSeq_pending (i : Nat) (e : SeqEntry) : (s.setSeq i e).pending = s.pending := rfl
@[simp] theorem State.setSeq_cpu (i : Nat) (e : SeqEntry) : (s.setSeq i e).cpu = s.cpu := rfl
@[simp] theorem State.setSeq_host (i : Nat) (e : SeqEntry) : (s.setSeq i e).host = s.host := rfl
@[simp] theorem State.setSeq_errs (i : Nat) (e : SeqEntry) : (s.setSeq i e).errs = s.errs := rfl
@[simp] theorem State.setSeq_pwr (i : Nat) (e : SeqEntry) : (s.setSeq i e).pwr = s.pwr := rfl
@[simp] theorem State.setSeq_mem (i : Nat) (e : SeqEntry) : (s.setSeq i e).mem = s.mem := rfl
@[simp] theorem State.setSeq_trust (i : Nat) (e : SeqEntry) : (s.setSeq i e).trust = s.trust := rfl
@[simp] theorem State.setSeq_media (i : Nat) (e : SeqEntry) : (s.setSeq i e).media = s.media := rfl
@[simp] theorem State.setSeq_dmem (i : Nat) (e : SeqEntry) : (s.setSeq i e).dmem = s.dmem := rfl
@[simp] theorem State.setSeq_undef (i : Nat) (e : SeqEntry) : (s.setSeq i e).undef = s.undef := rfl
@[simp] theorem State.setSeq_poison (i : Nat) (e : SeqEntry) : (s.setSeq i e).poison = s.poison := rfl
@[simp] theorem State.setSeq_draws (i : Nat) (e : SeqEntry) : (s.setSeq i e).draws = s.draws := rfl
@[simp] theorem State.setSeq_sent (i : Nat) (e : SeqEntry) : (s.setSeq i e).sent = s.sent := rfl
@[simp] theorem State.setSeq_work_parts (i : Nat) (e : SeqEntry) : (s.setSeq i e).work.parts = s.work.parts := rfl
@[simp] theorem State.setSeq_work_gens (i : Nat) (e : SeqEntry) : (s.setSeq i e).work.gens = s.work.gens := rfl
@[simp] theorem State.setSeq_work_retired (i : Nat) (e : SeqEntry) : (s.setSeq i e).work.retired = s.work.retired := rfl
@[simp] theorem State.setSeq_work_clearings (i : Nat) (e : SeqEntry) : (s.setSeq i e).work.clearings = s.work.clearings := rfl
@[simp] theorem State.setSeq_work_ctxs (i : Nat) (e : SeqEntry) : (s.setSeq i e).work.ctxs = s.work.ctxs := rfl
@[simp] theorem State.setSeq_work_doorbells (i : Nat) (e : SeqEntry) : (s.setSeq i e).work.doorbells = s.work.doorbells := rfl
@[simp] theorem State.setSeq_work_lastNormal (i : Nat) (e : SeqEntry) : (s.setSeq i e).work.lastNormal = s.work.lastNormal := rfl
@[simp] theorem State.setSeq_work_attn (i : Nat) (e : SeqEntry) : (s.setSeq i e).work.attn = s.work.attn := rfl
@[simp] theorem State.setSeq_work_streams (i : Nat) (e : SeqEntry) : (s.setSeq i e).work.streams = s.work.streams := rfl
@[simp] theorem State.setSeq_work_serving (i : Nat) (e : SeqEntry) : (s.setSeq i e).work.serving = s.work.serving := rfl
@[simp] theorem State.setSeq_work_pairs (i : Nat) (e : SeqEntry) : (s.setSeq i e).work.pairs = s.work.pairs := rfl
@[simp] theorem State.setSeq_work_stall (i : Nat) (e : SeqEntry) : (s.setSeq i e).work.stall = s.work.stall := rfl
@[simp] theorem State.setSeq_work_stallFrom (i : Nat) (e : SeqEntry) : (s.setSeq i e).work.stallFrom = s.work.stallFrom := rfl
@[simp] theorem State.setSeq_work_acct (i : Nat) (e : SeqEntry) : (s.setSeq i e).work.acct = s.work.acct := rfl

/-! setAttn -/

@[simp] theorem State.setAttn_pending (a : AttnReg) : (s.setAttn a).pending = s.pending := rfl
@[simp] theorem State.setAttn_cpu (a : AttnReg) : (s.setAttn a).cpu = s.cpu := rfl
@[simp] theorem State.setAttn_host (a : AttnReg) : (s.setAttn a).host = s.host := rfl
@[simp] theorem State.setAttn_errs (a : AttnReg) : (s.setAttn a).errs = s.errs := rfl
@[simp] theorem State.setAttn_pwr (a : AttnReg) : (s.setAttn a).pwr = s.pwr := rfl
@[simp] theorem State.setAttn_mem (a : AttnReg) : (s.setAttn a).mem = s.mem := rfl
@[simp] theorem State.setAttn_trust (a : AttnReg) : (s.setAttn a).trust = s.trust := rfl
@[simp] theorem State.setAttn_media (a : AttnReg) : (s.setAttn a).media = s.media := rfl
@[simp] theorem State.setAttn_dmem (a : AttnReg) : (s.setAttn a).dmem = s.dmem := rfl
@[simp] theorem State.setAttn_undef (a : AttnReg) : (s.setAttn a).undef = s.undef := rfl
@[simp] theorem State.setAttn_poison (a : AttnReg) : (s.setAttn a).poison = s.poison := rfl
@[simp] theorem State.setAttn_draws (a : AttnReg) : (s.setAttn a).draws = s.draws := rfl
@[simp] theorem State.setAttn_sent (a : AttnReg) : (s.setAttn a).sent = s.sent := rfl
@[simp] theorem State.setAttn_work_parts (a : AttnReg) : (s.setAttn a).work.parts = s.work.parts := rfl
@[simp] theorem State.setAttn_work_gens (a : AttnReg) : (s.setAttn a).work.gens = s.work.gens := rfl
@[simp] theorem State.setAttn_work_retired (a : AttnReg) : (s.setAttn a).work.retired = s.work.retired := rfl
@[simp] theorem State.setAttn_work_clearings (a : AttnReg) : (s.setAttn a).work.clearings = s.work.clearings := rfl
@[simp] theorem State.setAttn_work_ctxs (a : AttnReg) : (s.setAttn a).work.ctxs = s.work.ctxs := rfl
@[simp] theorem State.setAttn_work_doorbells (a : AttnReg) : (s.setAttn a).work.doorbells = s.work.doorbells := rfl
@[simp] theorem State.setAttn_work_lastNormal (a : AttnReg) : (s.setAttn a).work.lastNormal = s.work.lastNormal := rfl
@[simp] theorem State.setAttn_work_seqs (a : AttnReg) : (s.setAttn a).work.seqs = s.work.seqs := rfl
@[simp] theorem State.setAttn_work_streams (a : AttnReg) : (s.setAttn a).work.streams = s.work.streams := rfl
@[simp] theorem State.setAttn_work_serving (a : AttnReg) : (s.setAttn a).work.serving = s.work.serving := rfl
@[simp] theorem State.setAttn_work_pairs (a : AttnReg) : (s.setAttn a).work.pairs = s.work.pairs := rfl
@[simp] theorem State.setAttn_work_stall (a : AttnReg) : (s.setAttn a).work.stall = s.work.stall := rfl
@[simp] theorem State.setAttn_work_stallFrom (a : AttnReg) : (s.setAttn a).work.stallFrom = s.work.stallFrom := rfl
@[simp] theorem State.setAttn_work_acct (a : AttnReg) : (s.setAttn a).work.acct = s.work.acct := rfl

/-! setStream -/

@[simp] theorem State.setStream_pending (w : WStream) : (s.setStream w).pending = s.pending := rfl
@[simp] theorem State.setStream_cpu (w : WStream) : (s.setStream w).cpu = s.cpu := rfl
@[simp] theorem State.setStream_host (w : WStream) : (s.setStream w).host = s.host := rfl
@[simp] theorem State.setStream_errs (w : WStream) : (s.setStream w).errs = s.errs := rfl
@[simp] theorem State.setStream_pwr (w : WStream) : (s.setStream w).pwr = s.pwr := rfl
@[simp] theorem State.setStream_mem (w : WStream) : (s.setStream w).mem = s.mem := rfl
@[simp] theorem State.setStream_trust (w : WStream) : (s.setStream w).trust = s.trust := rfl
@[simp] theorem State.setStream_media (w : WStream) : (s.setStream w).media = s.media := rfl
@[simp] theorem State.setStream_dmem (w : WStream) : (s.setStream w).dmem = s.dmem := rfl
@[simp] theorem State.setStream_undef (w : WStream) : (s.setStream w).undef = s.undef := rfl
@[simp] theorem State.setStream_poison (w : WStream) : (s.setStream w).poison = s.poison := rfl
@[simp] theorem State.setStream_draws (w : WStream) : (s.setStream w).draws = s.draws := rfl
@[simp] theorem State.setStream_sent (w : WStream) : (s.setStream w).sent = s.sent := rfl
@[simp] theorem State.setStream_work_parts (w : WStream) : (s.setStream w).work.parts = s.work.parts := rfl
@[simp] theorem State.setStream_work_gens (w : WStream) : (s.setStream w).work.gens = s.work.gens := rfl
@[simp] theorem State.setStream_work_retired (w : WStream) : (s.setStream w).work.retired = s.work.retired := rfl
@[simp] theorem State.setStream_work_clearings (w : WStream) : (s.setStream w).work.clearings = s.work.clearings := rfl
@[simp] theorem State.setStream_work_ctxs (w : WStream) : (s.setStream w).work.ctxs = s.work.ctxs := rfl
@[simp] theorem State.setStream_work_doorbells (w : WStream) : (s.setStream w).work.doorbells = s.work.doorbells := rfl
@[simp] theorem State.setStream_work_lastNormal (w : WStream) : (s.setStream w).work.lastNormal = s.work.lastNormal := rfl
@[simp] theorem State.setStream_work_seqs (w : WStream) : (s.setStream w).work.seqs = s.work.seqs := rfl
@[simp] theorem State.setStream_work_attn (w : WStream) : (s.setStream w).work.attn = s.work.attn := rfl
@[simp] theorem State.setStream_work_serving (w : WStream) : (s.setStream w).work.serving = s.work.serving := rfl
@[simp] theorem State.setStream_work_pairs (w : WStream) : (s.setStream w).work.pairs = s.work.pairs := rfl
@[simp] theorem State.setStream_work_stall (w : WStream) : (s.setStream w).work.stall = s.work.stall := rfl
@[simp] theorem State.setStream_work_stallFrom (w : WStream) : (s.setStream w).work.stallFrom = s.work.stallFrom := rfl
@[simp] theorem State.setStream_work_acct (w : WStream) : (s.setStream w).work.acct = s.work.acct := rfl

/-! setFn -/

@[simp] theorem State.setFn_pending (f : Nat) (x : Fn) : (s.setFn f x).pending = s.pending := rfl
@[simp] theorem State.setFn_cpu (f : Nat) (x : Fn) : (s.setFn f x).cpu = s.cpu := rfl
@[simp] theorem State.setFn_work (f : Nat) (x : Fn) : (s.setFn f x).work = s.work := rfl
@[simp] theorem State.setFn_errs (f : Nat) (x : Fn) : (s.setFn f x).errs = s.errs := rfl
@[simp] theorem State.setFn_pwr (f : Nat) (x : Fn) : (s.setFn f x).pwr = s.pwr := rfl
@[simp] theorem State.setFn_mem (f : Nat) (x : Fn) : (s.setFn f x).mem = s.mem := rfl
@[simp] theorem State.setFn_trust (f : Nat) (x : Fn) : (s.setFn f x).trust = s.trust := rfl
@[simp] theorem State.setFn_media (f : Nat) (x : Fn) : (s.setFn f x).media = s.media := rfl
@[simp] theorem State.setFn_dmem (f : Nat) (x : Fn) : (s.setFn f x).dmem = s.dmem := rfl
@[simp] theorem State.setFn_undef (f : Nat) (x : Fn) : (s.setFn f x).undef = s.undef := rfl
@[simp] theorem State.setFn_poison (f : Nat) (x : Fn) : (s.setFn f x).poison = s.poison := rfl
@[simp] theorem State.setFn_draws (f : Nat) (x : Fn) : (s.setFn f x).draws = s.draws := rfl
@[simp] theorem State.setFn_sent (f : Nat) (x : Fn) : (s.setFn f x).sent = s.sent := rfl
@[simp] theorem State.setFn_host_groupOwner (f : Nat) (x : Fn) : (s.setFn f x).host.groupOwner = s.host.groupOwner := rfl
@[simp] theorem State.setFn_host_groupRefused (f : Nat) (x : Fn) : (s.setFn f x).host.groupRefused = s.host.groupRefused := rfl
@[simp] theorem State.setFn_host_link0 (f : Nat) (x : Fn) : (s.setFn f x).host.link0 = s.host.link0 := rfl
@[simp] theorem State.setFn_host_link1 (f : Nat) (x : Fn) : (s.setFn f x).host.link1 = s.host.link1 := rfl
@[simp] theorem State.setFn_host_split (f : Nat) (x : Fn) : (s.setFn f x).host.split = s.host.split := rfl
@[simp] theorem State.setFn_host_link1First (f : Nat) (x : Fn) : (s.setFn f x).host.link1First = s.host.link1First := rfl
@[simp] theorem State.setFn_host_trace (f : Nat) (x : Fn) : (s.setFn f x).host.trace = s.host.trace := rfl
@[simp] theorem State.setFn_host_refTicks (f : Nat) (x : Fn) : (s.setFn f x).host.refTicks = s.host.refTicks := rfl
@[simp] theorem State.setFn_host_vecCount (f : Nat) (x : Fn) : (s.setFn f x).host.vecCount = s.host.vecCount := rfl
@[simp] theorem State.setFn_host_logRing (f : Nat) (x : Fn) : (s.setFn f x).host.logRing = s.host.logRing := rfl
@[simp] theorem State.setFn_host_aligned (f : Nat) (x : Fn) : (s.setFn f x).host.aligned = s.host.aligned := rfl

/-! setLink -/

@[simp] theorem State.setLink_pending (l : Nat) (x : Link) : (s.setLink l x).pending = s.pending := by unfold State.setLink; split <;> rfl
@[simp] theorem State.setLink_cpu (l : Nat) (x : Link) : (s.setLink l x).cpu = s.cpu := by unfold State.setLink; split <;> rfl
@[simp] theorem State.setLink_work (l : Nat) (x : Link) : (s.setLink l x).work = s.work := by unfold State.setLink; split <;> rfl
@[simp] theorem State.setLink_errs (l : Nat) (x : Link) : (s.setLink l x).errs = s.errs := by unfold State.setLink; split <;> rfl
@[simp] theorem State.setLink_pwr (l : Nat) (x : Link) : (s.setLink l x).pwr = s.pwr := by unfold State.setLink; split <;> rfl
@[simp] theorem State.setLink_mem (l : Nat) (x : Link) : (s.setLink l x).mem = s.mem := by unfold State.setLink; split <;> rfl
@[simp] theorem State.setLink_trust (l : Nat) (x : Link) : (s.setLink l x).trust = s.trust := by unfold State.setLink; split <;> rfl
@[simp] theorem State.setLink_media (l : Nat) (x : Link) : (s.setLink l x).media = s.media := by unfold State.setLink; split <;> rfl
@[simp] theorem State.setLink_dmem (l : Nat) (x : Link) : (s.setLink l x).dmem = s.dmem := by unfold State.setLink; split <;> rfl
@[simp] theorem State.setLink_undef (l : Nat) (x : Link) : (s.setLink l x).undef = s.undef := by unfold State.setLink; split <;> rfl
@[simp] theorem State.setLink_poison (l : Nat) (x : Link) : (s.setLink l x).poison = s.poison := by unfold State.setLink; split <;> rfl
@[simp] theorem State.setLink_draws (l : Nat) (x : Link) : (s.setLink l x).draws = s.draws := by unfold State.setLink; split <;> rfl
@[simp] theorem State.setLink_sent (l : Nat) (x : Link) : (s.setLink l x).sent = s.sent := by unfold State.setLink; split <;> rfl
@[simp] theorem State.setLink_host_fns (l : Nat) (x : Link) : (s.setLink l x).host.fns = s.host.fns := by unfold State.setLink; split <;> rfl
@[simp] theorem State.setLink_host_groupOwner (l : Nat) (x : Link) : (s.setLink l x).host.groupOwner = s.host.groupOwner := by unfold State.setLink; split <;> rfl
@[simp] theorem State.setLink_host_groupRefused (l : Nat) (x : Link) : (s.setLink l x).host.groupRefused = s.host.groupRefused := by unfold State.setLink; split <;> rfl
@[simp] theorem State.setLink_host_split (l : Nat) (x : Link) : (s.setLink l x).host.split = s.host.split := by unfold State.setLink; split <;> rfl
@[simp] theorem State.setLink_host_link1First (l : Nat) (x : Link) : (s.setLink l x).host.link1First = s.host.link1First := by unfold State.setLink; split <;> rfl
@[simp] theorem State.setLink_host_trace (l : Nat) (x : Link) : (s.setLink l x).host.trace = s.host.trace := by unfold State.setLink; split <;> rfl
@[simp] theorem State.setLink_host_refTicks (l : Nat) (x : Link) : (s.setLink l x).host.refTicks = s.host.refTicks := by unfold State.setLink; split <;> rfl
@[simp] theorem State.setLink_host_vecCount (l : Nat) (x : Link) : (s.setLink l x).host.vecCount = s.host.vecCount := by unfold State.setLink; split <;> rfl
@[simp] theorem State.setLink_host_logRing (l : Nat) (x : Link) : (s.setLink l x).host.logRing = s.host.logRing := by unfold State.setLink; split <;> rfl
@[simp] theorem State.setLink_host_aligned (l : Nat) (x : Link) : (s.setLink l x).host.aligned = s.host.aligned := by unfold State.setLink; split <;> rfl

/-! setTrace -/

@[simp] theorem State.setTrace_pending (t : Trace) : (s.setTrace t).pending = s.pending := rfl
@[simp] theorem State.setTrace_cpu (t : Trace) : (s.setTrace t).cpu = s.cpu := rfl
@[simp] theorem State.setTrace_work (t : Trace) : (s.setTrace t).work = s.work := rfl
@[simp] theorem State.setTrace_errs (t : Trace) : (s.setTrace t).errs = s.errs := rfl
@[simp] theorem State.setTrace_pwr (t : Trace) : (s.setTrace t).pwr = s.pwr := rfl
@[simp] theorem State.setTrace_mem (t : Trace) : (s.setTrace t).mem = s.mem := rfl
@[simp] theorem State.setTrace_trust (t : Trace) : (s.setTrace t).trust = s.trust := rfl
@[simp] theorem State.setTrace_media (t : Trace) : (s.setTrace t).media = s.media := rfl
@[simp] theorem State.setTrace_dmem (t : Trace) : (s.setTrace t).dmem = s.dmem := rfl
@[simp] theorem State.setTrace_undef (t : Trace) : (s.setTrace t).undef = s.undef := rfl
@[simp] theorem State.setTrace_poison (t : Trace) : (s.setTrace t).poison = s.poison := rfl
@[simp] theorem State.setTrace_draws (t : Trace) : (s.setTrace t).draws = s.draws := rfl
@[simp] theorem State.setTrace_sent (t : Trace) : (s.setTrace t).sent = s.sent := rfl
@[simp] theorem State.setTrace_host_fns (t : Trace) : (s.setTrace t).host.fns = s.host.fns := rfl
@[simp] theorem State.setTrace_host_groupOwner (t : Trace) : (s.setTrace t).host.groupOwner = s.host.groupOwner := rfl
@[simp] theorem State.setTrace_host_groupRefused (t : Trace) : (s.setTrace t).host.groupRefused = s.host.groupRefused := rfl
@[simp] theorem State.setTrace_host_link0 (t : Trace) : (s.setTrace t).host.link0 = s.host.link0 := rfl
@[simp] theorem State.setTrace_host_link1 (t : Trace) : (s.setTrace t).host.link1 = s.host.link1 := rfl
@[simp] theorem State.setTrace_host_split (t : Trace) : (s.setTrace t).host.split = s.host.split := rfl
@[simp] theorem State.setTrace_host_link1First (t : Trace) : (s.setTrace t).host.link1First = s.host.link1First := rfl
@[simp] theorem State.setTrace_host_refTicks (t : Trace) : (s.setTrace t).host.refTicks = s.host.refTicks := rfl
@[simp] theorem State.setTrace_host_vecCount (t : Trace) : (s.setTrace t).host.vecCount = s.host.vecCount := rfl
@[simp] theorem State.setTrace_host_logRing (t : Trace) : (s.setTrace t).host.logRing = s.host.logRing := rfl
@[simp] theorem State.setTrace_host_aligned (t : Trace) : (s.setTrace t).host.aligned = s.host.aligned := rfl

/-! setMargin -/

@[simp] theorem State.setMargin_pending (i : Nat) (m : Margin) : (s.setMargin i m).pending = s.pending := rfl
@[simp] theorem State.setMargin_cpu (i : Nat) (m : Margin) : (s.setMargin i m).cpu = s.cpu := rfl
@[simp] theorem State.setMargin_work (i : Nat) (m : Margin) : (s.setMargin i m).work = s.work := rfl
@[simp] theorem State.setMargin_host (i : Nat) (m : Margin) : (s.setMargin i m).host = s.host := rfl
@[simp] theorem State.setMargin_pwr (i : Nat) (m : Margin) : (s.setMargin i m).pwr = s.pwr := rfl
@[simp] theorem State.setMargin_mem (i : Nat) (m : Margin) : (s.setMargin i m).mem = s.mem := rfl
@[simp] theorem State.setMargin_trust (i : Nat) (m : Margin) : (s.setMargin i m).trust = s.trust := rfl
@[simp] theorem State.setMargin_media (i : Nat) (m : Margin) : (s.setMargin i m).media = s.media := rfl
@[simp] theorem State.setMargin_dmem (i : Nat) (m : Margin) : (s.setMargin i m).dmem = s.dmem := rfl
@[simp] theorem State.setMargin_undef (i : Nat) (m : Margin) : (s.setMargin i m).undef = s.undef := rfl
@[simp] theorem State.setMargin_poison (i : Nat) (m : Margin) : (s.setMargin i m).poison = s.poison := rfl
@[simp] theorem State.setMargin_draws (i : Nat) (m : Margin) : (s.setMargin i m).draws = s.draws := rfl
@[simp] theorem State.setMargin_sent (i : Nat) (m : Margin) : (s.setMargin i m).sent = s.sent := rfl
@[simp] theorem State.setMargin_errs_log (i : Nat) (m : Margin) : (s.setMargin i m).errs.log = s.errs.log := rfl
@[simp] theorem State.setMargin_errs_seqNo (i : Nat) (m : Margin) : (s.setMargin i m).errs.seqNo = s.errs.seqNo := rfl
@[simp] theorem State.setMargin_errs_halted (i : Nat) (m : Margin) : (s.setMargin i m).errs.halted = s.errs.halted := rfl
@[simp] theorem State.setMargin_errs_spares (i : Nat) (m : Margin) : (s.setMargin i m).errs.spares = s.errs.spares := rfl

/-! setPwr -/

@[simp] theorem State.setPwr_pending (p : Power) : (s.setPwr p).pending = s.pending := rfl
@[simp] theorem State.setPwr_cpu (p : Power) : (s.setPwr p).cpu = s.cpu := rfl
@[simp] theorem State.setPwr_work (p : Power) : (s.setPwr p).work = s.work := rfl
@[simp] theorem State.setPwr_host (p : Power) : (s.setPwr p).host = s.host := rfl
@[simp] theorem State.setPwr_errs (p : Power) : (s.setPwr p).errs = s.errs := rfl
@[simp] theorem State.setPwr_mem (p : Power) : (s.setPwr p).mem = s.mem := rfl
@[simp] theorem State.setPwr_trust (p : Power) : (s.setPwr p).trust = s.trust := rfl
@[simp] theorem State.setPwr_media (p : Power) : (s.setPwr p).media = s.media := rfl
@[simp] theorem State.setPwr_dmem (p : Power) : (s.setPwr p).dmem = s.dmem := rfl
@[simp] theorem State.setPwr_undef (p : Power) : (s.setPwr p).undef = s.undef := rfl
@[simp] theorem State.setPwr_poison (p : Power) : (s.setPwr p).poison = s.poison := rfl
@[simp] theorem State.setPwr_draws (p : Power) : (s.setPwr p).draws = s.draws := rfl
@[simp] theorem State.setPwr_sent (p : Power) : (s.setPwr p).sent = s.sent := rfl

/-! setLedger -/

@[simp] theorem State.setLedger_pending (l : Ledger) : (s.setLedger l).pending = s.pending := rfl
@[simp] theorem State.setLedger_cpu (l : Ledger) : (s.setLedger l).cpu = s.cpu := rfl
@[simp] theorem State.setLedger_work (l : Ledger) : (s.setLedger l).work = s.work := rfl
@[simp] theorem State.setLedger_host (l : Ledger) : (s.setLedger l).host = s.host := rfl
@[simp] theorem State.setLedger_errs (l : Ledger) : (s.setLedger l).errs = s.errs := rfl
@[simp] theorem State.setLedger_mem (l : Ledger) : (s.setLedger l).mem = s.mem := rfl
@[simp] theorem State.setLedger_trust (l : Ledger) : (s.setLedger l).trust = s.trust := rfl
@[simp] theorem State.setLedger_media (l : Ledger) : (s.setLedger l).media = s.media := rfl
@[simp] theorem State.setLedger_dmem (l : Ledger) : (s.setLedger l).dmem = s.dmem := rfl
@[simp] theorem State.setLedger_undef (l : Ledger) : (s.setLedger l).undef = s.undef := rfl
@[simp] theorem State.setLedger_poison (l : Ledger) : (s.setLedger l).poison = s.poison := rfl
@[simp] theorem State.setLedger_draws (l : Ledger) : (s.setLedger l).draws = s.draws := rfl
@[simp] theorem State.setLedger_sent (l : Ledger) : (s.setLedger l).sent = s.sent := rfl
@[simp] theorem State.setLedger_pwr_aon (l : Ledger) : (s.setLedger l).pwr.aon = s.pwr.aon := rfl
@[simp] theorem State.setLedger_pwr_state (l : Ledger) : (s.setLedger l).pwr.state = s.pwr.state := rfl
@[simp] theorem State.setLedger_pwr_stage (l : Ledger) : (s.setLedger l).pwr.stage = s.pwr.stage := rfl
@[simp] theorem State.setLedger_pwr_stageADone (l : Ledger) : (s.setLedger l).pwr.stageADone = s.pwr.stageADone := rfl
@[simp] theorem State.setLedger_pwr_on (l : Ledger) : (s.setLedger l).pwr.on = s.pwr.on := rfl
@[simp] theorem State.setLedger_pwr_cfg (l : Ledger) : (s.setLedger l).pwr.cfg = s.pwr.cfg := rfl
@[simp] theorem State.setLedger_pwr_thermal (l : Ledger) : (s.setLedger l).pwr.thermal = s.pwr.thermal := rfl
@[simp] theorem State.setLedger_pwr_fw (l : Ledger) : (s.setLedger l).pwr.fw = s.pwr.fw := rfl
@[simp] theorem State.setLedger_pwr_armed (l : Ledger) : (s.setLedger l).pwr.armed = s.pwr.armed := rfl
@[simp] theorem State.setLedger_pwr_transit (l : Ledger) : (s.setLedger l).pwr.transit = s.pwr.transit := rfl
@[simp] theorem State.setLedger_pwr_pending (l : Ledger) : (s.setLedger l).pwr.pending = s.pwr.pending := rfl
@[simp] theorem State.setLedger_pwr_tiers (l : Ledger) : (s.setLedger l).pwr.tiers = s.pwr.tiers := rfl
@[simp] theorem State.setLedger_pwr_image (l : Ledger) : (s.setLedger l).pwr.image = s.pwr.image := rfl

/-! setThermal -/

@[simp] theorem State.setThermal_pending (t : Thermal) : (s.setThermal t).pending = s.pending := rfl
@[simp] theorem State.setThermal_cpu (t : Thermal) : (s.setThermal t).cpu = s.cpu := rfl
@[simp] theorem State.setThermal_work (t : Thermal) : (s.setThermal t).work = s.work := rfl
@[simp] theorem State.setThermal_host (t : Thermal) : (s.setThermal t).host = s.host := rfl
@[simp] theorem State.setThermal_errs (t : Thermal) : (s.setThermal t).errs = s.errs := rfl
@[simp] theorem State.setThermal_mem (t : Thermal) : (s.setThermal t).mem = s.mem := rfl
@[simp] theorem State.setThermal_trust (t : Thermal) : (s.setThermal t).trust = s.trust := rfl
@[simp] theorem State.setThermal_media (t : Thermal) : (s.setThermal t).media = s.media := rfl
@[simp] theorem State.setThermal_dmem (t : Thermal) : (s.setThermal t).dmem = s.dmem := rfl
@[simp] theorem State.setThermal_undef (t : Thermal) : (s.setThermal t).undef = s.undef := rfl
@[simp] theorem State.setThermal_poison (t : Thermal) : (s.setThermal t).poison = s.poison := rfl
@[simp] theorem State.setThermal_draws (t : Thermal) : (s.setThermal t).draws = s.draws := rfl
@[simp] theorem State.setThermal_sent (t : Thermal) : (s.setThermal t).sent = s.sent := rfl
@[simp] theorem State.setThermal_pwr_aon (t : Thermal) : (s.setThermal t).pwr.aon = s.pwr.aon := rfl
@[simp] theorem State.setThermal_pwr_state (t : Thermal) : (s.setThermal t).pwr.state = s.pwr.state := rfl
@[simp] theorem State.setThermal_pwr_stage (t : Thermal) : (s.setThermal t).pwr.stage = s.pwr.stage := rfl
@[simp] theorem State.setThermal_pwr_stageADone (t : Thermal) : (s.setThermal t).pwr.stageADone = s.pwr.stageADone := rfl
@[simp] theorem State.setThermal_pwr_on (t : Thermal) : (s.setThermal t).pwr.on = s.pwr.on := rfl
@[simp] theorem State.setThermal_pwr_cfg (t : Thermal) : (s.setThermal t).pwr.cfg = s.pwr.cfg := rfl
@[simp] theorem State.setThermal_pwr_ledger (t : Thermal) : (s.setThermal t).pwr.ledger = s.pwr.ledger := rfl
@[simp] theorem State.setThermal_pwr_fw (t : Thermal) : (s.setThermal t).pwr.fw = s.pwr.fw := rfl
@[simp] theorem State.setThermal_pwr_armed (t : Thermal) : (s.setThermal t).pwr.armed = s.pwr.armed := rfl
@[simp] theorem State.setThermal_pwr_transit (t : Thermal) : (s.setThermal t).pwr.transit = s.pwr.transit := rfl
@[simp] theorem State.setThermal_pwr_pending (t : Thermal) : (s.setThermal t).pwr.pending = s.pwr.pending := rfl
@[simp] theorem State.setThermal_pwr_tiers (t : Thermal) : (s.setThermal t).pwr.tiers = s.pwr.tiers := rfl
@[simp] theorem State.setThermal_pwr_image (t : Thermal) : (s.setThermal t).pwr.image = s.pwr.image := rfl

/-! setPoint -/

@[simp] theorem State.setPoint_pending (n p : Nat) : (s.setPoint n p).pending = s.pending := rfl
@[simp] theorem State.setPoint_cpu (n p : Nat) : (s.setPoint n p).cpu = s.cpu := rfl
@[simp] theorem State.setPoint_work (n p : Nat) : (s.setPoint n p).work = s.work := rfl
@[simp] theorem State.setPoint_host (n p : Nat) : (s.setPoint n p).host = s.host := rfl
@[simp] theorem State.setPoint_errs (n p : Nat) : (s.setPoint n p).errs = s.errs := rfl
@[simp] theorem State.setPoint_mem (n p : Nat) : (s.setPoint n p).mem = s.mem := rfl
@[simp] theorem State.setPoint_trust (n p : Nat) : (s.setPoint n p).trust = s.trust := rfl
@[simp] theorem State.setPoint_media (n p : Nat) : (s.setPoint n p).media = s.media := rfl
@[simp] theorem State.setPoint_dmem (n p : Nat) : (s.setPoint n p).dmem = s.dmem := rfl
@[simp] theorem State.setPoint_undef (n p : Nat) : (s.setPoint n p).undef = s.undef := rfl
@[simp] theorem State.setPoint_poison (n p : Nat) : (s.setPoint n p).poison = s.poison := rfl
@[simp] theorem State.setPoint_draws (n p : Nat) : (s.setPoint n p).draws = s.draws := rfl
@[simp] theorem State.setPoint_sent (n p : Nat) : (s.setPoint n p).sent = s.sent := rfl
@[simp] theorem State.setPoint_pwr_aon (n p : Nat) : (s.setPoint n p).pwr.aon = s.pwr.aon := rfl
@[simp] theorem State.setPoint_pwr_state (n p : Nat) : (s.setPoint n p).pwr.state = s.pwr.state := rfl
@[simp] theorem State.setPoint_pwr_stage (n p : Nat) : (s.setPoint n p).pwr.stage = s.pwr.stage := rfl
@[simp] theorem State.setPoint_pwr_stageADone (n p : Nat) : (s.setPoint n p).pwr.stageADone = s.pwr.stageADone := rfl
@[simp] theorem State.setPoint_pwr_on (n p : Nat) : (s.setPoint n p).pwr.on = s.pwr.on := rfl
@[simp] theorem State.setPoint_pwr_cfg (n p : Nat) : (s.setPoint n p).pwr.cfg = s.pwr.cfg := rfl
@[simp] theorem State.setPoint_pwr_ledger (n p : Nat) : (s.setPoint n p).pwr.ledger = s.pwr.ledger := rfl
@[simp] theorem State.setPoint_pwr_fw (n p : Nat) : (s.setPoint n p).pwr.fw = s.pwr.fw := rfl
@[simp] theorem State.setPoint_pwr_armed (n p : Nat) : (s.setPoint n p).pwr.armed = s.pwr.armed := rfl
@[simp] theorem State.setPoint_pwr_transit (n p : Nat) : (s.setPoint n p).pwr.transit = s.pwr.transit := rfl
@[simp] theorem State.setPoint_pwr_pending (n p : Nat) : (s.setPoint n p).pwr.pending = s.pwr.pending := rfl
@[simp] theorem State.setPoint_pwr_tiers (n p : Nat) : (s.setPoint n p).pwr.tiers = s.pwr.tiers := rfl
@[simp] theorem State.setPoint_pwr_image (n p : Nat) : (s.setPoint n p).pwr.image = s.pwr.image := rfl

/-! setDomain -/

@[simp] theorem State.setDomain_pending (i : Nat) (v : Bool) : (s.setDomain i v).pending = s.pending := rfl
@[simp] theorem State.setDomain_cpu (i : Nat) (v : Bool) : (s.setDomain i v).cpu = s.cpu := rfl
@[simp] theorem State.setDomain_work (i : Nat) (v : Bool) : (s.setDomain i v).work = s.work := rfl
@[simp] theorem State.setDomain_host (i : Nat) (v : Bool) : (s.setDomain i v).host = s.host := rfl
@[simp] theorem State.setDomain_errs (i : Nat) (v : Bool) : (s.setDomain i v).errs = s.errs := rfl
@[simp] theorem State.setDomain_mem (i : Nat) (v : Bool) : (s.setDomain i v).mem = s.mem := rfl
@[simp] theorem State.setDomain_trust (i : Nat) (v : Bool) : (s.setDomain i v).trust = s.trust := rfl
@[simp] theorem State.setDomain_media (i : Nat) (v : Bool) : (s.setDomain i v).media = s.media := rfl
@[simp] theorem State.setDomain_dmem (i : Nat) (v : Bool) : (s.setDomain i v).dmem = s.dmem := rfl
@[simp] theorem State.setDomain_undef (i : Nat) (v : Bool) : (s.setDomain i v).undef = s.undef := rfl
@[simp] theorem State.setDomain_poison (i : Nat) (v : Bool) : (s.setDomain i v).poison = s.poison := rfl
@[simp] theorem State.setDomain_draws (i : Nat) (v : Bool) : (s.setDomain i v).draws = s.draws := rfl
@[simp] theorem State.setDomain_sent (i : Nat) (v : Bool) : (s.setDomain i v).sent = s.sent := rfl
@[simp] theorem State.setDomain_pwr_aon (i : Nat) (v : Bool) : (s.setDomain i v).pwr.aon = s.pwr.aon := rfl
@[simp] theorem State.setDomain_pwr_state (i : Nat) (v : Bool) : (s.setDomain i v).pwr.state = s.pwr.state := rfl
@[simp] theorem State.setDomain_pwr_stage (i : Nat) (v : Bool) : (s.setDomain i v).pwr.stage = s.pwr.stage := rfl
@[simp] theorem State.setDomain_pwr_stageADone (i : Nat) (v : Bool) : (s.setDomain i v).pwr.stageADone = s.pwr.stageADone := rfl
@[simp] theorem State.setDomain_pwr_cfg (i : Nat) (v : Bool) : (s.setDomain i v).pwr.cfg = s.pwr.cfg := rfl
@[simp] theorem State.setDomain_pwr_ledger (i : Nat) (v : Bool) : (s.setDomain i v).pwr.ledger = s.pwr.ledger := rfl
@[simp] theorem State.setDomain_pwr_thermal (i : Nat) (v : Bool) : (s.setDomain i v).pwr.thermal = s.pwr.thermal := rfl
@[simp] theorem State.setDomain_pwr_fw (i : Nat) (v : Bool) : (s.setDomain i v).pwr.fw = s.pwr.fw := rfl
@[simp] theorem State.setDomain_pwr_armed (i : Nat) (v : Bool) : (s.setDomain i v).pwr.armed = s.pwr.armed := rfl
@[simp] theorem State.setDomain_pwr_transit (i : Nat) (v : Bool) : (s.setDomain i v).pwr.transit = s.pwr.transit := rfl
@[simp] theorem State.setDomain_pwr_pending (i : Nat) (v : Bool) : (s.setDomain i v).pwr.pending = s.pwr.pending := rfl
@[simp] theorem State.setDomain_pwr_tiers (i : Nat) (v : Bool) : (s.setDomain i v).pwr.tiers = s.pwr.tiers := rfl
@[simp] theorem State.setDomain_pwr_image (i : Nat) (v : Bool) : (s.setDomain i v).pwr.image = s.pwr.image := rfl

/-! setMedia -/

@[simp] theorem State.setMedia_pending (m : Media) : (s.setMedia m).pending = s.pending := rfl
@[simp] theorem State.setMedia_cpu (m : Media) : (s.setMedia m).cpu = s.cpu := rfl
@[simp] theorem State.setMedia_work (m : Media) : (s.setMedia m).work = s.work := rfl
@[simp] theorem State.setMedia_host (m : Media) : (s.setMedia m).host = s.host := rfl
@[simp] theorem State.setMedia_errs (m : Media) : (s.setMedia m).errs = s.errs := rfl
@[simp] theorem State.setMedia_pwr (m : Media) : (s.setMedia m).pwr = s.pwr := rfl
@[simp] theorem State.setMedia_mem (m : Media) : (s.setMedia m).mem = s.mem := rfl
@[simp] theorem State.setMedia_trust (m : Media) : (s.setMedia m).trust = s.trust := rfl
@[simp] theorem State.setMedia_dmem (m : Media) : (s.setMedia m).dmem = s.dmem := rfl
@[simp] theorem State.setMedia_undef (m : Media) : (s.setMedia m).undef = s.undef := rfl
@[simp] theorem State.setMedia_poison (m : Media) : (s.setMedia m).poison = s.poison := rfl
@[simp] theorem State.setMedia_draws (m : Media) : (s.setMedia m).draws = s.draws := rfl
@[simp] theorem State.setMedia_sent (m : Media) : (s.setMedia m).sent = s.sent := rfl

/-! setPort -/

@[simp] theorem State.setPort_pending (p : Nat) (x : Port) : (s.setPort p x).pending = s.pending := rfl
@[simp] theorem State.setPort_cpu (p : Nat) (x : Port) : (s.setPort p x).cpu = s.cpu := rfl
@[simp] theorem State.setPort_work (p : Nat) (x : Port) : (s.setPort p x).work = s.work := rfl
@[simp] theorem State.setPort_host (p : Nat) (x : Port) : (s.setPort p x).host = s.host := rfl
@[simp] theorem State.setPort_errs (p : Nat) (x : Port) : (s.setPort p x).errs = s.errs := rfl
@[simp] theorem State.setPort_pwr (p : Nat) (x : Port) : (s.setPort p x).pwr = s.pwr := rfl
@[simp] theorem State.setPort_mem (p : Nat) (x : Port) : (s.setPort p x).mem = s.mem := rfl
@[simp] theorem State.setPort_trust (p : Nat) (x : Port) : (s.setPort p x).trust = s.trust := rfl
@[simp] theorem State.setPort_dmem (p : Nat) (x : Port) : (s.setPort p x).dmem = s.dmem := rfl
@[simp] theorem State.setPort_undef (p : Nat) (x : Port) : (s.setPort p x).undef = s.undef := rfl
@[simp] theorem State.setPort_poison (p : Nat) (x : Port) : (s.setPort p x).poison = s.poison := rfl
@[simp] theorem State.setPort_draws (p : Nat) (x : Port) : (s.setPort p x).draws = s.draws := rfl
@[simp] theorem State.setPort_sent (p : Nat) (x : Port) : (s.setPort p x).sent = s.sent := rfl
@[simp] theorem State.setPort_media_fsync (p : Nat) (x : Port) : (s.setPort p x).media.fsync = s.media.fsync := rfl
@[simp] theorem State.setPort_media_ctxs (p : Nat) (x : Port) : (s.setPort p x).media.ctxs = s.media.ctxs := rfl
@[simp] theorem State.setPort_media_pipes (p : Nat) (x : Port) : (s.setPort p x).media.pipes = s.media.pipes := rfl
@[simp] theorem State.setPort_media_profiles (p : Nat) (x : Port) : (s.setPort p x).media.profiles = s.media.profiles := rfl
@[simp] theorem State.setPort_media_groups (p : Nat) (x : Port) : (s.setPort p x).media.groups = s.media.groups := rfl
@[simp] theorem State.setPort_media_wakes (p : Nat) (x : Port) : (s.setPort p x).media.wakes = s.media.wakes := rfl
@[simp] theorem State.setPort_media_streams (p : Nat) (x : Port) : (s.setPort p x).media.streams = s.media.streams := rfl
@[simp] theorem State.setPort_media_triggers (p : Nat) (x : Port) : (s.setPort p x).media.triggers = s.media.triggers := rfl
@[simp] theorem State.setPort_media_epoch (p : Nat) (x : Port) : (s.setPort p x).media.epoch = s.media.epoch := rfl

/-! setCam -/

@[simp] theorem State.setCam_pending (c : Nat) (x : CamCtx) : (s.setCam c x).pending = s.pending := rfl
@[simp] theorem State.setCam_cpu (c : Nat) (x : CamCtx) : (s.setCam c x).cpu = s.cpu := rfl
@[simp] theorem State.setCam_work (c : Nat) (x : CamCtx) : (s.setCam c x).work = s.work := rfl
@[simp] theorem State.setCam_host (c : Nat) (x : CamCtx) : (s.setCam c x).host = s.host := rfl
@[simp] theorem State.setCam_errs (c : Nat) (x : CamCtx) : (s.setCam c x).errs = s.errs := rfl
@[simp] theorem State.setCam_pwr (c : Nat) (x : CamCtx) : (s.setCam c x).pwr = s.pwr := rfl
@[simp] theorem State.setCam_mem (c : Nat) (x : CamCtx) : (s.setCam c x).mem = s.mem := rfl
@[simp] theorem State.setCam_trust (c : Nat) (x : CamCtx) : (s.setCam c x).trust = s.trust := rfl
@[simp] theorem State.setCam_dmem (c : Nat) (x : CamCtx) : (s.setCam c x).dmem = s.dmem := rfl
@[simp] theorem State.setCam_undef (c : Nat) (x : CamCtx) : (s.setCam c x).undef = s.undef := rfl
@[simp] theorem State.setCam_poison (c : Nat) (x : CamCtx) : (s.setCam c x).poison = s.poison := rfl
@[simp] theorem State.setCam_draws (c : Nat) (x : CamCtx) : (s.setCam c x).draws = s.draws := rfl
@[simp] theorem State.setCam_sent (c : Nat) (x : CamCtx) : (s.setCam c x).sent = s.sent := rfl
@[simp] theorem State.setCam_media_ports (c : Nat) (x : CamCtx) : (s.setCam c x).media.ports = s.media.ports := rfl
@[simp] theorem State.setCam_media_fsync (c : Nat) (x : CamCtx) : (s.setCam c x).media.fsync = s.media.fsync := rfl
@[simp] theorem State.setCam_media_pipes (c : Nat) (x : CamCtx) : (s.setCam c x).media.pipes = s.media.pipes := rfl
@[simp] theorem State.setCam_media_profiles (c : Nat) (x : CamCtx) : (s.setCam c x).media.profiles = s.media.profiles := rfl
@[simp] theorem State.setCam_media_groups (c : Nat) (x : CamCtx) : (s.setCam c x).media.groups = s.media.groups := rfl
@[simp] theorem State.setCam_media_wakes (c : Nat) (x : CamCtx) : (s.setCam c x).media.wakes = s.media.wakes := rfl
@[simp] theorem State.setCam_media_streams (c : Nat) (x : CamCtx) : (s.setCam c x).media.streams = s.media.streams := rfl
@[simp] theorem State.setCam_media_triggers (c : Nat) (x : CamCtx) : (s.setCam c x).media.triggers = s.media.triggers := rfl
@[simp] theorem State.setCam_media_epoch (c : Nat) (x : CamCtx) : (s.setCam c x).media.epoch = s.media.epoch := rfl

/-! setSource -/

@[simp] theorem State.setSource_pending (g : Nat) (x : FsyncSrc) : (s.setSource g x).pending = s.pending := rfl
@[simp] theorem State.setSource_cpu (g : Nat) (x : FsyncSrc) : (s.setSource g x).cpu = s.cpu := rfl
@[simp] theorem State.setSource_work (g : Nat) (x : FsyncSrc) : (s.setSource g x).work = s.work := rfl
@[simp] theorem State.setSource_host (g : Nat) (x : FsyncSrc) : (s.setSource g x).host = s.host := rfl
@[simp] theorem State.setSource_errs (g : Nat) (x : FsyncSrc) : (s.setSource g x).errs = s.errs := rfl
@[simp] theorem State.setSource_pwr (g : Nat) (x : FsyncSrc) : (s.setSource g x).pwr = s.pwr := rfl
@[simp] theorem State.setSource_mem (g : Nat) (x : FsyncSrc) : (s.setSource g x).mem = s.mem := rfl
@[simp] theorem State.setSource_trust (g : Nat) (x : FsyncSrc) : (s.setSource g x).trust = s.trust := rfl
@[simp] theorem State.setSource_dmem (g : Nat) (x : FsyncSrc) : (s.setSource g x).dmem = s.dmem := rfl
@[simp] theorem State.setSource_undef (g : Nat) (x : FsyncSrc) : (s.setSource g x).undef = s.undef := rfl
@[simp] theorem State.setSource_poison (g : Nat) (x : FsyncSrc) : (s.setSource g x).poison = s.poison := rfl
@[simp] theorem State.setSource_draws (g : Nat) (x : FsyncSrc) : (s.setSource g x).draws = s.draws := rfl
@[simp] theorem State.setSource_sent (g : Nat) (x : FsyncSrc) : (s.setSource g x).sent = s.sent := rfl
@[simp] theorem State.setSource_media_ports (g : Nat) (x : FsyncSrc) : (s.setSource g x).media.ports = s.media.ports := rfl
@[simp] theorem State.setSource_media_ctxs (g : Nat) (x : FsyncSrc) : (s.setSource g x).media.ctxs = s.media.ctxs := rfl
@[simp] theorem State.setSource_media_pipes (g : Nat) (x : FsyncSrc) : (s.setSource g x).media.pipes = s.media.pipes := rfl
@[simp] theorem State.setSource_media_profiles (g : Nat) (x : FsyncSrc) : (s.setSource g x).media.profiles = s.media.profiles := rfl
@[simp] theorem State.setSource_media_groups (g : Nat) (x : FsyncSrc) : (s.setSource g x).media.groups = s.media.groups := rfl
@[simp] theorem State.setSource_media_wakes (g : Nat) (x : FsyncSrc) : (s.setSource g x).media.wakes = s.media.wakes := rfl
@[simp] theorem State.setSource_media_streams (g : Nat) (x : FsyncSrc) : (s.setSource g x).media.streams = s.media.streams := rfl
@[simp] theorem State.setSource_media_triggers (g : Nat) (x : FsyncSrc) : (s.setSource g x).media.triggers = s.media.triggers := rfl
@[simp] theorem State.setSource_media_epoch (g : Nat) (x : FsyncSrc) : (s.setSource g x).media.epoch = s.media.epoch := rfl

/-! setGroup -/

@[simp] theorem State.setGroup_pending (g : Nat) (x : AudGroup) : (s.setGroup g x).pending = s.pending := rfl
@[simp] theorem State.setGroup_cpu (g : Nat) (x : AudGroup) : (s.setGroup g x).cpu = s.cpu := rfl
@[simp] theorem State.setGroup_work (g : Nat) (x : AudGroup) : (s.setGroup g x).work = s.work := rfl
@[simp] theorem State.setGroup_host (g : Nat) (x : AudGroup) : (s.setGroup g x).host = s.host := rfl
@[simp] theorem State.setGroup_errs (g : Nat) (x : AudGroup) : (s.setGroup g x).errs = s.errs := rfl
@[simp] theorem State.setGroup_pwr (g : Nat) (x : AudGroup) : (s.setGroup g x).pwr = s.pwr := rfl
@[simp] theorem State.setGroup_mem (g : Nat) (x : AudGroup) : (s.setGroup g x).mem = s.mem := rfl
@[simp] theorem State.setGroup_trust (g : Nat) (x : AudGroup) : (s.setGroup g x).trust = s.trust := rfl
@[simp] theorem State.setGroup_dmem (g : Nat) (x : AudGroup) : (s.setGroup g x).dmem = s.dmem := rfl
@[simp] theorem State.setGroup_undef (g : Nat) (x : AudGroup) : (s.setGroup g x).undef = s.undef := rfl
@[simp] theorem State.setGroup_poison (g : Nat) (x : AudGroup) : (s.setGroup g x).poison = s.poison := rfl
@[simp] theorem State.setGroup_draws (g : Nat) (x : AudGroup) : (s.setGroup g x).draws = s.draws := rfl
@[simp] theorem State.setGroup_sent (g : Nat) (x : AudGroup) : (s.setGroup g x).sent = s.sent := rfl
@[simp] theorem State.setGroup_media_ports (g : Nat) (x : AudGroup) : (s.setGroup g x).media.ports = s.media.ports := rfl
@[simp] theorem State.setGroup_media_fsync (g : Nat) (x : AudGroup) : (s.setGroup g x).media.fsync = s.media.fsync := rfl
@[simp] theorem State.setGroup_media_ctxs (g : Nat) (x : AudGroup) : (s.setGroup g x).media.ctxs = s.media.ctxs := rfl
@[simp] theorem State.setGroup_media_pipes (g : Nat) (x : AudGroup) : (s.setGroup g x).media.pipes = s.media.pipes := rfl
@[simp] theorem State.setGroup_media_profiles (g : Nat) (x : AudGroup) : (s.setGroup g x).media.profiles = s.media.profiles := rfl
@[simp] theorem State.setGroup_media_wakes (g : Nat) (x : AudGroup) : (s.setGroup g x).media.wakes = s.media.wakes := rfl
@[simp] theorem State.setGroup_media_streams (g : Nat) (x : AudGroup) : (s.setGroup g x).media.streams = s.media.streams := rfl
@[simp] theorem State.setGroup_media_triggers (g : Nat) (x : AudGroup) : (s.setGroup g x).media.triggers = s.media.triggers := rfl
@[simp] theorem State.setGroup_media_epoch (g : Nat) (x : AudGroup) : (s.setGroup g x).media.epoch = s.media.epoch := rfl

/-! setTrust -/

@[simp] theorem State.setTrust_pending (t : Trust) : (s.setTrust t).pending = s.pending := rfl
@[simp] theorem State.setTrust_cpu (t : Trust) : (s.setTrust t).cpu = s.cpu := rfl
@[simp] theorem State.setTrust_work (t : Trust) : (s.setTrust t).work = s.work := rfl
@[simp] theorem State.setTrust_host (t : Trust) : (s.setTrust t).host = s.host := rfl
@[simp] theorem State.setTrust_errs (t : Trust) : (s.setTrust t).errs = s.errs := rfl
@[simp] theorem State.setTrust_pwr (t : Trust) : (s.setTrust t).pwr = s.pwr := rfl
@[simp] theorem State.setTrust_mem (t : Trust) : (s.setTrust t).mem = s.mem := rfl
@[simp] theorem State.setTrust_media (t : Trust) : (s.setTrust t).media = s.media := rfl
@[simp] theorem State.setTrust_dmem (t : Trust) : (s.setTrust t).dmem = s.dmem := rfl
@[simp] theorem State.setTrust_undef (t : Trust) : (s.setTrust t).undef = s.undef := rfl
@[simp] theorem State.setTrust_poison (t : Trust) : (s.setTrust t).poison = s.poison := rfl
@[simp] theorem State.setTrust_draws (t : Trust) : (s.setTrust t).draws = s.draws := rfl
@[simp] theorem State.setTrust_sent (t : Trust) : (s.setTrust t).sent = s.sent := rfl

/-! setMbox -/

@[simp] theorem State.setMbox_pending (f : Nat) (m : Mbox) : (s.setMbox f m).pending = s.pending := rfl
@[simp] theorem State.setMbox_cpu (f : Nat) (m : Mbox) : (s.setMbox f m).cpu = s.cpu := rfl
@[simp] theorem State.setMbox_work (f : Nat) (m : Mbox) : (s.setMbox f m).work = s.work := rfl
@[simp] theorem State.setMbox_host (f : Nat) (m : Mbox) : (s.setMbox f m).host = s.host := rfl
@[simp] theorem State.setMbox_errs (f : Nat) (m : Mbox) : (s.setMbox f m).errs = s.errs := rfl
@[simp] theorem State.setMbox_pwr (f : Nat) (m : Mbox) : (s.setMbox f m).pwr = s.pwr := rfl
@[simp] theorem State.setMbox_mem (f : Nat) (m : Mbox) : (s.setMbox f m).mem = s.mem := rfl
@[simp] theorem State.setMbox_media (f : Nat) (m : Mbox) : (s.setMbox f m).media = s.media := rfl
@[simp] theorem State.setMbox_dmem (f : Nat) (m : Mbox) : (s.setMbox f m).dmem = s.dmem := rfl
@[simp] theorem State.setMbox_undef (f : Nat) (m : Mbox) : (s.setMbox f m).undef = s.undef := rfl
@[simp] theorem State.setMbox_poison (f : Nat) (m : Mbox) : (s.setMbox f m).poison = s.poison := rfl
@[simp] theorem State.setMbox_draws (f : Nat) (m : Mbox) : (s.setMbox f m).draws = s.draws := rfl
@[simp] theorem State.setMbox_sent (f : Nat) (m : Mbox) : (s.setMbox f m).sent = s.sent := rfl
@[simp] theorem State.setMbox_trust_revoke (f : Nat) (m : Mbox) : (s.setMbox f m).trust.revoke = s.trust.revoke := rfl
@[simp] theorem State.setMbox_trust_fwSvn (f : Nat) (m : Mbox) : (s.setMbox f m).trust.fwSvn = s.trust.fwSvn := rfl
@[simp] theorem State.setMbox_trust_recogSvn (f : Nat) (m : Mbox) : (s.setMbox f m).trust.recogSvn = s.trust.recogSvn := rfl
@[simp] theorem State.setMbox_trust_weightKeys (f : Nat) (m : Mbox) : (s.setMbox f m).trust.weightKeys = s.trust.weightKeys := rfl
@[simp] theorem State.setMbox_trust_bindings (f : Nat) (m : Mbox) : (s.setMbox f m).trust.bindings = s.trust.bindings := rfl
@[simp] theorem State.setMbox_trust_releases (f : Nat) (m : Mbox) : (s.setMbox f m).trust.releases = s.trust.releases := rfl
@[simp] theorem State.setMbox_trust_runSvn (f : Nat) (m : Mbox) : (s.setMbox f m).trust.runSvn = s.trust.runSvn := rfl
@[simp] theorem State.setMbox_trust_recogImageSvn (f : Nat) (m : Mbox) : (s.setMbox f m).trust.recogImageSvn = s.trust.recogImageSvn := rfl

/-! emit -/

@[simp] theorem State.emit_pending (o : Out) : (s.emit o).pending = s.pending := rfl
@[simp] theorem State.emit_cpu (o : Out) : (s.emit o).cpu = s.cpu := rfl
@[simp] theorem State.emit_work (o : Out) : (s.emit o).work = s.work := rfl
@[simp] theorem State.emit_host (o : Out) : (s.emit o).host = s.host := rfl
@[simp] theorem State.emit_errs (o : Out) : (s.emit o).errs = s.errs := rfl
@[simp] theorem State.emit_pwr (o : Out) : (s.emit o).pwr = s.pwr := rfl
@[simp] theorem State.emit_mem (o : Out) : (s.emit o).mem = s.mem := rfl
@[simp] theorem State.emit_trust (o : Out) : (s.emit o).trust = s.trust := rfl
@[simp] theorem State.emit_media (o : Out) : (s.emit o).media = s.media := rfl
@[simp] theorem State.emit_dmem (o : Out) : (s.emit o).dmem = s.dmem := rfl
@[simp] theorem State.emit_undef (o : Out) : (s.emit o).undef = s.undef := rfl
@[simp] theorem State.emit_poison (o : Out) : (s.emit o).poison = s.poison := rfl
@[simp] theorem State.emit_draws (o : Out) : (s.emit o).draws = s.draws := rfl

/-! setPoison -/

@[simp] theorem State.setPoison_pending (a n : Nat) : (s.setPoison a n).pending = s.pending := rfl
@[simp] theorem State.setPoison_cpu (a n : Nat) : (s.setPoison a n).cpu = s.cpu := rfl
@[simp] theorem State.setPoison_work (a n : Nat) : (s.setPoison a n).work = s.work := rfl
@[simp] theorem State.setPoison_host (a n : Nat) : (s.setPoison a n).host = s.host := rfl
@[simp] theorem State.setPoison_errs (a n : Nat) : (s.setPoison a n).errs = s.errs := rfl
@[simp] theorem State.setPoison_pwr (a n : Nat) : (s.setPoison a n).pwr = s.pwr := rfl
@[simp] theorem State.setPoison_mem (a n : Nat) : (s.setPoison a n).mem = s.mem := rfl
@[simp] theorem State.setPoison_trust (a n : Nat) : (s.setPoison a n).trust = s.trust := rfl
@[simp] theorem State.setPoison_media (a n : Nat) : (s.setPoison a n).media = s.media := rfl
@[simp] theorem State.setPoison_dmem (a n : Nat) : (s.setPoison a n).dmem = s.dmem := rfl
@[simp] theorem State.setPoison_undef (a n : Nat) : (s.setPoison a n).undef = s.undef := rfl
@[simp] theorem State.setPoison_draws (a n : Nat) : (s.setPoison a n).draws = s.draws := rfl
@[simp] theorem State.setPoison_sent (a n : Nat) : (s.setPoison a n).sent = s.sent := rfl

/-! clearPoison -/

@[simp] theorem State.clearPoison_pending (a n : Nat) : (s.clearPoison a n).pending = s.pending := rfl
@[simp] theorem State.clearPoison_cpu (a n : Nat) : (s.clearPoison a n).cpu = s.cpu := rfl
@[simp] theorem State.clearPoison_work (a n : Nat) : (s.clearPoison a n).work = s.work := rfl
@[simp] theorem State.clearPoison_host (a n : Nat) : (s.clearPoison a n).host = s.host := rfl
@[simp] theorem State.clearPoison_errs (a n : Nat) : (s.clearPoison a n).errs = s.errs := rfl
@[simp] theorem State.clearPoison_pwr (a n : Nat) : (s.clearPoison a n).pwr = s.pwr := rfl
@[simp] theorem State.clearPoison_mem (a n : Nat) : (s.clearPoison a n).mem = s.mem := rfl
@[simp] theorem State.clearPoison_trust (a n : Nat) : (s.clearPoison a n).trust = s.trust := rfl
@[simp] theorem State.clearPoison_media (a n : Nat) : (s.clearPoison a n).media = s.media := rfl
@[simp] theorem State.clearPoison_dmem (a n : Nat) : (s.clearPoison a n).dmem = s.dmem := rfl
@[simp] theorem State.clearPoison_undef (a n : Nat) : (s.clearPoison a n).undef = s.undef := rfl
@[simp] theorem State.clearPoison_draws (a n : Nat) : (s.clearPoison a n).draws = s.draws := rfl
@[simp] theorem State.clearPoison_sent (a n : Nat) : (s.clearPoison a n).sent = s.sent := rfl

/-! What is read after an update. -/

@[simp] theorem State.setPwr_pwr (p : Power) : (s.setPwr p).pwr = p := rfl
@[simp] theorem State.setMedia_media (m : Media) : (s.setMedia m).media = m := rfl
@[simp] theorem State.setTrust_trust (t : Trust) : (s.setTrust t).trust = t := rfl
@[simp] theorem State.setLedger_ledger (l : Ledger) : (s.setLedger l).pwr.ledger = l := rfl
@[simp] theorem State.setThermal_thermal (t : Thermal) : (s.setThermal t).pwr.thermal = t := rfl
@[simp] theorem State.setSync_sync (u : SyncUnit) : (s.setSync u).cpu.sync = u := rfl
@[simp] theorem State.setPost_post (u : PostUnit) : (s.setPost u).cpu.post = u := rfl
@[simp] theorem State.setTrace_trace (t : Trace) : (s.setTrace t).host.trace = t := rfl
@[simp] theorem State.emit_sent (o : Out) : (s.emit o).sent = o :: s.sent := rfl

theorem State.core_setCore (n m : Nat) (c : Core) : (s.setCore n c).core m = if m = n then c else s.core m := Tbl.get_set ..
@[simp] theorem State.core_setCore_same (n : Nat) (c : Core) : (s.setCore n c).core n = c := Tbl.get_set_same ..
theorem State.cluster_setCluster (n m : Nat) (c : Cluster) : (s.setCluster n c).cluster m = if m = n then c else s.cluster m := Tbl.get_set ..
@[simp] theorem State.cluster_setCluster_same (n : Nat) (c : Cluster) : (s.setCluster n c).cluster n = c := Tbl.get_set_same ..
theorem State.part_setPart (n m : Nat) (x : Part) : (s.setPart n x).part m = if m = n then some x else s.part m := Tbl.find_put ..
@[simp] theorem State.part_setPart_same (n : Nat) (x : Part) : (s.setPart n x).part n = some x := Tbl.find_put_same ..
theorem State.ctx_setCtx (n m : Nat) (c : Ctx) : (s.setCtx n c).ctx m = if m = n then c else s.ctx m := Tbl.get_set ..
@[simp] theorem State.ctx_setCtx_same (n : Nat) (c : Ctx) : (s.setCtx n c).ctx n = c := Tbl.get_set_same ..
theorem State.seq_setSeq (n m : Nat) (e : SeqEntry) : (s.setSeq n e).seq m = if m = n then e else s.seq m := Tbl.get_set ..
theorem State.serving_setServing (n m : Nat) (x : Serving) : (s.setServing n x).serving m = if m = n then x else s.serving m := Tbl.get_set ..
@[simp] theorem State.fn_setFn_same (f : Nat) (x : Fn) : (s.setFn f x).fn f = x := Tbl.get_set_same ..
theorem State.fn_setFn (f g : Nat) (x : Fn) : (s.setFn f x).fn g = if g = f then x else s.fn g := by
  by_cases h : g = f
  · subst h; simp
  · rw [if_neg h]; unfold State.fn State.setFn Tbl.get Tbl.set; dsimp only
    split
    · rw [Tbl.find_del, if_neg h]
    · rw [Tbl.find_put, if_neg h]
theorem State.link_setLink_same (l : Nat) (_hl : l < 2) (x : Link) : (s.setLink l x).link l = x := by
  unfold State.setLink State.link; split <;> simp_all
theorem State.port_setPort (n m : Nat) (x : Port) : (s.setPort n x).media.port m = if m = n then x else s.media.port m := Tbl.get_set ..
@[simp] theorem State.port_setPort_same (n : Nat) (x : Port) : (s.setPort n x).media.port n = x := Tbl.get_set_same ..
theorem State.cam_setCam (n m : Nat) (x : CamCtx) : (s.setCam n x).media.cam m = if m = n then some x else s.media.cam m := Tbl.find_put ..
@[simp] theorem State.cam_setCam_same (n : Nat) (x : CamCtx) : (s.setCam n x).media.cam n = some x := Tbl.find_put_same ..
theorem State.source_setSource (n m : Nat) (x : FsyncSrc) : (s.setSource n x).media.source m = if m = n then x else s.media.source m := Tbl.get_set ..
theorem State.group_setGroup (n m : Nat) (x : AudGroup) : (s.setGroup n x).media.group m = if m = n then x else s.media.group m := Tbl.get_set ..
@[simp] theorem State.group_setGroup_same (n : Nat) (x : AudGroup) : (s.setGroup n x).media.group n = x := Tbl.get_set_same ..
theorem State.margin_setMargin (n m : Nat) (x : Margin) : (s.setMargin n x).margin m = if m = n then x else s.margin m := Tbl.get_set ..
theorem State.mbox_setMbox (n m : Nat) (x : Mbox) : (s.setMbox n x).mbox m = if m = n then x else s.mbox m := Tbl.get_set ..
theorem State.domainOn_setDomain (n m : Nat) (v : Bool) : (s.setDomain n v).domainOn m = if m = n then v else s.domainOn m := Tbl.get_set ..

end Sys2Proof.Machine
end

