-- ==== Sys2Proof/Machine/ConfigSpace.lean ====
section
/-!
DEFINITION. What each function presents in its configuration space (R2, R496, R503, R505, Tables 11.3 and 11.4).
-/
namespace Sys2Proof.Machine

/-- The capabilities of Table 11.3. -/
inductive Capability where
  | pciExpress
  | powerManagement
  | msix
  | aer
  | sriov
  | ari
  | ptm
  | doe
  | functionLevelReset
  deriving DecidableEq, Repr

/-- Identity and capabilities of a function (Table 11.3). -/
structure Identity where
  vendor : Nat
  device : Nat
  revision : Nat
  classCode : Nat
  capabilities : List Capability
  maxPayload : Nat
  deriving DecidableEq, Repr

/-- A function is the lead function of link 1 (R496). -/
def State.isLead (s : State) (f : Nat) : Bool := s.host.split && f == s.host.link1First

/-- The function presents a physical function's configuration space (R496). -/
def State.isPhysical (s : State) (f : Nat) : Bool := f == 0 || s.isLead f

/-- What a function presents (R2, R503). -/
def State.identity (s : State) (f : Nat) : Identity :=
  { vendor := 0x1E9C, device := if f = 0 then 0x9640 else if s.isLead f then 0x9642 else 0x9641, revision := 0xB1, classCode := 0x120000,
    capabilities := if s.isPhysical f then [.pciExpress, .powerManagement, .msix, .aer, .sriov, .ari, .ptm, .doe]
      else [.pciExpress, .msix, .functionLevelReset],
    maxPayload := 256 }

/-- The identity words at offsets 0x00 and 0x08 of the PCI configuration header: Vendor ID and Device ID, Revision ID and class code
(Table 11.3; the header's layout is the PCI Express specification's, PRESUMED, log entry 177). -/
def State.configWord (s : State) (f off : Nat) : Word :=
  let x := s.identity f
  match off with
  | 0x00 => BitVec.ofNat 32 (x.device * 65536 + x.vendor)
  | 0x08 => BitVec.ofNat 32 (x.classCode * 256 + x.revision)
  | _ => 0

/-- The physical function whose SR-IOV capability a VF belongs to: that of its link (R496, R505). -/
def State.parentOf (s : State) (f : Nat) : Nat := if s.linkOf f = 1 then s.host.link1First else 0

/-- The number of a tenant VF as a virtual function of its parent: VF t is number t of PF0, and number t − L of the lead function of
link 1 (R496). -/
def State.vfNumber (s : State) (f : Nat) : Option Nat := if s.isPhysical f then none else some (f - s.parentOf f)

/-- Features of a link's physical and data link layers (R498). Speeds are the codes of QUE_LINK_STATUS, 0 being the 2.5 GT/s that training
passes through; a width is in lanes. -/
structure LinkFeatures where
  speeds : List Nat
  widths : List Nat
  laneReversal : Bool
  polarityInversion : Bool
  aspmL0s : Bool
  aspmL1 : Bool
  deriving DecidableEq, Repr

/-- What link l can do (R498, Table 11.1). -/
def State.linkFeatures (s : State) (l : Nat) : LinkFeatures :=
  { speeds := [0, 1, 2, 3], widths := if s.host.split || l == 1 then [8, 4, 2] else [16, 8, 4, 2], laneReversal := true,
    polarityInversion := true, aspmL0s := false, aspmL1 := true }

/-- How a request of the host that the module does not serve is completed. -/
inductive CplStatus where
  | successful
  | unsupportedRequest
  deriving DecidableEq, Repr

/-- The answer to an AtomicOp request (R504). -/
def atomicOpAnswer : CplStatus := .unsupportedRequest

/-- Bytes of BAR0, BAR2 and BAR4 of a function (Table 11.4). -/
def barBytes (f bar : Nat) : Nat :=
  match bar with
  | 0 => 64 * 2 ^ 20
  | 2 => if f = 0 then 8 * 2 ^ 30 else 2 ^ 30
  | 4 => 256 * 2 ^ 10
  | _ => 0

/-- A base address register: its size, whether it takes 64 bits, and whether it is prefetchable (Table 11.4). -/
structure Bar where
  bytes : Nat
  wide : Bool
  prefetchable : Bool
  deriving DecidableEq, Repr

/-- BAR i of a function, i = 0, 2 or 4 (Table 11.4). -/
def barOf (f i : Nat) : Option Bar :=
  if i = 0 ∨ i = 2 ∨ i = 4 then some { bytes := barBytes f i, wide := true, prefetchable := i == 2 } else none

/-- The BARs that a function's own header holds; a VF's are the VF BARs of its parent's SR-IOV capability (R505). -/
def State.headerBar (s : State) (f i : Nat) : Option Bar := if s.isPhysical f then barOf f i else none

/-- The VF BARs in a physical function's SR-IOV capability (R505). -/
def State.vfBar (s : State) (f i : Nat) : Option Bar := if s.isPhysical f then barOf 1 i else none

end Sys2Proof.Machine
end

