-- ==== Sys2Proof/Machine/Response.lean ====
section
/-!
DEFINITION. The response that R463 states of every valid decimation chain. The manual gives no tap, so the taps are free and a claim about
the response takes it as a premise (log entry 112).
-/
namespace Sys2Proof.Machine

/-- The chain of ratio 4n meets R463, with frequencies in parts of the output rate: the gain of its fifth-order CIC and its two symmetric
filters lies within ±0.1 dB of that at 0 up to 0.42 f_s and 80 dB below from 0.58 f_s up to half the PDM clock, and an unsettled sample is the
filters' sum in 24 bits but for its rounding. -/
def Chain.Meets (n : Nat) : Prop :=
  let cic : ℝ → ℝ := fun f => (Real.sin (Real.pi * f / 4) / (n * Real.sin (Real.pi * f / (4 * n)))) ^ 5
  let one : ℝ → ℝ := fun f =>
    (hb1Tap n 11 : ℝ) + ((List.range 11).map (fun k => 2 * (hb1Tap n k : ℝ) * Real.cos (2 * Real.pi * f * (11 - (k : ℝ)) / 4))).sum
  let two : ℝ → ℝ := fun f =>
    (hb2Tap n 23 : ℝ) + ((List.range 23).map (fun k => 2 * (hb2Tap n k : ℝ) * Real.cos (2 * Real.pi * f * (23 - (k : ℝ)) / 2))).sum
  let unit : ℝ := one 0 * two 0
  0 < unit ∧
  (∀ f : ℝ, 0 < f → f ≤ 0.42 → (10 : ℝ) ^ (-0.005 : ℝ) * unit ≤ |cic f * one f * two f| ∧
    |cic f * one f * two f| ≤ (10 : ℝ) ^ (0.005 : ℝ) * unit) ∧
  (∀ f : ℝ, 0.58 ≤ f → f ≤ 2 * (n : ℝ) → |cic f * one f * two f| ≤ (10 : ℝ) ^ (-4 : ℝ) * unit) ∧
  ∀ y : Int, |(Config.chainRound n y : ℝ) - (y : ℝ) * 2 ^ 23 / ((n : ℝ) ^ 5 * unit)| ≤ 1

end Sys2Proof.Machine
end

