-- ==== Sys2Proof/Tests/Slice0.lean ====
section
/-!
SUPPORT. Witnesses that the hypotheses of the statements are met together, ill-formed commands that the check refuses, and small tests.
-/
namespace Sys2Proof.Tests

open Sys2Proof.Machine

/-! States of the tests. -/

/-- A state of which the hypotheses of statements are shown: powered, in Canopy, firmware running, every domain and stack on. -/
def tOn : State :=
  { State.reset with
    pwr := { Power.reset with
      aon := true, stageADone := true, stage := 2, state := 4, on := (List.range 184).map (fun i => (i, true)),
      fw := { Firmware.reset with running := true } }
    mem := { Mem.reset with stackOn := [(0, true), (1, true), (2, true), (3, true)] } }

/-- Partition 0 of function 1 with core 0, every granule of cluster 0 and the first eight pages. -/
def tPart : Part :=
  { fn := 1, realtime := false, stemExcl := true, minClock := 0, maxClock := 3, save64k := 16, sharersMax := 0, memShare := 8,
    coreMask := 1, granules := [65535], extents := [(0, 8)], keySlot := 0, yieldSync := 0, reserve := [], clearing := false, placed := [] }

/-- A work item of context 64, descriptor 0, partition 0. -/
def tWork : CoreWork := { ctx := 64, idx := 0, part := 0, gen := 0 }

/-- A program of eight instructions with one tile. -/
def tProg : Program :=
  { compat := false, realtime := false, features := 7, liveBytes := 0, codeWords := 8, codeBase := 0, live := [[]], iova := false, imageBase := 0, words := [0, 0, 0, 0, 0, 0, 0, 0] }

/-- A core in the body of tile 0 at an instruction word. -/
def tCore (w : Dword) : Core :=
  { Core.reset with
    run := .running, work := some tWork, prog := some { tProg with words := [w, 0, 0, 0, 0, 0, 0, 0] }, code := [w, 0, 0, 0, 0, 0, 0, 0], allow := 3,
    tile := some { id := 0, pos := 0, inBody := true, proxies := [] } }

/-- The same core outside every tile. -/
def tFree (w : Dword) : Core := { tCore w with tile := none }

/-- The same core in the preamble of tile 0. -/
def tPre (w : Dword) : Core := { tCore w with tile := some { id := 0, pos := 0, inBody := false, proxies := [] } }

/-- An object of partition 0, function 1. -/
def tSync : SyncObj := { value := 0, fn := 1, part := 0, gen := 0, pf0 := false }

/-- Context group 1 belongs to function 1, partition 0 stands, sync object 5 is its own. -/
def tBase : State :=
  { tOn with
    cpu := { Cpu.reset with sync := { SyncUnit.reset with objs := [(5, tSync)] } }
    work := { Work.reset with parts := [(0, tPart)] }
    host := { HostSide.reset with groupOwner := [(1, 1)] } }

/-- Core 0 is c. -/
def tSeq (c : Core) : State := { tBase with cpu := { tBase.cpu with cores := [(0, c)] } }

theorem tSeq_issues {c : Core} {w : Nat} (hr : c.run = .running) (hw : c.wordAt c.pc = some w) : Issues (tSeq c) 0 c w :=
  ⟨rfl, by simp [State.issuing, tSeq, tBase, tOn, State.core, Tbl.get, Tbl.find, hr, State.reset, Errs.reset], hw⟩

/-- A served request of a function, seen on concrete states. -/
theorem served_of {s : State} {f : Nat} {e r : Bool} (a : decide (diff32 (s.fn f).repTail.toNat (s.fn f).repHead.toNat + (s.fn f).owed.length ≠ 512) = true)
    (b : (!s.errs.halted || r) = true) (c : (s.pwr.fw.running || e) = true) : Served s f e r := by
  refine ⟨of_decide_eq_true a, ?_, ?_⟩ <;> simp_all [Bool.or_eq_true]

/-! Witnesses for the statements about the machine and the sequencer: each shows the hypotheses of its statement met. -/

/-- An instruction word of an opcode over its lower 56 bits. -/
def tWord (op low : Nat) : Nat := op * 2 ^ 56 + low

/-- Core 0 in a body, before a tile, or in a preamble, at a word. -/
def tBody (w : Nat) : Core := tCore (BitVec.ofNat 64 w)
def tOut (w : Nat) : Core := tFree (BitVec.ofNat 64 w)
def tHead (w : Nat) : Core := tPre (BitVec.ofNat 64 w)

theorem test_queue_front : step { tOn with pending := [.thermalRecoveryStep, .ledgerHold []] } =
    exec .thermalRecoveryStep { tOn with pending := [.ledgerHold []] } := rfl

theorem test_empty_queue_counts : step tOn = .next { tOn with host := { tOn.host with refTicks := 1 } } := by rfl

theorem wit_EveryStepKeepsMemoryCanonical : tOn.MemOk ∧ ∃ t, step { tOn with pending := [.thermalRecoveryStep] } = .next t :=
  ⟨by decide, _, rfl⟩

theorem wit_ExecLeavesTheQueue : ∃ t, exec .thermalRecoveryStep tOn = .next t := ⟨_, rfl⟩

/-- SALU MOV s1, #5, the last operation of R784. -/
theorem wit_ScalarInstructions_salu : Issues (tSeq (tBody (tWord 0x0A 0x34200400000005))) 0 (tBody (tWord 0x0A 0x34200400000005)) (tWord 0x0A 0x34200400000005) ∧
    (tBody (tWord 0x0A 0x34200400000005)).anyReady false = true ∧ opcodeOf (tWord 0x0A 0x34200400000005) = 0x0A ∧
    reservedSet (tWord 0x0A 0x34200400000005) 0xFFFFFFFCFFFFFFFF = false ∧ saluOp (bits (tWord 0x0A 0x34200400000005) 55 50) 0 5 = some 5 ∧
    bits (tWord 0x0A 0x34200400000005) 49 45 = 1 := ⟨tSeq_issues rfl (by decide), by decide⟩

theorem wit_ScalarInstructions_aalu : Issues (tSeq (tOut (tWord 0x0C 0x20000000000008))) 0 (tOut (tWord 0x0C 0x20000000000008)) (tWord 0x0C 0x20000000000008) ∧
    (tOut (tWord 0x0C 0x20000000000008)).anyReady true = true ∧ opcodeOf (tWord 0x0C 0x20000000000008) = 0x0C :=
  ⟨tSeq_issues rfl (by decide), by decide⟩

/-- LOOP over one instruction, twice, and with count 0. -/
theorem wit_ControlFlow_loop (n : Nat) (h : n = 0 ∨ n = 2) :
    Issues (tSeq (tBody (tWord 0x08 (2 ^ 24 + n)))) 0 (tBody (tWord 0x08 (2 ^ 24 + n))) (tWord 0x08 (2 ^ 24 + n)) ∧
    (tBody (tWord 0x08 (2 ^ 24 + n))).anyReady false = true ∧ opcodeOf (tWord 0x08 (2 ^ 24 + n)) = 0x08 ∧
    reservedSet (tWord 0x08 (2 ^ 24 + n)) 0xFFFE00FFFFFFFFFF = false ∧ bits (tWord 0x08 (2 ^ 24 + n)) 39 24 = 1 ∧
    bits (tWord 0x08 (2 ^ 24 + n)) 53 49 = 0 ∧ bits (tWord 0x08 (2 ^ 24 + n)) 23 0 = n ∧ bits (tWord 0x08 (2 ^ 24 + n)) 55 54 = 0 ∧
    (∀ q, 0 < q → q ≤ 1 → (tBody (tWord 0x08 (2 ^ 24 + n))).opAt q ≠ 1 ∧ (tBody (tWord 0x08 (2 ^ 24 + n))).opAt q ≠ 2) := by
  rcases h with rfl | rfl <;>
    exact ⟨tSeq_issues rfl (by decide), by decide, by decide, by decide, by decide, by decide, by decide, by decide,
      fun q h1 h2 => by
        obtain rfl : q = 1 := by omega
        decide⟩

/-- BRANCH by one on equality of two equal registers, and on inequality. -/
theorem wit_ControlFlow_branch : Issues (tSeq (tBody (tWord 0x09 0x10000000000001))) 0 (tBody (tWord 0x09 0x10000000000001)) (tWord 0x09 0x10000000000001) ∧
    opcodeOf (tWord 0x09 0x10000000000001) = 0x09 ∧ reservedSet (tWord 0x09 0x10000000000001) 0xFFFFFC00FFFFFFFF = false ∧
    branchHolds (bits (tWord 0x09 0x10000000000001) 55 52) 0 0 = some true ∧
    (tBody (tWord 0x09 0x10000000000001)).entered.branchBad (0 + sext 32 1) = false ∧
    opcodeOf (tWord 0x09 0x20000000000001) = 0x09 ∧ reservedSet (tWord 0x09 0x20000000000001) 0xFFFFFC00FFFFFFFF = false ∧
    branchHolds (bits (tWord 0x09 0x20000000000001) 55 52) 0 0 = some false := ⟨tSeq_issues rfl (by decide), by decide⟩

theorem wit_LoopBodyRunsItsCount : (0 : Nat) < 2 ∧ landing [{ start := 3, len := 2, left := 2 }] 5 = (3, [{ start := 3, len := 2, left := 1 }]) := by
  decide

/-- SLDST at the last word of the store and one past it, store and load; VLDST and TDLOAD of place 0. -/
theorem wit_CoreStoreAccess : Issues (tSeq (tBody (tWord 0x0B 0x80000000000000))) 0 (tBody (tWord 0x0B 0x80000000000000)) (tWord 0x0B 0x80000000000000) ∧
    reservedSet (tWord 0x0B 0x80000000000000) 0xFFFF8000001FFFFF = false ∧ bit (tWord 0x0B 0x80000000000000) 55 = true ∧
    reservedSet (tWord 0x0B (coreStoreBytes - 4)) 0xFFFF8000001FFFFF = false ∧ bits (tWord 0x0B (coreStoreBytes - 4)) 20 0 % 4 = 0 ∧
    bits (tWord 0x0B (coreStoreBytes - 4)) 20 0 + 4 = coreStoreBytes ∧ bit (tWord 0x0B (coreStoreBytes - 4)) 55 = false ∧
    (tSeq (tBody 0)).corePoisoned 0 (coreStoreBytes - 4) 4 = false ∧
    ((tBody 0).setAreg 1 4).areg (bits (tWord 0x0B (2 ^ 47 + coreStoreBytes - 4)) 49 47) = 4 ∧
    coreStoreBytes < 4 + bits (tWord 0x0B (2 ^ 47 + coreStoreBytes - 4)) 20 0 + 4 ∧
    reservedSet (tWord 0x0B (2 ^ 47 + coreStoreBytes - 4)) 0xFFFF8000001FFFFF = false ∧
    reservedSet (tWord 0x21 0x80000000000000) 0xFF80FC00001FFFFF = false ∧ reservedSet (tWord 0x21 0) 0xFF80FC00001FFFFF = false ∧
    (tSeq (tBody 0)).corePoisoned 0 0 512 = false ∧ (tBody 0).bodyReady false = true ∧ reservedSet (tWord 0x06 0) 0xFF0F00000000FFFF = false ∧
    (tSeq (tBody 0)).corePoisoned 0 0 32 = false ∧ ({ tSeq (tBody 0) with poison := [(coreBase 0 / 8, true)] } : State).corePoisoned 0 0 4 = true := ⟨tSeq_issues rfl (by decide), by decide⟩

theorem wit_TileOpensAndCommits : Issues (tSeq (tOut (tWord 0x01 0))) 0 (tOut (tWord 0x01 0)) (tWord 0x01 0) ∧
    reservedSet (tWord 0x01 0) 0xFF0000000000FFFF = false ∧ (tOut (tWord 0x01 0)).minuetReq = false ∧ (tOut (tWord 0x01 0)).tile = none ∧
    bits (tWord 0x01 0) 15 0 < tProg.live.length ∧ (tOut (tWord 0x01 0)).prog = some { tProg with words := [BitVec.ofNat 64 (tWord 0x01 0), 0, 0, 0, 0, 0, 0, 0] } ∧
    Issues (tSeq { tBody (tWord 0x02 0) with commitQ := [.signal 5 1] }) 0 { tBody (tWord 0x02 0) with commitQ := [.signal 5 1] } (tWord 0x02 0) ∧
    reservedSet (tWord 0x02 0) 0xFF00000000000000 = false ∧ (tSeq { tBody (tWord 0x02 0) with commitQ := [.signal 5 1] }).ownsSync 0 0 5 = true :=
  ⟨tSeq_issues rfl (by decide), by decide, by decide, by decide, by decide, by decide, tSeq_issues rfl (by decide), by decide, by decide⟩

/-- SIGNAL of object 5 and MOVE of the descriptor at 0, with an empty and with a full queue. -/
theorem wit_SignalAndMoveQueue : Issues (tSeq (tBody (tWord 0x04 (2 ^ 32 + 5)))) 0 (tBody (tWord 0x04 (2 ^ 32 + 5))) (tWord 0x04 (2 ^ 32 + 5)) ∧
    (tBody (tWord 0x04 (2 ^ 32 + 5))).bodyReady false = true ∧ reservedSet (tWord 0x04 (2 ^ 32 + 5)) 0xFF00FFFF0000FFFF = false ∧
    bits (tWord 0x04 (2 ^ 32 + 5)) 47 32 ≠ 0 ∧
    (tSeq (tBody (tWord 0x04 (2 ^ 32 + 5)))).ownsSync (tBody (tWord 0x04 (2 ^ 32 + 5))).owner.1 (tBody (tWord 0x04 (2 ^ 32 + 5))).owner.2 5 = true ∧
    (List.replicate 16 (CommitEntry.signal 5 1)).length = 16 ∧ reservedSet (tWord 0x05 0) 0xFF00000000007FFF = false ∧
    (tSeq (tBody 0)).corePoisoned 0 0 64 = false ∧ ({ tSeq (tBody 0) with poison := [(coreBase 0 / 8, true)] } : State).corePoisoned 0 0 64 = true :=
  ⟨tSeq_issues rfl (by decide), by decide⟩

/-- Object 6 belongs to partition 1, and object 7 to an old generation of partition 0. -/
theorem wit_ForeignSyncObjectAborts (i : Nat) (h : i = 6 ∨ i = 7) :
    let s := fun c : Core => { tSeq c with cpu := { (tSeq c).cpu with sync := { SyncUnit.reset with
      objs := [(6, { tSync with part := 1 }), (7, { tSync with gen := 9 })] } } }
    ((s (tHead (tWord 0x03 i))).core 0).work = some tWork ∧ bits (tWord 0x03 i) 15 0 = i ∧
    (∃ o, (s (tHead (tWord 0x03 i))).syncObj i = some o ∧ (o.part ≠ 0 ∨ o.gen ≠ 0)) ∧ reservedSet (tWord 0x03 i) 0xFFFFC0000000FFFF = false ∧
    bits (tWord 0x03 i) 55 54 ≤ 1 ∧ bits (tWord 0x03 i) 48 46 ≤ 3 ∧ reservedSet (tWord 0x04 (2 ^ 32 + i)) 0xFF00FFFF0000FFFF = false ∧
    (tBody (tWord 0x04 (2 ^ 32 + i))).bodyReady false = true ∧ bits (tWord 0x04 (2 ^ 32 + i)) 47 32 ≠ 0 := by
  rcases h with rfl | rfl <;> exact ⟨rfl, by decide, ⟨_, rfl, by decide⟩, by decide, by decide, by decide, by decide, by decide, by decide⟩

/-- WAIT for object 5 against register 0 (met) and register 1 holding 1 (not met, PMODE OFF); a woken core; a WAITSET record of one entry. -/
theorem wit_WaitsAndWaitSets : Issues (tSeq (tHead (tWord 0x03 5))) 0 (tHead (tWord 0x03 5)) (tWord 0x03 5) ∧
    reservedSet (tWord 0x03 5) 0xFFFFC0000000FFFF = false ∧ (tSeq (tHead (tWord 0x03 5))).ownsSync 0 0 5 = true ∧
    (tSeq (tHead (tWord 0x03 5))).waitHolds { sync := 5, eq := false, target := 0 } = true ∧
    (tSeq (tHead (tWord 0x03 5))).waitHolds { sync := 5, eq := false, target := 1 } = false ∧
    bits (tWord 0x03 (2 ^ 49 + 2 ^ 47 + 5)) 48 46 < 3 ∧ bits (tWord 0x03 (2 ^ 49 + 2 ^ 47 + 5)) 53 49 = 1 ∧
    ((tSeq { tHead 0 with run := .woken }).core 0).run = .woken ∧
    Issues (tSeq (tHead (tWord 0x07 (5 * 2 ^ 32)))) 0 (tHead (tWord 0x07 (5 * 2 ^ 32))) (tWord 0x07 (5 * 2 ^ 32)) ∧
    reservedSet (tWord 0x07 (5 * 2 ^ 32)) 0xFF00FFFF00007FFF = false ∧ bits (tWord 0x07 (5 * 2 ^ 32)) 47 32 = 5 ∧
    waitSetOk (putBytes (List.replicate 128 0) 0 (toLE 1 1 ++ List.replicate 7 0 ++ toLE 2 5)) = true ∧
    fldBits (putBytes (List.replicate 128 0) 0 (toLE 1 1 ++ List.replicate 7 0 ++ toLE 2 5)) 0 3 0 = 1 ∧
    ({ tSeq (tHead (tWord 0x07 (5 * 2 ^ 32))) with dmem := [(coreBase 0, 1), (coreBase 0 + 8, 5)] } : State).coreRead 0 0 128 =
      putBytes (List.replicate 128 0) 0 (toLE 1 1 ++ List.replicate 7 0 ++ toLE 2 5) :=
  ⟨tSeq_issues rfl (by decide), by decide, by decide, by decide, by decide, by decide, by decide, by decide, tSeq_issues rfl (by decide), by decide,
    by decide, by decide, by decide, by decide⟩

/-- A watch that is met, and one that is not and has a timeout. -/
theorem wit_WaitSetEnds :
    let s := fun m : Bool => { tSeq (tHead 0) with cpu := { (tSeq (tHead 0)).cpu with clusters := [(0, { Cluster.reset with
      waitSets := [{ core := 0, part := 0, gen := 0, proxy := 5, entries := [], timeout := 1, met := m }] })] } }
    ((s true).cluster 0).waitSets[0]?.map (·.met) = some true ∧ ((s false).cluster 0).waitSets[0]?.map (·.met) = some false ∧
    ((s false).cluster 0).waitSets[0]?.map (·.timeout) = some 1 ∧ (s true).errs.halted = false := by decide

/-- n zero bytes with values put at offsets. -/
def tRec (n : Nat) (l : List (Nat × List Byte)) : List Byte := l.foldl (fun r e => putBytes r e.1 e.2) (List.replicate n 0)

/-- A tile descriptor of 4 × 4 elements at base 0 with a type and a form. -/
def tTile (type form : Nat) : List Byte := tRec 32 [(8, toLE 2 4), (0xA, toLE 2 4), (0xC, toLE 2 1), (0x10, toLE 2 (type + form * 64))]

/-- A core with td0 and td1 holding two tiles, at a word. -/
def tMat (w : Nat) (a b : List Byte) : Core := { tBody w with td := [(0, a), (1, b)] }

/-- An MMA of shape 0 on engine 0, td0 by td1, clearing its slot. -/
def wMma : Nat := tWord 0x10 (2 ^ 42 + 2 ^ 37)

theorem wit_ShapeInstructions_mma : Issues (tSeq (tMat wMma (tTile 1 0) (tTile 1 1))) 0 (tMat wMma (tTile 1 0) (tTile 1 1)) wMma ∧
    (tMat wMma (tTile 1 0) (tTile 1 1)).bodyReady false = true ∧ shapeDims (bits wMma 55 52) = some (4, 4, 4, 1) ∧ opcodeOf wMma = 0x10 ∧
    reservedSet wMma 0xFFFFFFFFFFFF8000 = false ∧ firstEngine (bits wMma 55 52) (bits wMma 51 50) (bits wMma 20 15) (bits wMma 20 15) true = some 0 ∧
    (parseTDesc (tTile 1 0)).ok = true ∧ (parseTDesc (tTile 1 1)).ok = true ∧ (parseTDesc (tTile 1 0)).form = 0 ∧ (parseTDesc (tTile 1 1)).form = 1 ∧
    (parseTDesc (tTile 1 0)).space = 0 ∧ bit wMma 36 = false ∧ pairKind 1 1 = some true ∧ (parseTDesc (tTile 1 1)).dimOut = 4 ∧
    (parseTDesc (tTile 1 0)).dimIn = 4 ∧ kPerStep 1 1 = 4 ∧ isCodeType 1 = false := ⟨tSeq_issues rfl (by decide), by decide⟩

/-- DRAIN of an INT32 slot and REQUANT to INT8 into a C-form tile, 4 × 4. -/
theorem wit_ShapeInstructions_out : Issues (tSeq (tMat (tWord 0x11 0) (tTile 0x13 2) [])) 0 (tMat (tWord 0x11 0) (tTile 0x13 2) []) (tWord 0x11 0) ∧
    reservedSet (tWord 0x11 0) 0xFFFFC3CFFC1F8000 = false ∧ (parseTDesc (tTile 0x13 2)).ok = true ∧ (parseTDesc (tTile 0x13 2)).form = 2 ∧
    (parseTDesc (tTile 0x13 2)).type = 0x13 ∧ Tbl.get false (tMat (tWord 0x11 0) (tTile 0x13 2) []).accFp 0 = false ∧
    (∀ r ∈ outRanges (parseTDesc (tTile 0x13 2)) 0 4 0 4, r.1 + r.2 ≤ coreStoreBytes) ∧
    reservedSet (tWord 0x12 0) 0xFFFFFFCFFFFFFCFF = false ∧ firstEngine 0 0 0 0 false = some 0 ∧ (parseTDesc (tTile 1 2)).ok = true ∧
    (requantRange 1).1 ≤ sext 8 0 ∧ sext 8 0 ≤ (requantRange 1).2 ∧ (tSeq (tBody 0)).coreRangesErr 0 [(0, 64)] = none ∧
    (∀ r ∈ outRanges (parseTDesc (tTile 1 2)) 0 4 0 4, r.1 + r.2 ≤ coreStoreBytes) := ⟨tSeq_issues rfl (by decide), by decide⟩

/-- An instance over two zero tiles. -/
def tMma : MmaArgs :=
  { shape := 0, e0 := 0, slot := 0, zero := true, trans := false, ta := parseTDesc (tTile 1 0), tb := parseTDesc (tTile 1 1), m0 := 0, n0 := 0,
    k0 := 0, dimM := 4, dimN := 4, dimK := 4, kp := 4, base := coreBase 0 }

theorem wit_IntegerCellIsExact : 0 < tMma.kp ∧ tMma.dimK % tMma.kp = 0 ∧ (tMma.intCell (tSeq (tBody 0)) 0 0 (2 ^ 31 - 1)).2 = false := by decide

theorem wit_AccumulatorsSaturate : (-(2 ^ 31) : Int) ≤ -(2 ^ 31) ∧ (2 : Nat) ≠ 4 ∧ (sat32 (2 ^ 31)).2 = true ∧ (sat32 (-(2 ^ 31))).2 = false := by decide

/-- FP8 operands in compatibility mode, and a transposed B outside it. -/
theorem wit_CompatibilityModeTypes :
    (parseTDesc (tTile 8 0)).ok = true ∧ (parseTDesc (tTile 8 1)).ok = true ∧ (parseTDesc (tTile 8 0)).type ∉ [1, 2, 0x10, 0x11] ∧
    Issues (tSeq { tMat wMma (tTile 8 0) (tTile 8 1) with compat := true }) 0 { tMat wMma (tTile 8 0) (tTile 8 1) with compat := true } wMma ∧
    bit (tWord 0x10 (2 ^ 42 + 2 ^ 36)) 36 = true ∧ reservedSet (tWord 0x10 (2 ^ 42 + 2 ^ 36)) 0xFFFFFFFFFFFF8000 = false :=
  ⟨by decide, by decide, by decide, tSeq_issues rfl (by decide), by decide⟩

theorem wit_VectorOperation : Issues (tSeq (tBody (tWord 0x20 0))) 0 (tBody (tWord 0x20 0)) (tWord 0x20 0) ∧ vopIllegal (tWord 0x20 0) = false ∧
    (∃ a, vopA 0 (tBody (tWord 0x20 0)).entered (tWord 0x20 0) (tSeq (tBody (tWord 0x20 0))) = .ok a) :=
  ⟨tSeq_issues rfl (by decide), by decide, _, rfl⟩

theorem wit_CoreStops : Issues (tSeq (tBody (tWord 0xFF 0))) 0 (tBody (tWord 0xFF 0)) (tWord 0xFF 0) ∧ encodingUndefined (tWord 0xFF 0) = true ∧
    encodingUndefined (tWord 0x10 (7 * 2 ^ 52)) = true ∧ (tSeq (tBody 0)).issuing 0 = true ∧ (tSeq (tBody 0)).errs.halted = false ∧
    (tBody 0).tile ≠ none ∧ (tBody 0).tile.map (·.inBody) = some true := ⟨tSeq_issues rfl (by decide), by decide⟩

theorem wit_CoreResetLeavesStore : tOn.errs.halted = false ∧ (tOn.core 127).quiet = true ∧ (tOn.core 127).tile = none := by decide

/-- A move of one linear 4 × 4 INT8 tile from cluster store 0 to core 0. -/
def tMove : MoveSlot :=
  { slot := 0, owner := .program 0 0, ctx := 64, idx := 0, part := 0, gen := 0, weightSlot := 0,
    raw := tRec 64 [(0x10, toLE 2 4), (0x12, toLE 2 4), (0x14, toLE 2 1), (0x18, toLE 2 (1 + 192 + 256)), (0x1A, toLE 2 (1 + 192)), (0x2D, toLE 1 1)] }

theorem wit_MoverAndStemCommands_move :
    let s := { tBase with cpu := { tBase.cpu with clusters := [(0, { Cluster.reset with released := [tMove] })] } }
    let u := { tBase with cpu := { tBase.cpu with clusters := [(0, { Cluster.reset with moves := [tMove] })] } }
    (s.cluster 0).released = [tMove] ∧ s.freeSlot 0 = some 0 ∧ (parseMove tMove.raw).add = 0 ∧ (parseMove tMove.raw).err = none ∧
    (u.cluster 0).moves.find? (fun x => x.slot == 0) = some tMove ∧ u.part tMove.part = some tPart := by decide

/-- A running descriptor of context 64 with bytes 0 to 63. -/
def tDesc (raw : List Byte) : Desc :=
  { idx := 0, raw := raw, phase := .running, order := 0, status := .ok, accSat := false, accNonfin := false, detail0 := 0, detail1 := 0,
    estimate := 1, resLeft := 0, resC := 0, resOpen := false, drawn := 0, waitSince := 0, voided := false, fault := false, waitMet := true, stops := [], freed := false }

/-- Context 64 is active with descriptors. -/
def tCtx (ds : List Desc) : Ctx := { Ctx.reset with cfg := 0x80000606, active := true, descs := ds, sqTail := 1 }

/-- Core 0 is c and context 64 holds descriptors. -/
def tRun (c : Core) (ds : List Desc) : State := { tSeq c with work := { (tSeq c).work with ctxs := [(64, tCtx ds)] } }

/-- A stem descriptor of a 1 × 1 × 1 input, one 1 × 1 filter, in cluster store. -/
def tStem : List Byte :=
  tRec 64 [(4, toLE 3 0x100000), (8, toLE 3 0x200000), (0xC, toLE 1 1), (0x20, toLE 2 1), (0x22, toLE 2 1), (0x24, toLE 2 1), (0x26, toLE 2 1), (0x28, toLE 1 1),
    (0x29, toLE 1 1), (0x2A, toLE 1 1), (0x2B, toLE 1 1), (0x2C, toLE 1 1), (0x2D, toLE 1 1), (0x2E, toLE 2 1)]

theorem wit_MoverAndStemCommands_stem :
    (tRun (tBody 0) [tDesc (tRec 64 [])]).desc 64 0 = some (tDesc (tRec 64 [])) ∧
    ((tRun (tBody 0) [tDesc (tRec 64 [])]).descCores 64 0).find? (fun n => n / 8 == 0) = some 0 ∧
    (tRun (tBody 0) [tDesc (tRec 64 [])]).stemErr 0 0 0 tPart tStem = none ∧ (geomOut (stemGeom tStem)).1 ≠ 0 ∧ (geomOut (stemGeom tStem)).2 ≠ 0 ∧
    tOn.poisoned (stemSrc 0 tStem) (stemSizes tStem).1 = false ∧ tOn.poisoned (stemWeights 0 tStem) (stemSizes tStem).2.1 = false := by decide +kernel

/-- The least image: a header without code. -/
def tImage : List Byte := tRec 64 [(0, toLE 4 0x33435450), (4, toLE 2 0x0300)]

theorem wit_ProgramsLoad :
    let s := tRun { Core.reset with work := some tWork } [tDesc (tRec 64 [(1, toLE 1 8)])]
    (s.core 0).run = .idle ∧ s.desc 64 0 = some (tDesc (tRec 64 [(1, toLE 1 8)])) ∧ bit (fld (tRec 64 [(1, toLE 1 8)]) 0 4) 11 = true ∧
    imageOk tImage = true ∧ loadErr tImage tPart false = none ∧ geomErr tImage = false ∧ imageGeoms tImage = [] ∧ ¬ tImage.length < imageEnd tImage ∧
    (tSeq { tOut 0 with pc := 7, code := [] }).issuing 0 = true ∧ ((tSeq { tOut 0 with pc := 7, code := [] }).core 0).wordAt 7 = none ∧
    7 < tProg.codeWords ∧ bit tProg.features 2 = true := by decide

theorem tOn_served : Served tOn 0 false false := ⟨by decide, .inl rfl, .inl rfl⟩
theorem tBase_served (f : FnId) (h : f = 0 ∨ f = 1 ∨ f = 31) : Served tBase f false false := by
  rcases h with rfl | rfl | rfl <;> exact ⟨by decide, .inl rfl, .inl rfl⟩

theorem wit_ReplyReachesItsRing : (tOn.fn 31).owed = [] := by decide

/-- A reply ring with 512 replies unread; the fatal halt; no firmware; an issuer without the right. -/
theorem wit_RequestsAreRefusedInOrder :
    let full := tOn.setFn 1 { tOn.fn 1 with repTail := 512 }
    diff32 (full.fn 1).repTail.toNat (full.fn 1).repHead.toNat + (full.fn 1).owed.length = 512 ∧
    diff32 (tOn.fn 1).repTail.toNat (tOn.fn 1).repHead.toNat + (tOn.fn 1).owed.length ≠ 512 ∧
    ({ tOn with errs := { tOn.errs with halted := true } } : State).errs.halted = true ∧ State.reset.pwr.fw.running = false ∧
    State.reset.errs.halted = false ∧ Issuer.pf0.allows 1 = false := by decide

/-- Every free object, and one more; the freeing and the setting of object 5; a signal of the current and of an old generation. -/
theorem wit_SyncObjectCommands :
    let s := fun gen : Nat => { tBase with cpu := { tBase.cpu with sync := { tBase.cpu.sync with flight := [{ sync := 5, add := 65535, part := 0, gen := gen }] } } }
    tBase.ownsPart 1 0 = true ∧ syncListMax = 240 ∧ 240 ≤ tBase.freeSyncCount ∧ tBase.ownsSyncs 1 [5] = true ∧
    tBase.ownsSyncs 1 (List.replicate 241 5) = true ∧ syncListMax < (List.replicate 241 5).length ∧ tBase.syncObj 5 = some tSync ∧ tSync.fn = 1 ∧
    tSync.pf0 = false ∧ (s 0).cpu.sync.flight[0]?.map (·.gen) = some (tBase.gen 0) ∧ (s 1).cpu.sync.flight[0]?.map (·.gen) = some 1 ∧
    tBase.gen 0 ≠ 1 ∧ tBase.syncObj 6 = none := by decide +kernel

/-- No object is free. -/
theorem wit_SyncObjectCommands_none (n : Nat) (h : n = 65536) :
    ({ tBase with cpu := { tBase.cpu with sync := { SyncUnit.reset with objs := List.replicate n (5, tSync) } } } : State).freeSyncCount < 1 := by
  simp [State.freeSyncCount]; omega

theorem wit_WaitersSeeEveryValue :
    let s := tSeq { tHead 0 with run := .waiting { sync := 5, eq := false, target := 1 } }
    (s.core 0).run = .waiting { sync := 5, eq := false, target := 1 } ∧ SyncWait.holds { sync := 5, eq := false, target := 1 } 1 = true ∧
    SyncWait.holds { sync := 5, eq := false, target := 1 } 0 = false ∧ ∀ w, (s.core 1).run ≠ .waiting w :=
  ⟨rfl, by decide, by decide, fun w h => by cases h⟩

/-- A post descriptor of one candidate with one class, from page 0, output at 0x1000. -/
def tPost : PostJob :=
  { raw := tRec 64 [(8, toLE 2 0x1000), (0x18, toLE 4 1), (0x1C, toLE 2 1), (0x1E, toLE 2 8), (0x20, toLE 4 0), (0x2C, toLE 4 1)], fn := 1, part := 0, gen := 0, ctx := 64, idx := 0 }

theorem wit_PostEngineCommands :
    let s := { tBase with cpu := { tBase.cpu with post := { PostUnit.reset with handed := [tPost], last := 0 } } }
    let q := { tBase with cpu := { tBase.cpu with post := { PostUnit.reset with queue := [tPost], last := 0 } } }
    let r := { tBase with cpu := { tBase.cpu with post := { PostUnit.reset with run := some tPost } } }
    s.part 0 = some tPart ∧ postOk tPart tPost.raw = true ∧ postOk tPart (tRec 64 []) = false ∧ fld tPost.raw 0x3E 2 = 0 ∧
    q.cpu.post.queue.find? (fun x => x.fn == 1) = some tPost ∧ (1 + 31 - q.cpu.post.last % 32) % 32 = 0 ∧ q.cpu.post.run = none ∧
    (postRanges tPost.raw).findSome? (fun e => r.stackedErr tPart 0 0 e.1 e.2) = none ∧ r.stale 0 0 = false ∧
    ((postRanges tPost.raw).take 2).any (fun e => e.2 != 0 && r.poisoned e.1 e.2) = false := by decide +kernel

theorem wit_StackedMemoryCommands :
    tBase.errs.halted = false ∧ 255 % 256 + 1 ≤ 256 ∧ Tbl.get 0 tBase.mem.temp (tBase.stackOf 255) < 105 ∧ tBase.stale 0 1 = true ∧ tBase.stale 0 0 = false ∧
    tBase.part 0 = some tPart ∧ tBase.stackedErr tPart 0 0 255 1 = none ∧ tBase.stackServes 3 = true ∧ Tbl.get 0 tBase.mem.postponed 127 < 8 ∧
    8 ≤ Tbl.get 0 [(127, 8)] 127 ∧ tBase.mem.repairOpen 127 = false ∧ tBase.holdsPart 1 0 = true ∧ (∀ i, i < 4 → tBase.pageGranted (4 * 2 + i) = false) := by decide

theorem wit_PoisonedLineTakesWholeWritesOnly :
    let s := { tOn with poison := (List.range 8).map (fun i => (i, true)) }
    s.poisoned (64 * 0) 64 = true ∧ 0 + (List.replicate 64 (0 : Byte)).length ≤ stackedEnd ∧ 64 * 0 < stackedEnd ∧
    0 + (List.replicate 63 (0 : Byte)).length < 64 * 0 + 64 ∧ s.deadHit (64 * 0) 64 = false ∧ s.retiredHit (64 * 0) 64 = false ∧
    ({ s with errs := { s.errs with retiredPages := [(0, true)] } } : State).retiredHit (64 * 0) 64 = true ∧
    ({ s with errs := { s.errs with deadSlices := [(s.channelOf 0, true)] } } : State).deadHit (64 * 0) 64 = true := by decide

theorem wit_StoreWritesOnlyItsBytes : tOn.poison = [] ∧ tOn.poisoned 0 64 = false ∧ (5 : Nat) < 6 := by decide

/-- A stream of one looping segment with one consumer, its table in page 0 and objects 5 and 6. -/
def tStream : List Byte := tRec 32 [(8, toLE 2 1), (0xA, toLE 2 1), (0xD, toLE 1 17), (0x10, toLE 2 5), (0x12, toLE 2 6)]

def tStreams (w : WStream) : State :=
  { tBase with
    cpu := { tBase.cpu with sync := { tBase.cpu.sync with objs := [(5, tSync), (6, tSync)] } }
    work := { tBase.work with streams := [(0, w)] } }

def tFill (next filled : Nat) (ask : Bool) : WStream :=
  { raw := tStream, part := 0, cluster := 0, next := next, filled := filled, stopAsked := ask, stopped := false, tails := [] }

theorem wit_WeightStreams :
    ({ tStreams (tFill 2 1 false) with work := { tBase.work with streams := [] }, dmem := [(8, 64)] } : State).streamOk tPart 0 0 tStream = true ∧
    Tbl.find (tStreams (tFill 2 1 false)).work.streams (16 * 0 + 0) = some (tFill 2 1 false) ∧ (tFill 2 1 false).has 2 = true ∧
    (let s := { tStreams (tFill 2 1 false) with cpu := { tBase.cpu with sync := { tBase.cpu.sync with objs := [(6, { tSync with value := 1 })] } } }
     s.waitHolds { sync := streamReleased tStream, eq := false, target := BitVec.ofNat 32 ((2 - 1) * streamConsumers tStream) } = true) ∧
    tBase.domainOn (clusterIsland 0) = true ∧ ({ tBase with pwr := { tBase.pwr with on := [] } } : State).domainOn (clusterIsland 0) = false ∧
    (tFill 1 0 false).next < 2 ∧ (tFill 1 0 false).has 1 = true ∧ (tFill 1 1 true).stopAsked = true ∧ (tFill 1 1 true).filled = (tFill 1 1 true).next := by decide +kernel

/-- A creation record for function 1: core 1, granule 15 of cluster 0... as the least sound one: core 64, no granule, no page, MEM_SHARE 1. -/
def tCreate (share : Nat) : List Byte := tRec 128 [(0, toLE 4 0x00003001), (4, toLE 4 share), (0x18, toLE 1 1)]

/-- tOn with room for function 1. -/
def tRoom : State := tOn.setFn 1 { tOn.fn 1 with limParts := 1, limCores := 1, wMem := 1 }

theorem wit_PartitionMessages :
    partFnField (tCreate 1) = 1 ∧ tRoom.partOk (tCreate 1) = true ∧ (tRoom.fn 1).bears (partOf (tCreate 1) 0 0 [] :: tRoom.held 1) = true ∧
    tRoom.freePart = some 0 ∧ (tCreate 1).length ≤ 480 ∧ 480 < (List.replicate 481 (0 : Byte)).length ∧ (tRoom.freeSyncs 5).length = 5 ∧ tRoom.partOk (tCreate 0) = false ∧ tRoom.partOk (tCreate 2) = true ∧
    (tRoom.fn 1).bears (partOf (tCreate 2) 0 0 [] :: tRoom.held 1) = false ∧ tBase.part 0 = some tPart ∧ tPart.fn = 1 := by decide +kernel

/-- A Clearing at a step. -/
def tClear (step : Nat) : State :=
  { tBase with work := { tBase.work with
      parts := [(0, { tPart with clearing := true })],
      clearings := [(0, { fn := 1, trigger := 0, oldGen := 0, descAborted := 0, signalsDropped := 0, writesDiscarded := 0, readsPoisoned := 0,
                          d2dDropped := 0, pagesScrubbed := 0, bellsIgnored := 0, fetches := [], ctxs := [], moves := [], step := step })] } }

theorem wit_ClearingRaisesGenerationAndFreesAll :
    (tClear 5).errs.halted = false ∧ (tClear 5).part 0 = some { tPart with clearing := true } ∧ ((tClear 5).job 0).map (·.step) = some 5 ∧
    (tClear 5).scrubWaits { tPart with clearing := true } = false ∧
    ({ tClear 5 with mem := { tBase.mem with stackOn := [] } } : State).scrubWaits { tPart with clearing := true } = true := by decide +kernel

/-- Context 64 of function 1, before and after its enabling. -/
theorem wit_ContextRegisters :
    let on := fun h : Bool => { tBase with work := { tBase.work with ctxs := [(64, { tCtx [] with halted := h })] } }
    tBase.acts ∧ tBase.ctxFn 64 = 1 ∧ (tBase.ctx 64).enabled = false ∧ bit 0x80000606 31 = true ∧ (tBase.ctx 64).active = false ∧
    tBase.cfgOk 64 (0x80000606 &&& cfgMask) = true ∧ tBase.cfgOk 64 (0x80000605 &&& cfgMask) = false ∧ ((on false).ctx 64).enabled = true ∧
    ((on false).link ((on false).linkOf 1)).belowFloor = false ∧ ((on false).ctx 64).active = true ∧ (on false).part ((on false).ctx 64).part = some tPart ∧
    tPart.clearing = false ∧ (on false).isStepCtx 64 = false ∧ ((on false).ctx 64).halted = false ∧ ((on true).ctx 64).halted = true ∧
    0 ≤ sdiff32 0 ((on false).ctx 64).cqHead.toNat ∧ 0 ≤ sdiff32 ((on false).ctx 64).cqTail.toNat 0 := by decide

/-- A descriptor that is fetched, with room and without; one that arrives; NOP, COMPUTE, COPY and POST; a pending message; an unmasking. -/
theorem wit_DescriptorFetchAndWork :
    let s := { tBase with work := { tBase.work with ctxs := [(64, tCtx [])] } }
    let full := { tBase with work := { tBase.work with ctxs := [(64, { tCtx [] with cqTail := 64 })] } }
    let coming := { tBase with work := { tBase.work with ctxs := [(64, tCtx [Desc.fetch 0 0])] } }
    let run := fun op : Nat => tRun (tBody 0) [tDesc (tRec 64 [(0, toLE 1 op)])]
    let pend := { tBase with
      work := { tBase.work with ctxs := [(64, { tCtx [] with pending := 1, mod := 0x10001 })] }
      host := { tBase.host with fns := [(1, { Fn.reset false with pba := [(2047, true)] })] } }
    1 ≤ diff32 (s.ctx 64).sqTail.toNat (s.ctx 64).fetchIdx ∧ diff32 (s.ctx 64).sqTail.toNat (s.ctx 64).fetchIdx ≤ 2 ^ (s.ctx 64).sqLog2 ∧
    (s.ctx 64).cqFree = true ∧ (full.ctx 64).cqFree = false ∧ (coming.ctx 64).descs.find? (fun d => d.phase == .fetching) = some (Desc.fetch 0 0) ∧
    (coming.ctx 64).sqDpa = false ∧ (run 0).desc 64 0 = some (tDesc (tRec 64 [(0, toLE 1 0)])) ∧ fld (tDesc (tRec 64 [(0, toLE 1 1)])).raw 0 1 = 1 ∧
    fld (tDesc (tRec 64 [(0, toLE 1 2)])).raw 0 1 = 2 ∧ fld (tDesc (tRec 64 [(0, toLE 1 4)])).raw 0 1 = 4 ∧ (run 4).cpu.post.run = none ∧
    (run 4).stackedErr tPart 0 0 0 64 = none ∧ (run 4).poisoned 0 64 = false ∧ 0 < (pend.ctx 64).pending ∧ bits (pend.ctx 64).mod.toNat 25 16 ≠ 0 ∧
    pend.pwr.aon = true ∧ Tbl.get true (pend.fn 1).masked 2047 = true ∧ (pend.fn 1).busMaster = true ∧ Tbl.get false (pend.fn 1).pba 2047 = true := by decide

/-- A real-time partition with an admitted descriptor; descriptors that have ended and whose core has ended; a stopped core. -/
theorem wit_DescriptorsStartEndAndFail :
    let rt := { tBase with work := { tBase.work with
      parts := [(0, { tPart with realtime := true })],
      ctxs := [(64, { tCtx [{ tDesc (tRec 64 []) with phase := .admitted }] with cfg := 0xC0000606 })] } }
    let d := { tDesc (tRec 64 []) with phase := .admitted }
    let ended := tRun (tBody 0) [{ tDesc (tRec 64 []) with phase := .ended }]
    let comp := tRun { tOut 0 with run := .ended } [tDesc (tRec 64 [(0, toLE 1 1)])]
    let x := { tDesc (tRec 64 [(0, toLE 1 1)]) with stops := [(0, .syncTimeout, 0), (0, .eLayout, 0)] }
    let bad := tRun { tOut 0 with run := .stopped .eLayout } [x]
    let mid := tRun (tBody 0) [x]
    rt.pick (rt.rtCandidates 0) [] = some (64, d) ∧ rt.namesRetired d.raw = false ∧ rt.desc 64 0 = some d ∧
    rt.startable d (blockedBefore (rt.rtCandidates 0) 64) = true ∧ (ended.desc 64 0).map (·.phase) = some .ended ∧
    comp.computeDone 64 (tDesc (tRec 64 [(0, toLE 1 1)])) = true ∧ bad.faultCause 64 x = some (.eLayout, 0) ∧ bad.desc 64 0 = some x ∧ x.phase = .running ∧
    (∀ m ∈ bad.descCores 64 0, (bad.core m).midTile = false) ∧ (∃ m ∈ mid.descCores 64 0, (mid.core m).midTile = true ∧ mid.heldAtBody m = false) := by decide

/-- The resume block of a core at the TILE at 0. -/
def tResume : Resume := { s := [], a := [], td := [], tilePos := 0, tileId := 0, ranges := [], slotOff := 0, prog := { tProg with iova := true }, work := tWork }

theorem wit_MinuetCommands :
    let ask := { tRun (tBody 0) [] with work := { (tRun (tBody 0) []).work with ctxs := [(64, { tCtx [] with paused := true })] } }
    let save := tRun { tOut (tWord 1 0) with minuetReq := true } []
    let back := tRun { Core.reset with run := .yielded, resume := some tResume } []
    (ask.core 0).minuetReq = false ∧ (ask.core 0).work = some tWork ∧ tPart.save64k ≠ 0 ∧ (ask.ctx 64).realtime = false ∧ (ask.ctx 64).paused = true ∧
    (save.core 0).minuetReq = true ∧ (save.core 0).wordAt 0 = some (tWord 1 0) ∧ opcodeOf (tWord 1 0) = 1 ∧
    ((save.core 0).resumeBlock tWork tProg 0 0).ranges = [] ∧ (back.core 0).resume = some tResume ∧ (back.ctx 64).halted = false ∧
    (back.ctx 64).paused = false ∧ back.rtNeeds 0 0 = false ∧ back.coreClosed 0 = false ∧ ¬ tImage.length < imageEnd tImage ∧
    back.ctxFn 64 = 1 := by decide +kernel

/-- Partitions 0 on core 0 and 1 on core 64, both real-time, and a pair of one region of 64 bytes. -/
def tPairRec : List Byte := tRec 272 [(1, toLE 1 1), (2, toLE 1 1), (4, toLE 2 5), (6, toLE 2 6), (8, toLE 2 7), (0xA, toLE 2 1), (0x18, toLE 4 0x200000), (0x20, toLE 4 64)]
def tPairs (va vb : Word) (mem : List Host.Cell) : State :=
  { tBase with
    work := { tBase.work with
      parts := [(0, { tPart with realtime := true, extents := [(0, 1)] }), (1, { tPart with realtime := true, coreMask := 2 ^ 64, extents := [(1, 1)] })],
      pairs := [(0, { raw := tPairRec, fn := 1, armed := true, round := 0, stopped := false })] }
    cpu := { tBase.cpu with sync := { tBase.cpu.sync with objs := [(5, { tSync with value := va }), (6, { tSync with value := vb })] } }
    dmem := mem }

theorem wit_PairCommands :
    (tPairs 0 0 []).pairOk tPairRec = true ∧ (tPairs 0 0 []).ownsPart 1 (pairA tPairRec) = true ∧
    (tPairs 1 1 []).doneReached (pairDoneA tPairRec) 1 = true ∧ (tPairs 1 1 []).doneReached (pairDoneB tPairRec) 1 = true ∧
    pairRegions tPairRec = 1 ∧ (tPairs 1 1 []).regionDiff tPairRec 0 0 = none ∧ (tPairs 1 1 [(63, 1)]).regionDiff tPairRec 0 0 ≠ none ∧
    (tPairs 1 1 []).poisoned 0 64 = false ∧ (tPairs 1 1 []).sliceErr 0 0 64 = none ∧ (tPairs 1 1 []).sliceErr 1 0x200000 64 = none ∧ (tPairs 1 0 []).doneReached (pairDoneB tPairRec) 1 = false := by decide +kernel

/-- An attention record: one page, layer and head. -/
def tAttn : List Byte := tRec 64 [(8, toLE 4 1), (0xC, toLE 2 1), (0xE, toLE 2 1), (0x10, toLE 2 0x101)]

/-- A serving record: step context 64. -/
def tServe : List Byte := tRec 32 [(0, toLE 4 64), (4, toLE 2 1), (6, toLE 2 1), (8, toLE 4 1), (0x18, toLE 4 64)]

/-- Partition 0 serves model slot 0, whose attention record lies at 0. -/
def tServing (l : List WorkList) (rec : List Byte) : State :=
  { tBase with work := { tBase.work with
      ctxs := [(64, { tCtx [] with cfg := 0x80800606 })], attn := [(0, { raw := tAttn, part := 0, head := 0, len := 0 })],
      serving := [(0, { Serving.empty with raw := some rec, models := [(0, tRec 32 [])], lists := l })] } }

def tList : WorkList :=
  { model := 0, bucket := 0, base := 0, resultDpa := 0, entries := [{ seq := 3, qLen := 1, kvLen := 1 }], ctx := 64, idx := 0, attn := tAttn, items := [], skewed := [], weightSkew := false, done := some .ok, updated := false }

theorem wit_ServingMessages :
    attnOk tPart tAttn = true ∧ ((tServing [] tServe).modelAttn 0 0).isSome = true ∧ 0 + 1 ≤ attnPool tAttn ∧
    (tServing [] tServe).servingOk 0 tPart tServe = true ∧ tPart.ownsStacked 0 64 = true ∧ tPart.ownsStacked 0 320 = true ∧
    zeroBytes (tRec 32 []) 0x18 8 = true ∧ seqOk (tRec 48 [(0, toLE 4 1), (0x18, toLE 4 131072)]) = true ∧ tBase.ownsPart 1 0 = true ∧
    seqState (tBase.seq 3).raw = 0 ∧ (tServing [] tServe).inStep 0 3 = false ∧ (tServing [tList] tServe).inStep 0 3 = true ∧
    (tServing [] tServe).stepRecord 0 = some (tPart, tServe) ∧ bit (fld tServe 0 4) 12 = false ∧
    bit (fld (tRec 32 [(0, toLE 4 (64 + 4096))]) 0 4) 12 = true ∧ ((tServing [tList] tServe).serving 0).lists = [tList] ∧ tList.done.isSome = true := by
  decide +kernel

/-- The head of a camera profile of 64 × 64 RAW8 pixels, gear 1, delay 1, one init write; what it does not hold reads 0. -/
def tProf : List Byte :=
  tRec 256 ([(0, toLE 4 0x00400040), (4, toLE 4 0x0000112A), (8, toLE 4 0x00010000)] ++ (List.range 15).map (fun i => (0x2C + 12 * i, toLE 4 (i + 1))))

/-- A context record: port 0, slot 0, pipe 0, partition 0, two raw slots of 4 KiB at 0, 1 Hz, forwarding source 0. -/
def tCamRec : List Byte := tRec 256 [(0, toLE 4 0x04000000), (4, toLE 2 0x200), (2, toLE 1 5), (6, toLE 2 100), (0x10, toLE 4 4096), (0xFC, toLE 4 0x10100)]

def tCam : CamCtx := camNew tCamRec tProf 1 0 0 0 false

/-- Port 0 of function 1 trained, with contexts and a queue. -/
def tCams (ctxs : Tbl CamCtx) (queue : List CamCmd) : State :=
  { tBase with media := { Media.reset with
      ports := [(0, { Port.reset with owner := 1, en := true, st := 2, link := 3, queue := queue })], profiles := [(0, tProf)], ctxs := ctxs } }

/-- A frame with some lines, closed or open. -/
def tFrame (no rows : Nat) (closed : Bool) : CamFrame :=
  { no := no, csiNo := 0, tick := 0, tFs := 0, tFe := 0, closed := closed, rows := rows, short := 0, long := 0, bad := 0, tooLong := false,
    feMissing := false, filled := [], emb := [], pred := 0, ring := [], ringBase := 0, lost := false, next := 0, begun := false, seq := 0, bank := [], tnrOff := true,
    goes := [], watch := none, stats := CamStats.zero }

theorem wit_CameraPorts :
    let s := tCams [] []
    let g := s.setPort 0 { s.media.port 0 with en := false } |>.setPort 1 { s.media.port 0 with en := true }
    let up := fun (link : Nat) (again : Bool) => s.setPort 0 { s.media.port 0 with link := link, retrain := again }
    tBase.acts ∧ bit 1 0 = true ∧ bit 0 0 = false ∧ (g.media.port 0).en = false ∧ g.groupOn 0 = true ∧ tBase.groupOn 0 = false ∧ bits 5 4 0 ≠ (s.media.port 0).owner ∧
    s.media.ctxs.any (fun e => !e.2.dflt && e.2.port == 0) = false ∧ (tCams [(0, tCam)] []).media.ctxs.any (fun e => !e.2.dflt && e.2.port == 0) = true ∧
    (s.media.port 0).st = 2 ∧ (up 1 false).errs.halted = false ∧ ((up 1 false).media.port 0).en = true ∧ ((up 1 false).media.port 0).link < 2 ∧
    (up 1 false).portProfile 0 ≠ [] ∧ ((up 1 false).media.port 0).retrain = false ∧ ((up 1 true).media.port 0).retrain = true ∧
    (s.media.port 0).link = 3 ∧ ((up 2 false).media.port 0).link = 2 := by decide +kernel

theorem wit_FrameSyncSources :
    (({ tBase with media := { Media.reset with fsync := [(0, { FsyncSrc.reset with mode := 1, due := true })] } } : State).media.source 0).mode = 1 ∧
    (({ tBase with media := { Media.reset with fsync := [(0, { FsyncSrc.reset with mode := 1, due := true })] } } : State).media.source 0).due = true ∧
    bits 1 1 0 = 1 ∧ bits 2 1 0 ≠ 1 ∧ (tBase.media.source 0).mode ≠ 1 ∧ ({ FsyncSrc.reset with mode := 1, rise := some 7, pulse := 1 } : FsyncSrc).rise = some 7 := by
  decide

theorem wit_CameraMessages :
    let s := tCams [] []
    let busy := tCams [(0, tCam)] []
    let dflt := tCams [(16, { tCam with dflt := true })] []
    let busyLoad := ((s.media.setCam 0 tCam).pipeLoad 0)
    (List.replicate 64 (0 : Byte)).length = 64 ∧ (∀ n, n < 16 → fldBits (List.replicate 64 0) (4 * n) 3 1 = 0 ∧ fldBits (List.replicate 64 0) (4 * n) 31 8 = 0 ∧
      (mapEnable (List.replicate 64 0) n = true → (Tbl.find s.media.profiles (mapSlot (List.replicate 64 0) n)).isSome = true)) ∧
    profileOk tProf = true ∧
    tCamRec.length = 256 ∧ (List.range 16).find? (fun c => (s.media.cam c).isNone) = some 0 ∧ Tbl.find s.media.profiles (fldBits tCamRec 0 11 8) = some tProf ∧
    s.camOk 1 tCamRec tProf = true ∧ (s.media.port (fldBits tCamRec 0 3 0)).owner = 1 ∧ s.media.cam (16 + fldBits tCamRec 0 3 0) = none ∧ busyLoad.1 ≤ 144000000000 * busyLoad.2 ∧
    (busy.media.cam 0).isSome = true ∧ tCam.fn = 1 ∧ tCam.isOpen = false ∧ tCam.frames = [] ∧ (dflt.media.cam 16).isSome = true := by decide +kernel

/-- A whole profile in its last two parts. -/
theorem wit_CameraMessages_profile :
    (tProf ++ List.replicate 7904 0).length = 480 * 17 ∧ (List.replicate 32 (0 : Byte)).length = 32 ∧
    profileOk (tProf ++ List.replicate 7904 0 ++ List.replicate 32 0) = true :=
  ⟨by rw [List.length_append, List.length_replicate]; decide +kernel, by decide, by decide +kernel⟩

/-- Port 0 with an open frame of two lines, and with a frame that fills its slot. -/
def tOpen : CamCtx := { tCam with isOpen := true, started := 1, frames := [tFrame 0 2 false] }

theorem wit_FramePackets_contexts :
    (tCams [(0, tCam)] []).media.nextCam 0 0 = some (0, tCam) ∧ (tCams [(0, tOpen)] []).media.openCam 0 0 = some (0, tOpen) := ⟨rfl, rfl⟩

theorem wit_FramePackets :
    let s := tCams [(0, tOpen)] []
    let full := tCams [(0, { tCam with started := 2, frames := [tFrame 0 64 true] })] []
    s.portUp 0 = true ∧ ((tCams [(0, tCam)] []).media.openCam 0 0).isNone = true ∧
    tCam.watch = none ∧ (∀ f ∈ tCam.frames, f.no % camRawSlots tCam.raw ≠ tCam.started % camRawSlots tCam.raw) ∧
    ((full.media.nextCam 0 0).map (fun e => e.2.frames.any (fun f => f.no % camRawSlots e.2.raw == e.2.started % camRawSlots e.2.raw))) = some true ∧
    s.media.hasCam 0 0 (some 0x2A) = true ∧ s.media.hasCam 0 0 (some 0x2B) = false ∧
    tOpen.frames.getLast? = some (tFrame 0 2 false) ∧ tOpen.dropping = false ∧ profType tOpen.profile = 0x2A ∧ s.media.hasCam 0 0 none = true ∧
    (s.media.openCam 0 1).isNone = true ∧ s.media.hasCam 0 1 none = false := by decide +kernel

theorem wit_IspUnits :
    let x := { tCam with started := 1, frames := [tFrame 0 64 true] }
    let s := tCams [(0, x)] []
    let r := s.setMedia (s.media.setPipe 0 { s.media.pipe 0 with run := some { ctx := 0, line := 0, len := 64 } })
    s.errs.halted = false ∧ s.pwr.ledger.hold = false ∧ (s.media.pipe 0).run = none ∧ s.pipeOn 0 = true ∧
    s.nextUnit 0 = some (0, tFrame 0 64 true, 64) ∧ (s.media.cam 0).isSome = true ∧
    (r.media.pipe 0).run = some { ctx := 0, line := 0, len := 64 } ∧ ((r.setMedia (r.media.setPipe 0 { r.media.pipe 0 with run := none })).media.cam 0).map (fun x => x.frames) = some [tFrame 0 64 true] := by decide +kernel

/-- A camera command of an OP with one item, in its descriptor and in its port's queue. -/
def tCmd (op : Nat) : List Byte := tRec 32 [(0, toLE 4 (op + 0x20 + 0x10000))]
def tQ (op : Nat) : CamCmd := { ctx := 64, idx := 0, part := 0, raw := tCmd op }

theorem wit_CameraCommands :
    let d := tDesc (tRec 64 [(0, toLE 1 3), (0x20, tCmd 1)])
    let s := fun q : List CamCmd => { tRun (tBody 0) [d] with media := (tCams [(0, tCam)] q).media }
    (s []).runningDesc 64 0 3 = some d ∧ (slice d.raw 0x20 32) = tCmd 1 ∧ camCmdOk (tCmd 1) = true ∧ tCam.fn = (s []).ctxFn 64 ∧
    ((s []).media.port 0).queue.length < 16 ∧ ((s (List.replicate 16 { tQ 1 with ctx := 65 })).media.port 0).queue.length = 16 ∧
    (s (List.replicate 16 { tQ 1 with ctx := 65 })).media.ports.any (fun e => e.2.queue.any (fun q => q.ctx == 64 && q.idx == 0)) = false ∧
    tCam.fn = (s []).ctxFn (tQ 1).ctx ∧ tCam.port = 0 ∧ ({ tCam with fn := 2 } : CamCtx).fn ≠ (s []).ctxFn (tQ 1).ctx ∧ (tCams [] [tQ 1]).media.cam (fldBits (tQ 1).raw 0 11 8) = none ∧
    ((s [tQ 1]).media.port 0).queue = [tQ 1] ∧ ((s [tQ 1]).media.cam (fldBits (tQ 1).raw 0 11 8)).isSome = true ∧ ((s [tQ 1]).media.port 0).link = 3 ∧
    camOp (tQ 1).raw = 1 ∧ camOp (tQ 2).raw = 2 ∧ camCount (tQ 2).raw ≤ 1 ∧ camOp (tQ 3).raw = 3 ∧ (camWrites (tQ 3).raw).length ≤ 1 ∧
    camOp (tQ 4).raw = 4 ∧ fldBits (tQ 4).raw 0 5 4 ≠ 1 := by decide +kernel

/-- tBase with group 0 as given. -/
def tAud (x : AudGroup) : State := { tBase with media := { Media.reset with groups := [(0, x)] } }

/-- A group of function 1 that captures, at sample 512, with a session from sample 0 over microphone 0. -/
def tGroup : AudGroup :=
  { AudGroup.reset with
    cfg := 0x1601, live := 0x1601, wake := 0x041E0009, landLow := false, muted := false, clock := true, power := true, s := 512,
    session := some { from_ := 0, mask := 1, last := 0 } }

theorem wit_MutedGroups :
    tBase.pwr.stageADone = true ∧ State.reset.pwr.stageADone = false ∧ (tBase.media.group 0).muted = true ∧ (tBase.media.group 0).clock = false ∧
    (tBase.media.group 0).power = false ∧ ((tAud { AudGroup.reset with lit := true }).media.group 0).lit = true ∧
    ((tAud { tGroup with settling := true }).media.group 0).settling = true := by decide

/-- A live stream of group 0 into two slots of 8 KiB. -/
def tLive : AudStream :=
  { group := 0, fn := 1, part := 0, gen := 0, base := 0, slots := 2, slotBytes := 8192, frameSync := 5, releaseSync := 6, started := 0, written := 0,
    recorded := 0, chains := [] }

theorem wit_AudioRegistersAndMessages :
    let s := { tAud tGroup with cpu := { tBase.cpu with sync := { tBase.cpu.sync with objs := [(5, tSync), (6, tSync)] } } }
    let l := { s with media := { s.media with streams := [tLive] } }
    let raw : List Byte := toLE 4 0x1601 ++ toLE 4 0x1601 ++ toLE 16 0
    s.acts ∧ s.audOwns 1 0 = true ∧ s.audOwns 2 0 = false ∧ s.audOwns 2 1 = false ∧ audPairOk (BitVec.ofNat 32 0x1601 &&& 0xFFFFFEFF) = true ∧ audPairOk (BitVec.ofNat 32 0x7601 &&& 0xFFFFFEFF) = false ∧
    raw.length = 24 ∧ bit (fld raw 0 4) 8 = false ∧ bit (fld raw 4 4) 8 = false ∧ audPairOk (BitVec.ofNat 32 (fld raw 0 4)) = true ∧
    fld raw 8 4 &&& 0x8000FFE0 = 0 ∧ s.pwr.stageADone = true ∧ s.media.group 0 = tGroup ∧ audOwner tGroup.wake = 1 ∧ 1 &&& 1 = 1 ∧ 0 % 256 = 0 ∧
    0 = s.media.epoch % 65536 ∧ tGroup.s < 0 + 160000 ∧ tGroup.muted = false ∧ tGroup.settling = false ∧ 2 ≤ s.pwr.state ∧ tGroup.chainOff = false ∧
    s.part 0 = some tPart ∧ tPart.ownsStacked 0 (2 * 8192) = true ∧ s.ownsSync 0 (s.gen 0) 5 = true ∧ s.ownsSync 0 (s.gen 0) 6 = true ∧
    inRange 2 1 15 = true ∧ audSlotBytes tGroup.live ≤ 8192 ∧ l.media.streams[0]? = some tLive ∧ l.stale 0 0 = false ∧
    l.stackedErr tPart 0 0 0 (audSlotBytes tGroup.live) = none ∧ l.slotFree 0 2 6 = true := by decide +kernel

/-- A matched candidate; a trigger that brings a record and one that brings none; a session past its 30 s. -/
theorem wit_WakesAndSessions :
    let c : Cand := { cls := 0, onset := 0, stateAtOnset := 4, changed := false, hops := 3, best := 0, matchRun := 3, rejectRun := 0, matched := true, matchS := 480 }
    let t := { tBase with media := { Media.reset with triggers := [{ owner := 1, record := [7], phrase := false }] } }
    ((tAud { tGroup with cand := some c }).media.group 0).cand = some c ∧ c.matched = true ∧ t.media.triggers = [{ owner := 1, record := [7], phrase := false }] ∧
    ((tAud { tGroup with s := 480000 }).media.group 0).session = some { from_ := 0, mask := 1, last := 0 } ∧
    0 + audTimeout tGroup.wake * 16000 ≤ 480000 := by decide

/-- A work list on a core that stopped with a scale skew (the second half of WorkListEnd). -/
theorem wit_WorkListStops :
    let s := { tSeq { tOut 0 with run := .stopped .eScaleSkew, work := some tWork } with work := (tServing [tList] tServe).work }
    (s.core 0).run = .stopped .eScaleSkew ∧ (s.core 0).work = some tWork ∧ (s.serving 0).lists = [tList] := by decide +kernel

/-- Link 0 in state x. -/
def tLink (x : Link) : State := tBase.setLink 0 x

theorem wit_LinkCommands :
    let up := (Link.reset.at_ 2 3)
    tBase.hasLink 0 = true ∧ tBase.linkPowered 0 = true ∧ ((tLink { Link.reset with perst := false }).link 0).perst = false ∧
    ((tLink { Link.reset with perst := false }).link 0).up = false ∧ tBase.rateOk 0 2 3 = true ∧ ((tLink { up with up := true }).link 0).up = true ∧
    ((tLink { up with up := true }).link 0).retraining = false ∧ (∀ p ∈ Tbl.keys tBase.work.parts, (tBase.movesOf p).any MoveSlot.host = false) ∧
    ((tLink { up with retraining := true }).link 0).retraining = true ∧ ((tLink { up with reached := true, perst := false }).link 0).reached = true ∧
    ((tLink { up with reached := false, perst := false }).link 0).reached = false ∧ ((tLink { up with perst := true }).link 0).perst = true ∧
    ((tLink { up with ptm := true }).link 0).ptm = true ∧ linkRecordOk (slice (tRec 64 [(0, toLE 4 0x80000), (4, List.replicate 31 1)]) 0 64) = true := by decide +kernel

theorem wit_FunctionRegistersAndResets :
    let s := tBase.setFn 1 { tBase.fn 1 with apt := [(1, BitVec.ofNat 32 (2 ^ 31 + 3)), (2, 0)], held := [{ code := .wake, payload := [], keep := true }] }
    tBase.acts ∧ aptExists 1 5 = true ∧ (∀ n, 64 * 63 ≤ n → n < 64 * 63 + 64 → (tBase.ctx n).active = false) ∧ bit (2 ^ 31) 31 = true ∧
    (1 ≤ 64 ∧ 1 ≤ 128 ∧ (tBase.held 1).length ≤ 1 ∧ coresHeld (tBase.held 1) ≤ 1 ∧ (0xFFFF = 0xFFFF ∨ pagesHeld (tBase.held 1) ≤ 0xFFFF)) ∧
    ¬ (tBase.held 1).length ≤ 0 ∧ ({ tOn with host := { tOn.host with fns := [(0, { Fn.reset true with wEnergy := 0, wPcie := 0, wMem := 0 })] } } : State).weightSum Fn.wMem 1 9 ≤ 256 ∧
    256 < tBase.weightSum Fn.wEnergy 1 1 ∧ s.errs.halted = false ∧ bit (Tbl.get (0 : Word) (s.fn 1).apt (0x200000 / 0x200000)).toNat 31 = true ∧
    s.pageOwner 3 = some 0 ∧ s.stacksOn (3 * 0x200000) 64 = true ∧ bit (Tbl.get (0 : Word) (s.fn 1).apt (0x400000 / 0x200000)).toNat 31 = false ∧
    s.host.split = false ∧ (s.link (s.linkOf 1)).up = false ∧ ((s.setLink 0 { Link.reset with up := true }).link 0).up = true ∧ (s.fn 1).held.length = 1 ∧ diff32 (s.fn 1).evtTail.toNat (s.fn 1).evtHead.toNat < 1024 := by
  refine ⟨by decide, by decide, fun n h _ => ?_, by decide +kernel⟩
  have : tBase.ctx n = Ctx.reset := rfl
  rw [this]; decide

/-- The module in a state of power, with a request, a transit. -/
def tPwr (f : Power → Power) : State := { tOn with pwr := f tOn.pwr }

def tReq (target : Nat) : StateReq := { owed := 0, target := target, counted := [], timeout := 100 }

/-- An open phrase candidate, and a request for Dormant beside it. -/
def tCand : Cand :=
  { cls := 0, onset := 0, stateAtOnset := 4, changed := false, hops := 1, best := 0, matchRun := 0, rejectRun := 0, matched := false, matchS := 0 }
def tHeld : State :=
  { tPwr (fun p => { p with pending := some (tReq 0) }) with media := { Media.reset with groups := [(0, { AudGroup.reset with cand := some tCand })] } }

theorem wit_PowerStatesAndGuard :
    let pend := fun s : State => s.setPwr { s.pwr with pending := some (tReq 1) }
    tOn.acts ∧ bits (0x6410 % 2 ^ 17) 3 0 = bits tOn.pwr.cfg.toNat 3 0 ∧ bit (0x6410 % 2 ^ 17) 0 = bit tOn.pwr.cfg.toNat 0 ∧
    (tPwr (fun p => { p with transit := some { target := 2, req := none } })).pwr.transit.isSome = true ∧
    (tOn.pwr.transit.isSome || tOn.pwr.escals.any (·.admitted)) = false ∧ tOn.pwr.pending = none ∧ tOn.pwr.state = 4 ∧
    (tPwr (fun p => { p with state := 2 })).pwr.state < 3 ∧ tOn.pwr.thermal.lock = false ∧
    (pend (tClear 1)).checkPending.pwr.pending = some (tReq 1) ∧ (pend (tClear 1)).checkPending.clearingHolds 1 = true ∧
    (tHeld.checkPending.pwr.pending).map (·.target) = some 0 ∧ tHeld.checkPending.busyBelow 0 = false ∧
    tHeld.checkPending.clearingHolds 0 = false ∧ tHeld.checkPending.holders 0 = [0] ∧
    (tPwr (fun p => { p with transit := some { target := 1, req := none } })).holders 1 = [] ∧
    tOn.pwr.aon = true ∧ tOn.pwr.thermal.stage = 0 ∧
    tOn.thermalCond (tOn.sample 50) = tOn.pwr.thermal.stage ∧
    (tPwr (fun p => { p with thermal := { p.thermal with cool := 100, point := [(0, 0)] } })).pwr.thermal.cool = 100 ∧
    (Tbl.keys [(0, 0)]).Nodup ∧ (tBase.coreOwner 0).bind tBase.part = some tPart := by decide +kernel

theorem wit_LedgerAndCascade :
    let s := fun v : Word => { tBase with
      pwr := { tBase.pwr with tiers := [(2, tRec 16 [(2, toLE 2 5)])] }
      cpu := { tBase.cpu with sync := { tBase.cpu.sync with objs := [(5, { tSync with value := v })] } } }
    tBase.pwr.aon = true ∧ (tBase.debits []).pwr.ledger.hold = false ∧
    ((tPwr (fun p => { p with ledger := { p.ledger with curA := 0 } })).debits []).pwr.ledger.curA * 1024 ≤
      ((tPwr (fun p => { p with ledger := { p.ledger with curA := 0 } })).debits []).pwr.ledger.debited ∧
    tBase.tierOk 4 (tRec 16 []) = false ∧
    ({ tBase with cpu := { tBase.cpu with sync := { tBase.cpu.sync with objs := [(5, tSync), (6, tSync)] } } } : State).tierOk 1
      (tRec 16 [(8, toLE 2 5), (0xA, toLE 2 6), (0xC, toLE 2 1)]) = true ∧ Tbl.find (s 1).pwr.tiers 2 = some (tRec 16 [(2, toLE 2 5)]) ∧ tierEsc (tRec 16 [(2, toLE 2 5)]) = 5 ∧
    0 < sdiff32 ((s 1).syncValue 5).toNat (Tbl.get (0 : Word) (s 1).pwr.escSeen 2).toNat ∧
    sdiff32 ((s 0).syncValue 5).toNat (Tbl.get (0 : Word) (s 0).pwr.escSeen 2).toNat ≤ 0 := by decide +kernel

/-- tOn with the root of trust as given. -/
def tTrust (f : Trust → Trust) : State := { tBase with trust := f Trust.reset }

theorem wit_MailboxAndRecogniser :
    tBase.errs.halted = false ∧ (tBase.mbox 0).run = none ∧ (tBase.mbox 0).lost = [] ∧ (tBase.mbox 1).run = none ∧ (tBase.mbox 1).lost = [] ∧
    ((tTrust (fun t => { t with mbox := [(1, { Mbox.reset with len := 384 })] })).mbox 1).len.toNat = 384 ∧ (tBase.mbox 1).len.toNat ≠ 384 ∧ Trust.reset.fwSvn = Trust.reset.runSvn ∧ { Trust.reset with runSvn := 1 }.fwSvn < 1 ∧ (let s := tTrust (fun t => { t with fwFuse := (1, 0) }); s.trust.runSvn < s.trust.fwSvn) ∧
    Trust.reset.recogSvn = Trust.reset.recogImageSvn ∧ { Trust.reset with recogImageSvn := 1 }.recogSvn < 1 ∧ (let s := tTrust (fun t => { t with recogFuse := (0, 1) }); s.trust.recogImageSvn < s.trust.recogSvn) ∧
    (∀ f, f = 0 ∨ f = 1 → (tBase.link (tBase.linkOf f)).retraining = false) ∧ tBase.ownsPart 1 0 = true ∧ tBase.trust.scope = none ∧ tBase.trust.releases.length < 16 ∧
    (tTrust (fun t => { t with releases := [{ reqId := 7, fn := 1, part := 0, gen := 0, rand := [] }] })).trust.releases.any
      (fun r => r.reqId == 7 && r.fn == 1) = true ∧ (tTrust (fun t => { t with identityOk := true })).trust.identityOk = true := by
  refine ⟨by decide, by decide, by decide, by decide, by decide, by decide, by decide, by decide, by decide, by decide, by decide, by decide, by decide, ?_, by decide⟩
  rintro f (rfl | rfl) <;> rfl

theorem wit_SpdmRequests : tBase.carriesSpdm 0 = true ∧ tBase.errs.halted = false ∧ (tTrust (fun t => { t with identityOk := true })).trust.identityOk = true ∧
    tBase.trust.identityOk = false ∧ (tBase.measurement 4).isSome = true := by decide

/-- Partition 0's Clearing waits for credits; a sound and an unsound set of counts. -/
theorem wit_ErrorReports :
    let c : AuditCounts := { opens := false, i := 0, f := 0, o := 0, r := 0, r0 := 0, h := 0, size := 0, foreign := false }
    tBase.errs.halted = false ∧ tBase.pwr.aon = true ∧ tBase.unitsRun = true ∧ tBase.errs.audits.contains 5 = false ∧
    ({ tBase with errs := { tBase.errs with audits := [5] } } : State).errs.audits.contains 5 = true ∧ bits 5 31 29 < 2 ∧ auditPasses c (bits 5 31 29) = true ∧ auditPasses { c with i := 1 } (bits 5 31 29) = false ∧
    (tBase.part 0).isSome = true ∧ bits (2 * 2 ^ 29) 31 29 = 2 ∧ ((tClear 7).job 0).map (fun j => decide (7 ≤ j.step)) = some true ∧
    (tClear 7).errs.halted = false ∧ (tBase.endAudit 5).signalsHome = true ∧
    ({ tBase with cpu := { tBase.cpu with sync := { tBase.cpu.sync with released := 1 } } } : State).signalsHome = false ∧
    tBase.violator (2 ^ 29) (some 0) false = some 0 ∧ tBase.violator (2 * 2 ^ 29) none false = none ∧ Tbl.get 0 tBase.trust.d2dFails 3 < 15 := by decide

theorem tBase_served_halted (f : FnId) (h : f = 1) : Served tBase f true true := by subst h; exact ⟨by decide, .inl rfl, .inl rfl⟩

theorem wit_SparesAndWear :
    let s := fun f : Errs → Errs => { tBase with errs := f tBase.errs, mem := { tBase.mem with swapPending := [(33, true)], rowRepair := [(33, [(7, 100)])] } }
    let due := s (fun e => { e with coreDue := [(9, 2)] })
    (tBase.core 127).tile = none ∧ Tbl.get 0 tBase.errs.rowsUsed 65 < 8 ∧ tBase.pageOwner 100 = none ∧ (s id).swapReady 33 none = true ∧ (s id).swapReady 33 (some (7, 100)) = true ∧
    Tbl.get 0 (s id).errs.remapUsed 33 < 4096 ∧ Tbl.get 0 (s id).errs.slicesUsed 1 < 4 ∧ Tbl.get 0 tBase.errs.lanesUsed 5 < 40 ∧
    40 ≤ Tbl.get 0 (s (fun e => { e with lanesUsed := [(5, 40)] })).errs.lanesUsed 5 ∧ Tbl.find due.errs.coreDue 9 = some 2 ∧
    Tbl.get false due.errs.retiredCores 9 = false ∧ (due.core 9).quiet = true ∧ (due.core 9).tile = none ∧ due.unitsRun = true ∧
    Tbl.get false due.errs.spareCoreUsed (9 / 8) = false ∧ due.pwr.aon = true := by decide

theorem wit_RegisterAccess :
    let s := fun f : Trace → Trace => { tBase with host := { tBase.host with trace := f tBase.host.trace } }
    let on := fun tail : Word => s (fun t => { t with en := true, ringLog2 := 5, tail := tail, enable := [(0, 2)] })
    (tBase.counter 1 0x40).isSome = true ∧ (tBase.counter 1 0x44).isSome = false ∧ 0x44 % 4 = 0 ∧ tBase.acts ∧ tBase.ctxFn 64 = 1 ∧
    tBase.pwr.faultCause ≠ 3 ∧ (tPwr (fun p => { p with faultCause := 3 })).pwr.faultCause = 3 ∧ tBase.pwr.thermal.junction < 95 ∧
    (on 0).host.trace.en = true ∧ tBase.host.trace.en = false ∧ bit 0x80000000 31 = true ∧ tracePoint 1 = true ∧
    bit (Tbl.get (0 : Word) (on 0).host.trace.enable (1 / 32)).toNat (1 % 32) = true ∧
    tBase.traceBlocked = false ∧ 2 ^ (on 32).host.trace.ringLog2 ≤ diff32 (on 32).host.trace.tail.toNat (on 32).host.trace.head.toNat ∧
    diff32 (on 31).host.trace.tail.toNat (on 31).host.trace.head.toNat < 2 ^ (on 31).host.trace.ringLog2 := by decide

/-- A hop that is full over a retrain, whatever its shared slots, has no room for a trace record. -/
def tHop : Hop :=
  let m : HopMsg := { cls := 6, fn := 0, size := 32, since := 0, escape := false, out := .aer false false }
  { Hop.empty with slots := { m with escape := true } :: List.replicate (Config.hopShared 0) m }
def tFull : State := { tBase with host := { tBase.host with link0 := { Link.reset with up := true, retraining := true }, hops := [(0, tHop)] } }

theorem wit_RegisterAccess_blocked : tFull.traceBlocked = true := by
  have h : tFull.linkOf 0 = 0 := rfl
  have r : (tFull.link 0).retraining = true := rfl
  have e : tFull.hop 0 = tHop := rfl
  simp [State.traceBlocked, h, r, e, tHop, Hop.slotFor, Hop.sharedUsed, Hop.escapeFree]

/-- The firmware in Stage B's wait for its image; a module in Dormant after Stage A; one armed after Stage C. -/
def tLoad : List Byte := tRec 16 [(8, toLE 4 2048), (0xC, toLE 4 (9 * 2 ^ 16))]

theorem wit_StartAndSave :
    State.reset.pwr.aon = false ∧ (tPwr (fun p => { p with aon := false, saved := true })).pwr.saved = true ∧
    (tPwr (fun p => { p with state := 0 })).pwr.stageADone = true ∧ tOn.pwr.bFault = false ∧ tOn.pwr.fw.early = none ∧ tOn.unitsRun = true ∧ (tOn.link (tOn.linkOf 0)).retraining = false ∧ tOn.errs.halted = false ∧ tOn.errs.deadSlices = [] ∧
    tOn.pwr.aon = true ∧ (tPwr (fun p => { p with armed := true })).saves = true ∧ tOn.saves = false ∧
    (Tbl.get Bank.reset (tPwr (fun p => { p with banks := [(0, { state := 1, esr := 0, cap := 0 })] })).pwr.banks 0).state = 1 ∧
    0 < tOn.pwr.stage ∧ fwLoadFormat tLoad = true ∧ fwBytes tLoad ≤ 2048 ∧
    (tPwr (fun p => { p with stage := 0 })).pwr.stage = 0 ∧ tOn.fwLoadRefused tLoad = true ∧
    ((tPwr (fun p => { p with fw := { p.fw with running := false } })).taken 0 1 7).fwLoadRefused tLoad = false ∧ tOn.pwr.fw.running = true := by decide +kernel

theorem wit_NonVolatileCountersNeverFall : ∃ t, step tBase = .next t := ⟨_, rfl⟩

/-! Ill-formed commands are refused, and no word spells a command. -/

theorem test_refused_starts : (Instr.powerOn true true false false []).wf = false ∧ (Instr.restartAfterSave true true false false [(65536, 0), (0, 0), (0, 0), (0, 0)]).wf = false ∧
    (Instr.stageB 1 true).wf = false ∧ (Instr.windfallSave 0).wf = false ∧ (Instr.fwLoad 0 0 [] .refused true).wf = false := by decide

theorem test_refused_records : (Instr.stemDescriptor 0 0 0 []).wf = false ∧ (Instr.attnRegister 0 0 0 []).wf = false ∧ (Instr.serveRegister 0 0 0 []).wf = false ∧
    (Instr.modelSlot 0 0 0 0 []).wf = false ∧ (Instr.seqWrite 0 0 0 []).wf = false ∧ (Instr.streamRegister 0 0 0 0 []).wf = false ∧
    (Instr.partCreate 0 0 []).wf = false ∧ (Instr.pairCreate 0 0 []).wf = false ∧ (Instr.camPortMap 0 0 []).wf = false ∧
    (Instr.camCtxStart 0 0 []).wf = false ∧ (Instr.audStore 0 0 []).wf = false ∧ (Instr.linkRecord 0 0 []).wf = false ∧
    (Instr.tierRegister 0 0 0 []).wf = false ∧ (Instr.camProfile 0 0 0 0 (List.replicate 481 0)).wf = false := by decide +kernel

theorem test_refused_values : (Instr.stackTemperatureReport 0 256).wf = false ∧ (Instr.thermalGuardSample (-129)).wf = false ∧ (Instr.syncFree 0 0 [65536]).wf = false ∧ (Instr.cacheTagMismatch 0 0 0 0 [(0, 65536)] false).wf = false ∧
    (Instr.sliceRequest 0 0 false 255 2 [] 0).wf = false ∧ (Instr.sliceRequest 0 0 true 0 1 [] 0).wf = false ∧
    (Instr.linePacket 0 0 0 0 [1048576] true).wf = false ∧ (Instr.recogniserHop 0 [] [[], [], [], [], []] 0).wf = false ∧
    (Instr.recogniserHop 0 [[], [], [], [], []] [] 0).wf = false ∧ (Instr.audStreamSlot 0 [[], [], [], [], []]).wf = false ∧
    (Instr.apertureAccess 0 0 0 false []).wf = false ∧ (Instr.stateEntry (some 9)).wf = false ∧
    (Instr.ledgerWindowStart [{ who := .part 64, amount := 0 }]).wf = false ∧ (Instr.ledgerHold [{ who := .none, amount := 2 ^ 64 }]).wf = false ∧
    (Instr.tallyAudit 0 (some 64) { opens := false, i := 0, f := 0, o := 0, r := 0, r0 := 0, h := 0, size := 0, foreign := false }).wf = false ∧
    (Instr.sramRowSwap true 16 0 0 false).wf = false ∧ (Instr.traceRecordEmit 0 0 0 0 [0, 0, 0, 0, 0] false).wf = false := by decide

theorem test_accepted : (Instr.linePacket 0 0 0 0 [1048575] true).wf = true ∧ (Instr.sliceRequest 0 0 true 255 1 [0] 0).wf = true ∧
    (Instr.tierRegister 0 0 1 (List.replicate 16 0)).wf = true := by decide

theorem test_no_word_spells_a_command : decodeTableWord 32 0 = none ∧ (∀ s : State, s.withFetchWord 32 0 = s) := ⟨rfl, fun _ => rfl⟩

/-- Reset memory lists nothing. -/
theorem test_reset_memory : State.reset.dmem = [] ∧ State.reset.undef = [] ∧ State.reset.poison = [] := by decide

/-! The worked examples of the spec. Each expected value is the example's own. -/

/-- An instance of tMma over row and column bytes at the start of core 0's store. -/
def tStore (a b : List Byte) : State := ((tSeq (tBody 0)).writeMem (coreBase 0) a).writeMem (coreBase 0 + 64) b
def tMmaOf (ta tb : Nat) : MmaArgs :=
  { tMma with ta := { parseTDesc (tTile ta 0) with base := 0 }, tb := { parseTDesc (tTile tb 1) with base := 64 } }

/-- Chapter 03, zero points and saturation: the slot clamps. -/
theorem test_zero_point_saturates :
    ({ tMmaOf 2 1 with ta := { (tMmaOf 2 1).ta with zpMode := 1, zp := 128 } } : MmaArgs).intCell
      (tStore [200, 0, 255, 128] [0xF9, 100, 3, 0x80]) 0 0 (-2147475000) = (-2147483648, true) := by decide +kernel

/-- Chapter 03, one rounding per step: 1.0 becomes 1 + 2 to the -23. -/
theorem test_one_rounding_per_step :
    (tMmaOf 9 9).fpCell (tStore [0x0C, 0x0C, 0, 0] [0x0C, 0x0C, 0x3C, 0x3C]) 0 0 0x3F800000 = (0x3F800001, false) := by decide +kernel

/-- Chapter 03, requantising one channel, and its ties. -/
theorem test_requantise :
    requantCell (toLE 4 (wrap 32 (-1100)) ++ toLE 4 1518500250 ++ toLE 4 40) 48213 (-3) (-128) 127 = (62, false) ∧
    requantCell (toLE 4 0 ++ toLE 4 (2 ^ 30) ++ toLE 4 31) 3 0 (-128) 127 = (2, false) ∧
    requantCell (toLE 4 0 ++ toLE 4 (2 ^ 30) ++ toLE 4 31) (BitVec.ofInt 32 (-3)) 0 (-128) 127 = (-1, false) := by decide +kernel

/-- Chapter 03, the 2-bit code step. -/
theorem test_code_step :
    toF32 (sumNum [ofF32 0x41200000, (decodeFp fmtE4M3 0x3C).mul (decodeFp fmtFP16 0x3B00), (decodeFp fmtE4M3 0xC0).mul (decodeFp fmtFP16 0xBA00),
      (decodeFp fmtE4M3 0x30).mul (decodeFp fmtFP16 0x3400), (decodeFp fmtE4M3 0x44).mul (decodeFp fmtFP16 0xB400)]) = 0x41430000 := by decide +kernel

/-- Chapter 07: the granule at 0x1234567800 in both modes. -/
theorem test_granule_place :
    granulePlace false 0x1234567800 = (3, 21, 0x2468AC00) ∧ granulePlace true 0x1234567800 = (2, 12, 0x2468B300) := by decide +kernel

/-- Chapter 08: FP16 elements with TOL 1. -/
theorem test_pair_tolerance :
    elemMatch 0x11 1 0x8000 0x0001 = true ∧ elemMatch 0x11 1 0x3C00 0x3C01 = true ∧ elemMatch 0x11 1 0x8001 0x0001 = false := by decide

/-- Chapter 06: chunks of the sorted list go to the least loaded cores, 40 pages each of the long sequence. -/
theorem test_chunk_costs : chunkCost 5000 8 0 40 = 2560 ∧ chunkCost 5000 8 40 39 = 2440 ∧ chunkCost 1300 8 0 21 = 1300 := by decide

/-- Chapter 09: the load of a stripe context and of a frame context, in 1.6 times 10 to the 11. -/
theorem test_pipe_load :
    let stripe := camLoad (tRec 256 [(0, toLE 4 0x00084000), (6, toLE 2 3000)]) (tRec 256 [(0, toLE 4 (3840 + 2160 * 65536))])
    let frame := camLoad (tRec 256 [(6, toLE 2 3000)]) (tRec 256 [(0, toLE 4 (1920 + 1080 * 65536))])
    stripe.1 = 17214 * stripe.2 * 1600000 ∧ frame.1 = 3894 * 1600000 := by decide +kernel

/-- Chapter 09: frame 204 is predicted 43 and reports 41, mispredicted. -/
theorem test_exposure_echo :
    let p := tRec 256 [(4, toLE 4 0x0000A000), (0xC, toLE 2 1), (0xE, toLE 2 0xFFFF), (0x10, toLE 2 0xFFFF), (0x12, toLE 2 0xFFFF)]
    let r := fun (id target v : Nat) => ({ id := id, target := target, writes := [v * 65536] } : ExpReq)
    let x := { tCam with profile := p, reqs := [r 43 204 43, r 42 204 42, r 41 202 41, r 40 200 40] }
    let f := fun (no pred echo : Nat) => { tFrame no 0 true with pred := pred, emb := [0, echo] }
    x.expId (f 204 43 41) = (41, 64 + 128) ∧ x.expId (f 205 43 43) = (43, 64) ∧ x.expId (f 201 40 40) = (40, 64) := by decide +kernel

/-- Chapter 10: the unsealing point of an onset at 659,680. -/
theorem test_unseal : ({ tGroup with s := 674400, live := 0x1600 } : AudGroup).unsealAt 659680 = 635904 := by decide +kernel

/-- Chapter 11: five of nine descriptors find room. -/
theorem test_ring_near_wrap :
    let c := fun (n : Nat) => { tCtx ((List.range n).map (fun i => Desc.fetch i 0)) with cqHead := 70, cqTail := 126 }
    (c 3).cqFree = true ∧ (c 7).cqFree = true ∧ (c 8).cqFree = false := by decide

/-- Chapter 13, admission in one window, in units of 1/1,024 µJ. -/
theorem test_admission :
    let l : Ledger := { State.reset.pwr.ledger with avail := [(0, 1500000), (1, 250000)], pool := 250000 }
    let l1 := l.charge 1 400000
    let l2 := l1.giveBack 1 40000 150000
    let l3 := l2.charge 0 1600000
    l.admits 1 400000 = true ∧ (Tbl.get 0 l1.avail 1, l1.pool) = (0, 100000) ∧ l1.admits 1 150000 = false ∧ (Tbl.get 0 l2.avail 1, l2.pool) = (0, 140000) ∧
    l2.admits 0 1600000 = true ∧ (Tbl.get 0 l3.avail 0, l3.pool) = (0, 40000) ∧ ({ l3 with pool := -20000 } : Ledger).admits 1 30000 = false := by decide

/-- Chapter 16: the audit of a write queue passes; with one item lost it does not. -/
theorem test_audit :
    auditPasses { opens := false, i := 1048903, f := 1048900, o := 3, r := 1048900, r0 := 1048898, h := 27, size := 32, foreign := false } (bits 0x0A0A4401 31 29) = true ∧
    auditPasses { opens := false, i := 1048903, f := 1048900, o := 2, r := 1048900, r0 := 1048898, h := 27, size := 32, foreign := false } 0 = false := by decide

/-- Chapter 18: the address of a stall counter, read in halves. -/
theorem test_stall_counter :
    let s := tBase.setFn 3 (tBase.fn 3)
    let s := { s with work := { s.work with parts := [(5, { tPart with fn := 3 })], stall := [(8 * 5 + 4, 10737422336)] } }
    s.counter 3 0x610160 = some 10737422336 ∧ s.counter 3 0x6101A0 = none ∧ 10737422336 / 2 ^ 32 = 2 ∧ 10737422336 % 2 ^ 32 = 0x80001000 := by decide

/-- Chapter 14: with bank 1 failed of four the module arms between 11.6 V and 11.7 V. -/
theorem test_arming :
    let s := fun v : Nat => { tOn with pwr := { tOn.pwr with
      bankV := v, banks := [(0, { state := 1, esr := 18, cap := 2050 }), (1, { state := 1, esr := 21, cap := 2180 }), (2, { state := 2, esr := 19, cap := 1600 }),
        (3, { state := 1, esr := 25, cap := 1970 })] } }
    (s 117).armable = true ∧ (s 116).armable = false ∧ (s 117).goodBanks.length = 3 ∧ bankGood 1600 19 = false := by decide +kernel

/-- Chapter 13: a rise from Seed to Sprout with DIE 0 and CLUSTER 3 powers nine domains. -/
theorem test_sprout_domains :
    let s := { State.reset with pwr := { Power.reset with aon := true, stageADone := true, state := 1, cfg := 0x6406 } }
    (((s.powerTo 2).pwr.on.filter (fun e => e.2)).map (·.1)).length = 9 ∧ (s.powerTo 2).domainOn 80 = true ∧ (s.powerTo 2).domainOn 83 = true ∧
    (s.powerTo 2).coreOn 24 = true ∧ (s.powerTo 2).coreOn 25 = false := by decide +kernel

/-! Witnesses for the further cases of the statements: each clause with a condition of its own is met. -/

/-- A WAIT for object 5 in PMODE OFF against register 1, on a core whose register 1 holds 1 and whose tile lists `live`; and with a Minuet request. -/
def tOff (live : List (Nat × Nat)) (ask : Bool) : Core :=
  { (tHead (tWord 0x03 (2 ^ 49 + 3 * 2 ^ 46 + 5))).setSreg 1 1 with prog := some { tProg with live := [live] }, minuetReq := ask }

theorem wit_WaitsAndWaitSets_modes (live : List (Nat × Nat)) (ask : Bool) (h : live = [] ∨ live = [(0, 64)]) :
    Issues (tSeq (tOff live ask)) 0 (tOff live ask) (tWord 0x03 (2 ^ 49 + 3 * 2 ^ 46 + 5)) ∧ (tOff live ask).minuetReq = ask ∧
    (tOff live ask).allow = 3 ∧ bits (tWord 0x03 (2 ^ 49 + 3 * 2 ^ 46 + 5)) 48 46 = 3 ∧
    (tSeq (tOff live ask)).waitHolds { sync := 5, eq := false, target := (tOff live ask).sreg 1 } = false ∧
    ((tOff live ask).prog.map (fun p => p.live.getD 0 [])) = some live := by
  rcases h with rfl | rfl <;> cases ask <;> exact ⟨tSeq_issues rfl (by decide), by decide⟩

theorem wit_TileOpensAndCommits_stop : (tOut (tWord 0x01 0)).stopReq = false ∧ (tOn.core 127).minuetReq = false := by decide

/-- A move of a stream, a core move and a move of host memory over a sound and over a retraining link; a stem descriptor without an output row. -/
theorem wit_MoverAndStemCommands_cases :
    let m := { tMove with owner := .stream 0 1 }
    let u := { tBase with cpu := { tBase.cpu with clusters := [(0, { Cluster.reset with moves := [m] })] } }
    let host := { tMove with raw := putBytes tMove.raw 0x18 (toLE 2 (1 + 192 + 512)) }
    let e := putBytes tStem 0x28 (toLE 1 7)
    let z := tRun (tBody 0) [tDesc (tRec 64 [])]
    let j : StemJob := { raw := tStem, part := 0, gen := 0, ctx := 64, idx := 0 }
    let run := { tBase with cpu := { tBase.cpu with clusters := [(0, { Cluster.reset with stemRun := some j })] } }
    (u.cluster 0).moves.find? (fun x => x.slot == 0) = some m ∧ u.moveHeld 0 0 0 (parseMove m.raw) .refused = false ∧
    (parseMove m.raw).src.space ≠ 2 ∧ (tBase.setLink 0 { Link.reset with retraining := true }).troubled 0 host = true ∧
    z.stemErr 0 0 0 tPart e = none ∧ (geomOut (stemGeom e)).1 = 0 ∧ (run.cluster 0).stemRun = some j ∧
    ({ run with poison := [(clusterBase 0 / 8, true)] } : State).poisoned (stemSrc 0 tStem) (stemSizes tStem).1 = true := by decide +kernel

/-- Images with one geometry record: outside the limits, with no output row, and sound. -/
def tGeom (hIn kh : Nat) : List Byte :=
  tRec 32 [(0, toLE 2 hIn), (2, toLE 2 1), (4, toLE 2 1), (6, toLE 2 1), (8, toLE 1 kh), (9, toLE 1 1), (0xA, toLE 1 1), (0xB, toLE 1 1), (0xC, toLE 1 1),
    (0xD, toLE 1 1), (0xE, toLE 2 1)]
def tImageOf (g : List Byte) : List Byte :=
  tRec 96 [(0, toLE 4 0x33435450), (4, toLE 2 0x0300), (0x24, toLE 4 64), (0x28, toLE 1 1), (0x3C, toLE 4 (crc32 g)), (64, g)]

theorem wit_ProgramsLoad_geometry :
    imageOk (tImageOf (tGeom 0 1)) = true ∧ geomErr (tImageOf (tGeom 0 1)) = true ∧ geomErr (tImageOf (tGeom 1 2)) = false ∧
    (imageGeoms (tImageOf (tGeom 1 2))).find? (fun g => (geomOut g).1 == 0 || (geomOut g).2 == 0) = some (tGeom 1 2) ∧
    geomErr (tImageOf (tGeom 1 1)) = false ∧ (∀ g ∈ imageGeoms (tImageOf (tGeom 1 1)), (geomOut g).1 ≠ 0 ∧ (geomOut g).2 ≠ 0) := by decide +kernel

/-- A post descriptor that signals object 6, which nobody owns; one whose records a slice holds, and poison in what one reads. -/
theorem wit_PostEngineCommands_cases :
    let j := { tPost with raw := putBytes (putBytes tPost.raw 0x3C (toLE 2 6)) 0x3E (toLE 2 1) }
    postOk tPart j.raw = true ∧ fld j.raw 0x3E 2 ≠ 0 ∧ tBase.ownsSync 0 0 (fld j.raw 0x3C 2) = false ∧
    (∀ e ∈ postRanges tPost.raw, tBase.memHeld e.1 e.2 = false) ∧
    ((postRanges tPost.raw).take 2).any (fun e => e.2 != 0 && ({ tBase with poison := [(0, true)] } : State).poisoned e.1 e.2) = true := by decide +kernel

/-- A hot stack and an open repair hold a granule; a refresh meets a waiting swap; a link below its floor. -/
theorem wit_StackedMemoryCommands_cases :
    ({ tBase with mem := { tBase.mem with temp := [(tBase.stackOf 255, 105)] } } : State).granuleHeld 255 = true ∧
    ({ tBase with mem := { tBase.mem with rowRepair := [(tBase.channelOf 255, [(0, 0)])] } } : State).granuleHeld 255 = true ∧
    ({ tBase with mem := { tBase.mem with swapPending := [(tBase.channelOf 255, true)] } } : State).granuleHeld 255 = true ∧
    ({ tBase with mem := { tBase.mem with rowRepair := [(tBase.channelOf 255, [(0, 1)])] } } : State).granuleHeld 255 = false ∧
    tBase.granuleHeld 255 = false ∧ Tbl.get false ({ tBase with mem := { tBase.mem with swapPending := [(127, true)] } } : State).mem.swapPending 127 = true ∧ ({ tBase.mem with rowRepair := [(127, [(0, 0)])] } : Mem).repairOpen 127 = true ∧
    tBase.acts := by decide

theorem wit_WeightStreams_replaces :
    (tFill 2 1 false).live = true ∧ ({ tFill 2 2 true with stopped := true } : WStream).live = false ∧
    Tbl.find tBase.work.streams 0 = none := by decide

/-- Doorbells outside the ring, behind it, of a halted context and over a link below its floor. -/
theorem wit_ContextRegisters_cases :
    let s := { tBase with work := { tBase.work with ctxs := [(64, { tCtx [] with sqHead := 1, sqTail := 1, cqHead := 1, cqTail := 1 })] } }
    let low := s.setLink (s.linkOf 1) { s.link (s.linkOf 1) with belowFloor := true }
    2 ^ (s.ctx 64).sqLog2 < diff32 100 (s.ctx 64).sqHead.toNat ∧ sdiff32 0 (s.ctx 64).sqTail.toNat < 0 ∧ sdiff32 0 (s.ctx 64).cqHead.toNat < 0 ∧
    sdiff32 (s.ctx 64).cqTail.toNat 2 < 0 ∧ (low.link (low.linkOf 1)).belowFloor = true ∧ s.pwr.fw.running = true := by decide

/-- A ring in stacked memory, a copy that no slice holds, a post descriptor handed over once. -/
theorem wit_DescriptorFetchAndWork_cases :
    let s := { tBase with work := { tBase.work with ctxs := [(64, { tCtx [Desc.fetch 0 0] with cfg := 0x80800606 })] } }
    let d := tDesc (tRec 64 [(0, toLE 1 2), (0x30, toLE 4 64)])
    (s.ctx 64).sqDpa = true ∧ s.stackedErr tPart 0 0 ((s.ctx 64).sqBase + 0 * 64) 64 = none ∧ s.poisoned (s.ctx 64).sqBase 64 = false ∧
    (tRun (tBody 0) [d]).copyWaits tPart d.raw = false ∧
    ((tRun (tBody 0) [d]).cpu.post.handed ++ (tRun (tBody 0) [d]).cpu.post.queue).any (fun j => j.ctx == 64 && j.idx == 0) = false := by decide

/-- A core that waits, one held at its first body instruction, an ended one with a request, a due swap, a doorbell held in a halted context. -/
theorem wit_MinuetCommands_cases :
    let held := tRun { tHead (tWord 0x10 0) with tile := some { id := 0, pos := 0, inBody := false, proxies := [] } } []
    let held := { held with pwr := { held.pwr with ledger := { held.pwr.ledger with hold := true } } }
    let ended := tRun { tOut 0 with run := .ended, minuetReq := true } []
    let due := { tRun (tBody 0) [] with errs := { tBase.errs with coreDue := [(0, 2)] } }
    ({ tHead 0 with run := .woken } : Core).atWait = true ∧ (tBody 0).atWait = false ∧ held.heldAtBody 0 = true ∧ due.heldAtBody 0 = false ∧
    (ended.core 0).run = .ended ∧ (ended.core 0).minuetReq = true ∧ (ended.core 0).work = some tWork ∧
    (Tbl.find due.errs.coreDue 0).isSome = true ∧ (due.core 0).resume = none ∧ ({ tCtx [] with halted := true, held := [{ head := false, value := 3, order := 0 }] } : Ctx).held ≠ [] := by
  decide

/-- A cache page of sequence 3 whose group tags are not the expected ones, read in an open tile. -/
theorem wit_ServingMessages_cases :
    let l := { tList with
      entries := [{ seq := 3, qLen := 1, kvLen := 64 }], done := none,
      items := [{ core := 0, seq := 3, head := 0, first := 0, ids := [0], seed := 1, nChunks := 1, out := 0, bytes := 0 }] }
    let s := { tSeq (tBody 0) with work := { (tServing [l] tServe).work with seqs := [(3, { SeqEntry.free with raw := tRec 48 [(0, toLE 4 1), (8, toLE 8 0x100000)] })] } }
    let open_ := { tList with updated := true }
    (s.core 0).work = some tWork ∧ (s.serving 0).lists.find? (fun l => l.ctx == 64 && l.idx == 0) = some l ∧ s.modelAttn 0 0 = some { raw := tAttn, part := 0, head := 0, len := 0 } ∧
    s.cacheHit 0 0 l 3 (coreBase 0) 64 = true ∧ (s.tilePlan 0).releases [] = true ∧ TilePlan.empty.releases [] = true ∧ [tList].find? (fun l => l.done.isSome && !l.updated) = some tList ∧ (∃ m ∈ [l, open_], m.updated = false) ∧
    (∀ m ∈ [open_], m.updated = true) := by decide +kernel

/-- A WAIT in SLOW; doorbells of a context being cleared and of a step context. -/
theorem wit_WaitsAndWaitSets_slow : bits (tWord 0x03 (2 ^ 47 + 5)) 48 46 = 2 ∧ min 2 (tHead (tWord 0x03 (2 ^ 47 + 5))).allow = 2 ∧ 2 < 3 := by decide

theorem wit_ContextRegisters_clearing :
    let s := { tClear 1 with work := { (tClear 1).work with ctxs := [(64, tCtx [])] } }
    (s.ctx 64).active = true ∧ s.ctxClearing 64 = true ∧ s.isStepCtx 64 = false ∧
    ((tServing [] tServe).ctx 64).active = true ∧ (tServing [] tServe).isStepCtx 64 = true ∧ s.acts := by decide +kernel

/-- A queued descriptor that the ledger admits, one that waits for the next window, and one that no window can bear. -/
theorem wit_DescriptorsStartEndAndFail_ledger (a w : Nat) (h : (a, w) = (2, 256) ∨ (a, w) = (0, 256) ∨ (a, w) = (0, 0)) :
    let s0 := tRun Core.reset [{ tDesc (tRec 64 [(8, toLE 4 1)]) with phase := .queued }]
    let s1 := s0.setFn 1 { s0.fn 1 with wEnergy := w }
    let s := s1.setLedger { s1.pwr.ledger with avail := [], pool := 1024 * a, curA := 100 }
    (s.pick (s.rtCandidates 0) []).isNone = true ∧ (s.pick (s.normalCandidates 0) []).map (·.1) = some 64 ∧
    ((s.ledgerTest 64 0).desc 64 0).map (·.phase) = some (if a = 2 then .admitted else if w = 256 then .energyWait else .ended) := by
  simp only [Prod.mk.injEq] at h
  rcases h with ⟨rfl, rfl⟩ | ⟨rfl, rfl⟩ | ⟨rfl, rfl⟩ <;> decide +kernel

/-- A port that failed, one without a profile, one whose group is off and turns on by EN. -/
theorem wit_CameraPorts_cases :
    let s := tCams [] []
    let failed := s.setPort 0 { s.media.port 0 with st := 1, link := 4 }
    let bare := s.setPort 0 { s.media.port 0 with link := 1, slot := 5 }
    let off := s.setPort 0 { s.media.port 0 with en := false }
    (failed.media.port 0).st = 1 ∧ (failed.media.port 0).link = 4 ∧ bare.portProfile 0 = [] ∧ (bare.media.port 0).link < 2 ∧ off.groupOn 0 = false ∧
    ((off.writePoc 0 1).setPort 0 { (off.writePoc 0 1).media.port 0 with en := true }).groupOn 0 = true ∧
    ((off.writePoc 0 0).setPort 0 { (off.writePoc 0 0).media.port 0 with en := false }).groupOn 0 = false ∧ tBase.acts := by decide +kernel

/-- A frame start of no context, of an inline context, a watch context below Sprout. -/
theorem wit_FramePackets_cases :
    let w := { tCam with started := 2, frames := [tFrame 0 64 true], watch := some 0 }
    let low := { tCams [(0, w)] [] with pwr := { tBase.pwr with state := 1 } }
    (tCams [] []).media.nextCam 0 0 = none ∧
    (tCams [] []).media.openCam 0 0 = none ∧ (tCams [] []).media.hasCam 0 0 none = false ∧ ({ tCam with dflt := true } : CamCtx).dflt = true ∧
    w.watch.isSome = true ∧ low.pwr.state < 2 ∧ tCam.dflt = false ∧ tCam.watch = none ∧
    (∃ f ∈ [tFrame 0 64 true], f.no % camRawSlots tCam.raw = 2 % camRawSlots tCam.raw) ∧ tOpen.dropping = false := by decide +kernel

theorem wit_FramePackets_suspended : (tCams [(0, { tCam with suspended := true })] []).media.nextCam 0 0 = none ∧
    (tCams [(0, { tCam with suspended := true })] []).media.ctxs.find? (fun e => e.2.port == 0 && e.2.vc == 0 && e.2.suspended) =
      some (0, { tCam with suspended := true }) := ⟨rfl, rfl⟩

theorem wit_IspUnits_held :
    (tCams [(0, tCam)] []).memHeld (tCam.lineAt (tFrame 0 64 true) 0) (rawFrame tCam.profile) = false ∧ (tFrame 0 64 true).inline tCam = false :=
  ⟨by decide +kernel, by decide +kernel⟩

/-- An unsound command, and an ISP_PARAMS whose block lies in stacked memory. -/
def tBlock : CamCmd := { ctx := 64, idx := 0, part := 0, raw := putBytes (tCmd 4) 0 (toLE 4 (4 + 0x10)) }
theorem wit_CameraCommands_cases : camCmdOk (putBytes (tCmd 1) 3 (toLE 1 1)) = false ∧ camCmdOk tBlock.raw = true ∧ camOp tBlock.raw = 4 ∧
    fldBits tBlock.raw 0 5 4 = 1 ∧ (tCams [(0, tCam)] [tBlock]).camCmdHeld tBlock = false ∧ ([] : List Byte).length < camCount (tQ 2).raw := by decide +kernel
theorem wit_CameraCommands_block : tBase.part tBlock.part = some tPart ∧
    tBase.stackedErr tPart tBlock.part (tBase.gen tBlock.part) (fld tBlock.raw 0x10 8) 6272 = none ∧
    tBase.poisoned (fld tBlock.raw 0x10 8) 6272 = false := ⟨rfl, by decide +kernel, by decide +kernel⟩

theorem wit_AudioRegistersAndMessages_copy :
    tBase.stackedErr tPart 0 (tBase.gen 0) 0 512 = none ∧ tPart.fn = 1 ∧ tPart.clearing = false ∧
    (audOwner (BitVec.ofNat 32 0x081E0009 &&& 0x7FFF001F) ≠ audOwner tGroup.wake) := by decide

/-- A host move on the link of function 1, a function with an active context, a page below 2 MiB. -/
theorem wit_FunctionRegistersAndResets_cases :
    ((tRun (tBody 0) []).ctx 64).active = true ∧ bits 0 4 0 ≠ Tbl.get 0 (tRun (tBody 0) []).host.groupOwner 1 ∧ 64 * 1 ≤ 64 ∧ 64 < 64 * 1 + 64 ∧
    tBase.memHeld (3 * 0x200000) 64 = false ∧ 0x200000 % 0x200000 + 64 ≤ 0x200000 ∧ 0x10000 ≤ 0x20000 ∧ 0x20000 + 64 ≤ 0x50000 ∧ 0xFFFC % 4 = 0 := by decide

/-- PWR_CFG moving the Sprout domains in Canopy; a rise under thermal lock; an entry that a candidate holds; a rise out of Seed. -/
theorem wit_PowerStatesAndGuard_cases :
    let locked := tPwr (fun p => { p with state := 2, thermal := { p.thermal with lock := true } })
    let entry := { tHeld with pwr := { tHeld.pwr with transit := some { target := 0, req := none } } }
    let seed := tPwr (fun p => { p with state := 1, transit := some { target := 2, req := none } })
    let lost := tPwr (fun p => { p with state := 1, fwLost := true, fw := Firmware.reset, transit := some { target := 2, req := none, powered := true } })
    2 ≤ tOn.pwr.state ∧ bits (2 % 2 ^ 17) 3 0 ≠ bits tOn.pwr.cfg.toNat 3 0 ∧ tOn.pwr.fw.running = true ∧
    locked.pwr.thermal.lock = true ∧ locked.pwr.state < 3 ∧ entry.pwr.transit = some { target := 0, req := none } ∧ entry.holders 0 = [0] ∧
    lost.pwr.state < 2 ∧ lost.pwr.fwLost = true ∧ lost.pwr.fw.running = false ∧ lost.pwr.thermal.lock = false ∧ tOn.unitsRun = true ∧
    (tPwr (fun p => { p with fwLostDue := true })).pwr.fwLostDue = true ∧
    seed.pwr.state = 1 ∧ seed.pwr.transit = some { target := 2, req := none } := by decide

/-- A test port that is open, a table of sixteen entries, a lost identity. -/
theorem wit_MailboxAndRecogniser_refusals :
    let open_ := tTrust (fun t => { t with scope := some 1 })
    let full := tTrust (fun t => { t with releases := List.replicate 16 { reqId := 7, fn := 1, part := 0, gen := 0, rand := [] } })
    open_.trust.scope ≠ none ∧ open_.ownsPart 1 0 = true ∧ full.trust.scope = none ∧ 16 ≤ full.trust.releases.length ∧
    Trust.reset.identityOk = false ∧ (tTrust (fun t => { t with identityOk := true, scope := some 1 })).trust.scope ≠ none ∧
    tBase.measurement 200 = none ∧ (1 : Nat) ≠ 0 := by decide

/-- The energy pool balanced and not. -/
theorem wit_ErrorReports_energy :
    let s := fun p : Int => tPwr (fun q => { q with ledger := { q.ledger with avail := [], pool := p, debited := 0, curA := 0 }, escals := [] })
    bits (3 * 2 ^ 29) 31 29 = 3 ∧ (s 0).energyDiff = 0 ∧ (s 1).energyDiff ≠ 0 ∧ tBase.errs.halted = false := by decide

/-- Spares used up: of a cluster and a core bank, a pseudo-channel's remap rows, a stack's slices, a cluster's core; a worn island at its last step. -/
theorem wit_SparesAndWear_exhausted :
    let s := fun f : Errs → Errs => { tBase with errs := f tBase.errs, mem := { tBase.mem with swapPending := [(33, true)], rowRepair := [(33, [(7, 100)])] } }
    let lost := s (fun e => { e with coreDue := [(9, 7)], spareCoreUsed := [(1, true)] })
    let m : Margin := { tBase.margin 0 with slack := 4, steps := 10 }
    16 ≤ Tbl.get 0 (s (fun e => { e with rowsUsed := [(128 * 64, 16)] })).errs.rowsUsed (128 * 64) ∧
    8 ≤ Tbl.get 0 (s (fun e => { e with rowsUsed := [(65, 8)] })).errs.rowsUsed 65 ∧ (s id).swapReady 33 none = true ∧ (s id).swapReady 33 (some (7, 100)) = true ∧
    4096 ≤ Tbl.get 0 (s (fun e => { e with remapUsed := [(33, 4096)] })).errs.remapUsed 33 ∧ 4 ≤ Tbl.get 0 (s (fun e => { e with slicesUsed := [(1, 4)] })).errs.slicesUsed 1 ∧
    Tbl.find lost.errs.coreDue 9 = some 7 ∧ Tbl.get false lost.errs.spareCoreUsed (9 / 8) = true ∧ (lost.core 9).resume = none ∧ (lost.core 9).work = none ∧
    (lost.core 9).quiet = true ∧ m.steps = 10 ∧ m.slack < 5 ∧ islandCore 168 = none ∧ islandCore (coreIsland 3) = some 3 ∧
    (∀ k, (tBase.margin 0).stepAt = some k → k + 384000000 ≤ tBase.host.refTicks) ∧ (tBase.margin 0).steps < 10 := by decide

theorem wit_RegisterAccess_cases :
    let t : Trace := { tBase.host.trace with en := true, ringLog2 := 5, tail := 32, enable := [(0, 2)] }
    tBase.ctxFn 64 = 1 ∧ tBase.acts ∧ 0x300000 + 64 * 64 + 8 = 0x301008 ∧ 2 ^ t.ringLog2 ≤ diff32 t.tail.toNat t.head.toNat ∧ tBase.counter 1 0x44 = none := by decide

/-- Stage B waiting for a first frame, and with every port landed; a bank that fails its measurement; firmware regions. -/
theorem wit_StartAndSave_cases :
    let wait := { tCams [(16, { tCam with dflt := true })] [] with pwr := { tBase.pwr with stageADone := true, state := 0, bOpen := true, bFault := false } }
    wait.firstFrames = false ∧ wait.pwr.bOpen = true ∧ (tPwr (fun p => { p with bOpen := true })).firstFrames = true ∧ 1800 < 1900 ∧ tOn.pwr.fw.running = true ∧
    (32 : Nat) % 64 ≠ 0 ∧ 0 < 64 := by decide

/-- The recogniser hears the mean of its microphones, halves rounded up (text before R480). -/
theorem test_recogniser_mean : recogMean [0, 1] = 1 ∧ recogMean [-1, 0] = 0 ∧ recogMean [3, 4, 6] = 4 := by decide

end Sys2Proof.Tests
end

section
/-!
PROOF. Accesses to set-up registers, the pins' latches and the trace (R23 to R28, R55, R690, R721 to R735): what each command does, and
what a register write leaves unchanged.
-/
namespace Sys2Proof.Machine

/-! What a register write leaves unchanged, and when a trace point emits. -/

/-- Two states differ at most in the parts that hold set-up registers and the work that they steer: nothing has been sent. -/
def SilentWrite (s t : State) : Prop :=
  ∃ (h : HostSide) (w : Work) (k : Trust) (m : Media), t = { s with host := h, work := w, trust := k, media := m }

/-- Two states differ at most in the parts that hold set-up registers and the work that they steer, and in what has been sent. -/
def SameBeyondRegisters (s t : State) : Prop := ∃ l : List Out, SilentWrite { s with sent := l } t

/-- The address is that of a context's MOD register (Table 11.6). -/
def IsModAddr (addr : Nat) : Prop := ∃ n : CtxId, addr = 0x300000 + 64 * n.val + 0x14

/-- PF0 has enabled a trace point, in a module whose trace runs and that is not in the fatal halt (R721, R722). -/
def TracesAt (s : State) (point : Nat) : Prop :=
  s.host.trace.en = true ∧ tracePoint point = true ∧
    bit (Tbl.get (0 : Word) s.host.trace.enable (point / 32)).toNat (point % 32) = true ∧ s.errs.halted = false

/-- The trace with an island's record counted in its sequence number (R722). -/
def Trace.counted (t : Trace) (island : Nat) : Trace :=
  { t with seq := Tbl.set 0 t.seq island ((Tbl.get 0 t.seq island + 1) % 2 ^ 32) }

variable {s t : State}

/-! Reads (R23, R24, R26, R730). -/

/-- A module with power counts a misaligned access, up to 0xFFFF, and answers a read of one with 0 (R730). -/
theorem execBar0MisalignedAccess_on (h : s.pwr.aon = true) (f : Nat) (write : Bool) :
    execBar0MisalignedAccess f write s =
      let u := s.setFn f { s.fn f with accessErr := if (s.fn f).accessErr < 0xFFFF then (s.fn f).accessErr + 1 else 0xFFFF }
      .next (if write then u else u.emit (.regRead f 0)) := by
  have sat : satAdd (s.fn f).accessErr 1 0xFFFF = if (s.fn f).accessErr < 0xFFFF then (s.fn f).accessErr + 1 else 0xFFFF := by
    unfold satAdd; split <;> split <;> omega
  simp [execBar0MisalignedAccess, h, sat]

/-- A read of a counter that is not there, or not the function's, returns 0 (R24, R732). -/
theorem execCounterLoRead_none (h : s.pwr.aon = true) {f addr : Nat} (hc : s.counter f addr = none) :
    execCounterLoRead f addr s = .next (s.emit (.regRead f 0)) := by
  simp [execCounterLoRead, h, hc]

/-- A read of a counter's low word returns it and latches the high word for the function (R24). -/
theorem execCounterLoRead_some (h : s.pwr.aon = true) {f addr v : Nat} (hc : s.counter f addr = some v) :
    execCounterLoRead f addr s = .next ((s.setFn f { s.fn f with
      latch := Tbl.put (s.fn f).latch addr (BitVec.ofNat 32 (v / 2 ^ 32)) }).emit (.regRead f (BitVec.ofNat 32 v))) := by
  simp [execCounterLoRead, h, hc]

/-- An aligned read of a register that is no counter's low word returns its value, uses up a latched high word and clears the RC fields
(R24, R26). -/
theorem execRcRegisterRead_on (h : s.pwr.aon = true) {f addr : Nat} (ha : addr % 4 = 0) (hc : s.counter f addr = none) :
    execRcRegisterRead f addr s =
      .next (((s.emit (.regRead f (BitVec.ofNat 32 (s.readReg f addr)))).useLatch f addr).clearRead f addr) := by
  simp [execRcRegisterRead, h, ha, hc]

/-! What a register write leaves unchanged (R55). -/

/-- Every setter of a register is a silent write. -/
theorem SilentWrite.of_parts (s : State) (h : HostSide) (w : Work) (k : Trust) (m : Media) :
    SilentWrite s { s with host := h, work := w, trust := k, media := m } :=
  ⟨h, w, k, m, rfl⟩

theorem SilentWrite.trans {u : State} : SilentWrite s t → SilentWrite t u → SilentWrite s u := by
  rintro ⟨_, _, _, _, rfl⟩ ⟨h, w, k, m, rfl⟩
  exact .of_parts s ..

theorem SilentWrite.sent_eq (h : SilentWrite s t) : t.sent = s.sent := by
  obtain ⟨_, _, _, _, rfl⟩ := h
  rfl

theorem SilentWrite.sameBeyondRegisters (h : SilentWrite s t) : SameBeyondRegisters s t := ⟨s.sent, h⟩

/-- A write to MOD may send the message of pending records, and changes nothing else beyond the registers (R535). -/
theorem State.writeCtx_mod (s : State) (n value : Nat) : SameBeyondRegisters s (s.writeCtx n 0x14 value) := by
  unfold State.writeCtx
  dsimp only
  rw [if_pos rfl]
  split
  · generalize hu : s.setCtx n _ = u
    obtain ⟨x, h, c, l, e⟩ := u.sendMsg_rest (u.ctxFn n) _
    rw [e, ← hu]
    exact ⟨l, .of_parts ..⟩
  · exact (SilentWrite.of_parts ..).sameBeyondRegisters

/-- A write to a context register other than MOD sends nothing (R515). -/
theorem State.writeCtx_silent (s : State) (n value : Nat) {off : Nat} (h : off ≠ 0x14) : SilentWrite s (s.writeCtx n off value) := by
  unfold State.writeCtx
  dsimp only
  rw [if_neg h]
  split
  · exact .of_parts ..
  split
  · exact .of_parts s ..
  split
  case h_5 => split <;> exact .of_parts ..
  all_goals exact .of_parts ..

theorem State.event_silent (s : State) (f : Nat) (code : Status) (pl : List Byte) : SilentWrite s (s.event f code pl) := by
  obtain ⟨x, g, e⟩ := s.event_rest f code pl false
  exact e ▸ .of_parts ..

theorem State.mailGo_silent (s : State) (f code : Nat) (arg : Option Nat) : SilentWrite s (s.mailGo f code arg) := by
  unfold State.mailGo
  dsimp only
  split <;> exact .of_parts ..

/-- A mailbox command that ends without output sends nothing; its event is held for its function's ring (R647). -/
theorem State.mailDone_silent (s : State) (f : Nat) (st : Status) : SilentWrite s (s.mailDone f st []) :=
  .trans (.of_parts ..) (State.event_silent ..)

theorem State.writeGo_silent (s : State) (f code : Nat) : SilentWrite s (s.writeGo f code) := by
  unfold State.writeGo
  dsimp only
  split
  · exact State.mailGo_silent ..
  · exact .trans (State.mailGo_silent ..) (State.mailDone_silent ..)

theorem State.writeMbox_silent (s : State) (f off value : Nat) : SilentWrite s (s.writeMbox f off value) := by
  unfold State.writeMbox
  dsimp only
  split
  case h_1 =>
    split
    · exact State.writeGo_silent ..
    · exact .of_parts ..
  all_goals exact .of_parts ..

theorem State.writeTrc_silent (s : State) (off value : Nat) : SilentWrite s (s.writeTrc off value) := by
  unfold State.writeTrc
  dsimp only
  repeat' split
  all_goals exact .of_parts ..

theorem State.writeMsix_silent (s : State) (f addr value : Nat) : SilentWrite s (s.writeMsix f addr value) := by
  unfold State.writeMsix
  dsimp only
  repeat' split
  all_goals exact .of_parts ..

/-- An aligned write of a register without a row of its own changes the registers and the work that they steer; it sends something only when
it writes the MOD of a context. -/
theorem execRegisterWrite_frame (h : s.acts) (f value : Nat) {addr : Nat} (ha : addr % 4 = 0) :
    ∃ t, execRegisterWrite f addr value s = .next t ∧ SameBeyondRegisters s t ∧ (¬ IsModAddr addr → t.sent = s.sent) := by
  have both : ∀ {t}, SilentWrite s t → SameBeyondRegisters s t ∧ (¬ IsModAddr addr → t.sent = s.sent) :=
    fun k => ⟨k.sameBeyondRegisters, fun _ => k.sent_eq⟩
  rw [execRegisterWrite, show (addr % 4 == 0) = true by simp [ha], State.regWrite_acts h]
  refine ⟨_, rfl, ?_⟩
  dsimp only
  split
  case h_1 =>
    split
    case isTrue =>
      by_cases mod : addr % 0x100000 % 64 = 0x14
      · have isMod : IsModAddr addr := ⟨⟨addr % 0x100000 / 64, by omega⟩, by dsimp only; omega⟩
        exact ⟨mod ▸ s.writeCtx_mod _ value, fun no => absurd isMod no⟩
      · exact both (s.writeCtx_silent _ value mod)
    case isFalse => exact both (.of_parts s ..)
  case h_2 | h_3 => split <;> exact both (.of_parts ..)
  case h_4 => exact both (s.writeMbox_silent ..)
  case h_5 =>
    split
    · exact both (s.writeTrc_silent ..)
    · exact both (.of_parts s ..)
  case h_6 =>
    split
    · exact both (s.writeMsix_silent ..)
    · exact both (.of_parts s ..)
  case h_7 => exact both (.of_parts ..)

/-- A function's write to a register of its context is `writeCtx` at the context and offset that the address names (R515). -/
theorem execRegisterWrite_ctx (h : s.acts) {f n o value : Nat} (hn : n < 4096) (hf : s.ctxFn n = f) (ho : o < 64) (h4 : o % 4 = 0) :
    execRegisterWrite f (0x300000 + 64 * n + o) value s = .next (s.writeCtx n o value) := by
  have block : (0x300000 + 64 * n + o) / 0x100000 = 3 := by omega
  have off : (0x300000 + 64 * n + o) % 0x100000 = 64 * n + o := by omega
  have ctx : (64 * n + o) / 64 = n := by omega
  have reg : (64 * n + o) % 64 = o := by omega
  have inside : 64 * n + o < 0x40000 := by omega
  have aligned : ((0x300000 + 64 * n + o) % 4 == 0) = true := by rw [beq_iff_eq]; omega
  rw [execRegisterWrite, aligned, State.regWrite_acts h]
  simp only [block, off, ctx, reg, hf, inside, true_and, if_true]

/-! The latches of the pins (R734, R735). -/

/-- PF0 releases the latch of SAFE_STATE_N, unless a cause arises with the clear (R734). -/
theorem execGlbSafeClear_acts (h : s.acts) (cause : Bool) :
    execGlbSafeClear 0 cause s = .next (if cause then s else s.setPwr { s.pwr with safeLow := false, safeCause := 0 }) :=
  State.regWrite_acts h

/-- PF0 releases FAULT_N after thermal stage 4 once the hottest junction is below 95 °C, and otherwise not (R735). -/
theorem execGlbFaultClear_acts (h : s.acts) :
    execGlbFaultClear 0 s = .next (if s.pwr.faultCause = 3 ∧ s.pwr.thermal.junction < 95 then
      s.setPwr { s.pwr with faultLow := false, faultCause := 0 } else s) :=
  State.regWrite_acts h

/-! The trace (R690, R721 to R723). -/

/-- While EN is 1 a write by PF0 sets EN and ignores the ring's size (R723). -/
theorem execTrcCtrlWrite_enabled (h : s.acts) (he : s.host.trace.en = true) (value : Nat) :
    execTrcCtrlWrite 0 value s = .next (s.setTrace { s.host.trace with en := bit value 31 }) := by
  rw [execTrcCtrlWrite, beq_self_eq_true, State.regWrite_acts h]
  simp [he]

/-- While EN is 0 a write by PF0 sets the ring's size; setting EN also sets the indices and the islands' counts to 0 (R723). -/
theorem execTrcCtrlWrite_disabled (h : s.acts) (he : s.host.trace.en = false) (value : Nat) :
    execTrcCtrlWrite 0 value s = .next (s.setTrace (if bit value 31 then
      { s.host.trace with en := true, ringLog2 := value % 32, tail := 0, head := 0, seq := [] }
      else { s.host.trace with en := false, ringLog2 := value % 32 })) := by
  rw [execTrcCtrlWrite, beq_self_eq_true, State.regWrite_acts h]
  cases hb : bit value 31 <;> simp [he]

theorem TracesAt.guard {point : Nat} (h : TracesAt s point) :
    (!s.host.trace.en || !tracePoint point || !bit (Tbl.get (0 : Word) s.host.trace.enable (point / 32)).toNat (point % 32) ||
      s.errs.halted) = false := by
  obtain ⟨runs, isPoint, enabled, live⟩ := h
  simp only [runs, isPoint, enabled, live, Bool.not_true, Bool.or_self]

/-- A write to host memory leaves device memory and power as they are. -/
theorem State.hostWrite_dmem_pwr (s : State) (f a : Nat) (bs : List Byte) (po : Bool) (tc : Nat) (data : Bool) :
    (s.hostWrite f a bs po tc data).dmem = s.dmem ∧ (s.hostWrite f a bs po tc data).pwr = s.pwr := by
  obtain ⟨_, _, e⟩ := s.hostWrite_rest f a bs po tc data
  rw [e]
  exact ⟨rfl, rfl⟩

/-- A record that finds its next hop or the ring full is counted, and dropped (R690, R722). -/
theorem execTraceRecordEmit_dropped {point : Nat} (h : TracesAt s point) (island f p : Nat) (args : List Word) {blocked : Bool}
    (hd : blocked = true ∨ s.traceBlocked = true ∨
      2 ^ s.host.trace.ringLog2 ≤ diff32 s.host.trace.tail.toNat s.host.trace.head.toNat) :
    execTraceRecordEmit point island f p args blocked s = .next (s.setTrace { s.host.trace.counted island with
      drops := if s.host.trace.drops = 0xFFFFFFFF then s.host.trace.drops else s.host.trace.drops + 1 }) := by
  have full : (blocked || s.traceBlocked ||
      decide (2 ^ s.host.trace.ringLog2 ≤ diff32 s.host.trace.tail.toNat s.host.trace.head.toNat)) = true := by
    simpa [or_assoc] using hd
  simp only [execTraceRecordEmit, h.guard, full, Bool.false_eq_true, if_false, if_true, Trace.counted]

/-- A record that finds room moves the ring's tail on, and writes host memory but neither device memory nor power (R722). -/
theorem execTraceRecordEmit_written {point : Nat} (h : TracesAt s point) (island f p : Nat) (args : List Word)
    (hb : s.traceBlocked = false)
    (hr : diff32 s.host.trace.tail.toNat s.host.trace.head.toNat < 2 ^ s.host.trace.ringLog2) :
    ∃ u, execTraceRecordEmit point island f p args false s = .next u ∧
      u.host.trace = { s.host.trace.counted island with tail := s.host.trace.tail + 1 } ∧ u.dmem = s.dmem ∧ u.pwr = s.pwr := by
  have room : (false || s.traceBlocked ||
      decide (2 ^ s.host.trace.ringLog2 ≤ diff32 s.host.trace.tail.toNat s.host.trace.head.toNat)) = false := by simp [hb, hr]
  simp only [execTraceRecordEmit, h.guard, room, Bool.false_eq_true, if_false]
  refine ⟨_, rfl, State.setTrace_trace .., ?_⟩
  rw [State.setTrace_dmem, State.setTrace_pwr]
  exact State.hostWrite_dmem_pwr (s.accountFn 0 4 32) ..

/-- Settles O57: each clause is the lemma of its command. -/
theorem registerAccess : Obligations.RegisterAccess := by
  intro s f
  refine ⟨?misaligned, ?noCounter, ?counter, ?read, ?ctx, ?write, ?latches, ?record⟩
  case misaligned =>
    rintro u h rfl
    exact ⟨execBar0MisalignedAccess_on h f true, execBar0MisalignedAccess_on h f false⟩
  case noCounter => exact fun addr h hc => execCounterLoRead_none h hc
  case counter => exact fun addr v h hc => execCounterLoRead_some h hc
  case read => exact fun addr h ha hc => execRcRegisterRead_on h ha hc
  case ctx =>
    intro n o off value h hf ho h4 hoff
    change execRegisterWrite f off.val value s = _
    rw [hoff]
    exact execRegisterWrite_ctx h n.isLt hf ho h4
  case write =>
    intro off value h ha
    obtain ⟨_, e, ⟨_, _, _, _, _, rfl⟩, quiet⟩ := execRegisterWrite_frame h f.val value.val ha
    exact ⟨_, e, rfl, rfl, rfl, rfl, rfl, rfl, rfl, fun no => quiet fun ⟨n, hn⟩ => no n hn⟩
  case latches =>
    intro h
    refine ⟨execGlbSafeClear_acts h false, execGlbSafeClear_acts h true, ?cool, ?hot, ?trace⟩
    case cool => exact fun hc hj => (execGlbFaultClear_acts h).trans (by rw [if_pos ⟨hc, hj⟩])
    case hot => exact fun hn => (execGlbFaultClear_acts h).trans (by rw [if_neg (by omega)])
    case trace =>
      rintro value _ rfl
      refine ⟨fun he => execTrcCtrlWrite_enabled h he _, fun he hb => ?_, fun he hb => ?_⟩
      · exact (execTrcCtrlWrite_disabled h he value).trans (by rw [if_pos hb])
      · exact (execTrcCtrlWrite_disabled h he value).trans (by rw [if_neg (by simp [hb])])
  case record =>
    rintro point island p args _ rfl runs isPoint enabled live
    have at_ : TracesAt s point := ⟨runs, isPoint, enabled, live⟩
    exact ⟨fun blocked hd => execTraceRecordEmit_dropped at_ island f p args hd,
      fun hb hr => execTraceRecordEmit_written at_ island f p args hb hr⟩

end Sys2Proof.Machine
end

section
/-!
PROOF. Wake matches, Rustle triggers and the timeouts of sessions (R59, R60, R477, R478, R485 to R488, R599): what each command does to
its group and to the queues.
-/
namespace Sys2Proof.Machine

/-- Where the session of a group starts once a candidate has matched: an open session keeps its start, a sealed group opens at the
candidate's unsealing point (R477, R478). -/
def AudGroup.openFrom (x : AudGroup) (c : Cand) : Nat :=
  match x.session with
  | some o => o.from_
  | none => x.unsealAt c.onset

/-- The session that a group has after a match (R477, R478). -/
def AudGroup.matchSession (x : AudGroup) (c : Cand) : Session :=
  { from_ := x.openFrom c, mask := audMask x.live, last := x.s }

/-- A wake record enters the queue, its event is counted and its Rustle trigger goes out (R485 to R488). -/
def State.queueWake (s : State) (owner : Nat) (raw : List Byte) : State :=
  let room := wakeRoom s.media.wakes
  s.setMedia { s.media with
    wakes := room.1 ++ [{ raw := raw, owner := owner, delivered := false }], wakesLost := s.media.wakesLost + room.2,
    eventNo := (s.media.eventNo + 1) % 65536, triggers := s.media.triggers ++ [{ owner := owner, record := raw, phrase := true }] }

variable {s : State}

theorem AudGroup.openFrom_sealed {x : AudGroup} (h : x.session = none) (c : Cand) : x.openFrom c = x.unsealAt c.onset := by
  simp [AudGroup.openFrom, h]

theorem AudGroup.openFrom_open {x : AudGroup} {o : Session} (h : x.session = some o) (c : Cand) : x.openFrom c = o.from_ := by
  simp [AudGroup.openFrom, h]

@[simp] theorem State.queueWake_group (s : State) (owner : Nat) (raw : List Byte) (g : Nat) :
    (s.queueWake owner raw).media.group g = s.media.group g := rfl

@[simp] theorem State.queueWake_eventNo (s : State) (owner : Nat) (raw : List Byte) :
    (s.queueWake owner raw).media.eventNo = (s.media.eventNo + 1) % 65536 := rfl

@[simp] theorem State.queueWake_triggers (s : State) (owner : Nat) (raw : List Byte) :
    (s.queueWake owner raw).media.triggers = s.media.triggers ++ [{ owner := owner, record := raw, phrase := true }] := rfl

/-- The queue ends with the new record, whichever record made room for it (R488). -/
@[simp] theorem State.queueWake_getLast? (s : State) (owner : Nat) (raw : List Byte) :
    (s.queueWake owner raw).media.wakes.getLast? = some { raw := raw, owner := owner, delivered := false } :=
  List.getLast?_concat ..

/-- A matched candidate ends: its group opens and its wake record is queued (R478, R485, R487). -/
theorem execWakeMatch_matched {g : Nat} {c : Cand} (hc : (s.media.group g).cand = some c) (hm : c.matched = true) :
    execWakeMatch g s =
      let x := s.media.group g
      .next ((s.setGroup g { x with cand := none, session := some (x.matchSession c) }).queueWake (audOwner x.wake)
        (s.wakeRecord g x c (x.openFrom c))) := by
  unfold execWakeMatch
  dsimp only
  rw [hc]
  dsimp only
  rw [hm]
  rfl

/-- The oldest trigger leaves its queue and its event is due (R60, R599). -/
theorem execRustleTrigger_cons {tr : Trigger} {rest : List Trigger} (h : s.media.triggers = tr :: rest) :
    execRustleTrigger s =
      .next ((s.setMedia { s.media with triggers := rest, due := s.media.due ++ [tr] }).deliverWakes.rustle tr.owner) := by
  rw [execRustleTrigger, h]

/-- A session that closes without a status seals its group and changes nothing else (R477). -/
theorem State.closeSession_none (s : State) (g : Nat) :
    s.closeSession g none = s.setGroup g { s.media.group g with session := none } := by
  unfold State.closeSession
  dsimp only
  cases (s.media.group g).session with
  | none => rfl
  | some o => rfl

/-- A session whose timeout has passed closes (R477). -/
theorem execSessionTimeout_passed {g : Nat} {o : Session} (ho : (s.media.group g).session = some o)
    (ht : o.last + audTimeout (s.media.group g).wake * 16000 ≤ (s.media.group g).s) :
    execSessionTimeout g s = .next (s.closeSession g none) := by
  simp only [execSessionTimeout, ho, if_pos ht]

/-- Settles O48: each clause is the lemma of its command. -/
theorem wakesAndSessions : Obligations.WakesAndSessions := by
  intro s g
  refine ⟨?wakeMatch, ?rustleTrigger, ?sessionTimeout⟩
  case wakeMatch =>
    rintro c x rfl hc hm
    refine ⟨_, (s.media.group g).matchSession c, execWakeMatch_matched hc hm, ?cand, ?session, rfl, rfl,
      fun sealed => AudGroup.openFrom_sealed sealed c, fun _ opened => AudGroup.openFrom_open opened c,
      State.queueWake_eventNo .., _, State.queueWake_getLast? .., rfl, rfl, State.queueWake_triggers ..⟩
    case cand | session => rw [State.queueWake_group, State.group_setGroup_same]
  case rustleTrigger =>
    rintro tr rest _ h rfl
    exact execRustleTrigger_cons h
  case sessionTimeout =>
    intro o ho ht
    have closes := execSessionTimeout_passed ho ht
    rw [State.closeSession_none] at closes
    refine ⟨_, closes, ?closed, ?counter⟩
    case closed | counter => rw [State.group_setGroup_same]

end Sys2Proof.Machine
end

section
/-!
PROOF. Integer accumulation (R137 to R139): one saturating addition, a slot that is added into step by step, and the exact sum that a
position holds when nothing clamps.
-/
namespace Sys2Proof.Machine

/-- The value of one saturating INT32 addition (R139). -/
def clamp32 (v : Int) : Int := max (-(2 ^ 31)) (min v (2 ^ 31 - 1))

/-- One step's sum added into a slot: the clamped value, and whether this or an earlier addition clamped (R139). -/
def satStep (acc : Int × Bool) (p : Int) : Int × Bool := ((sat32 (acc.1 + p)).1, acc.2 || (sat32 (acc.1 + p)).2)

/-! One addition. -/

theorem sat32_fst (v : Int) : (sat32 v).1 = clamp32 v := by
  unfold sat32 clampInt clamp32
  dsimp only
  split_ifs <;> omega

theorem sat32_snd (v : Int) : (sat32 v).2 = decide ((sat32 v).1 ≠ v) := rfl

/-- An addition clamps exactly when its sum lies outside INT32. -/
theorem sat32_snd_iff (v : Int) : (sat32 v).2 = true ↔ v < -(2 ^ 31) ∨ 2 ^ 31 - 1 < v := by
  rw [sat32_snd, sat32_fst, clamp32, decide_eq_true_iff]
  omega

theorem sat32_fst_of_exact {v : Int} (h : (sat32 v).2 = false) : (sat32 v).1 = v := by
  simpa [sat32_snd] using h

theorem clamp32_mem (v : Int) : -(2 ^ 31) ≤ clamp32 v ∧ clamp32 v ≤ 2 ^ 31 - 1 := by
  unfold clamp32
  omega

/-! Additions one after another. -/

/-- Each addition goes on from the clamped value of the one before. -/
theorem foldl_satStep_fst (l : List Int) (acc : Int × Bool) :
    (l.foldl satStep acc).1 = l.foldl (fun v p => clamp32 (v + p)) acc.1 := by
  induction l generalizing acc with
  | nil => rfl
  | cons p l ih => rw [List.foldl_cons, List.foldl_cons, ih, satStep, sat32_fst]

/-- Additions of which none has clamped leave the exact sum; none had clamped before them either. -/
theorem foldl_satStep_exact {l : List Int} {acc : Int × Bool} (h : (l.foldl satStep acc).2 = false) :
    acc.2 = false ∧ (l.foldl satStep acc).1 = acc.1 + l.sum := by
  induction l generalizing acc with
  | nil => exact ⟨h, by simp⟩
  | cons p l ih =>
    obtain ⟨before, sum⟩ := ih h
    obtain ⟨earlier, now⟩ := Bool.or_eq_false_iff.1 before
    refine ⟨earlier, ?_⟩
    rw [List.foldl_cons, sum, satStep, sat32_fst_of_exact now, List.sum_cons, Int.add_assoc]

/-! A position of an integer MMA. -/

variable (s : State) (x : MmaArgs) (m n : Nat) (old : Int)

/-- 8×8×32 and 4×4×64 add one total into the slot (R138). -/
theorem MmaArgs.intCell_once {x : MmaArgs} (h : x.shape = 2 ∨ x.shape = 4) :
    x.intCell s m n old = sat32 (old + ((List.range x.steps).map (x.intStep s m n)).foldl (· + ·) 0) := if_pos h

/-- The other shapes add one sum per step (Table 3.3). -/
theorem MmaArgs.intCell_steps {x : MmaArgs} (h : ¬ (x.shape = 2 ∨ x.shape = 4)) :
    x.intCell s m n old = ((List.range x.steps).map (x.intStep s m n)).foldl satStep (old, false) := if_neg h

theorem MmaArgs.intCell_steps_fst {x : MmaArgs} (h : ¬ (x.shape = 2 ∨ x.shape = 4)) :
    (x.intCell s m n old).1 = ((List.range x.steps).map (x.intStep s m n)).foldl (fun v p => clamp32 (v + p)) old := by
  rw [intCell_steps s m n old h, foldl_satStep_fst]

/-- A slot that enters in INT32 stays in INT32 (R139). -/
theorem MmaArgs.intCell_mem (h : -(2 ^ 31) ≤ old ∧ old ≤ 2 ^ 31 - 1) :
    -(2 ^ 31) ≤ (x.intCell s m n old).1 ∧ (x.intCell s m n old).1 ≤ 2 ^ 31 - 1 := by
  by_cases once : x.shape = 2 ∨ x.shape = 4
  · rw [intCell_once s m n old once, sat32_fst]
    exact clamp32_mem _
  · rw [intCell_steps_fst s m n old once]
    exact foldl_keeps (fun v : Int => -(2 ^ 31) ≤ v ∧ v ≤ 2 ^ 31 - 1) _ (fun v p _ => clamp32_mem (v + p)) _ h

/-- A position at which no addition clamps holds its entering value plus the sums of its steps, in every shape. -/
theorem MmaArgs.intCell_exact {s : State} {x : MmaArgs} {m n : Nat} {old : Int} (h : (x.intCell s m n old).2 = false) :
    (x.intCell s m n old).1 = old + ((List.range x.steps).map (x.intStep s m n)).sum := by
  by_cases once : x.shape = 2 ∨ x.shape = 4
  · rw [intCell_once s m n old once] at h ⊢
    rw [sat32_fst_of_exact h, List.sum_eq_foldl]
  · rw [intCell_steps s m n old once] at h ⊢
    exact (foldl_satStep_exact h).2

/-! The steps of an MMA cover its K. -/

theorem rangeFrom_add (lo a b : Nat) : rangeFrom lo (a + b) = rangeFrom lo a ++ rangeFrom (lo + a) b := by
  simp only [rangeFrom, List.range_add, List.map_append, List.map_map, List.append_cancel_left_eq]
  exact List.map_congr_left fun j _ => (Nat.add_assoc lo a j).symm

/-- The steps one after another go through K in ascending order. -/
theorem MmaArgs.flatMap_stepKs (j : Nat) : (List.range j).flatMap x.stepKs = rangeFrom x.k0 (j * x.kp) := by
  induction j with
  | zero => rw [Nat.zero_mul]; rfl
  | succ j ih => rw [List.range_succ, List.flatMap_append, ih, List.flatMap_singleton, stepKs, Nat.succ_mul, rangeFrom_add]

theorem foldl_add_eq_sum_map (f : Nat → Int) (l : List Nat) : l.foldl (fun acc k => acc + f k) 0 = (l.map f).sum := by
  rw [List.sum_eq_foldl, List.foldl_map]

/-- The sums of the steps add up to the sum of the products over all K (R137, R138). -/
theorem MmaArgs.sum_intStep {x : MmaArgs} (h : x.dimK % x.kp = 0) : ((List.range x.steps).map (x.intStep s m n)).sum =
    (rangeFrom x.k0 x.dimK).foldl (fun acc k => acc + x.intTerm s (x.m0 + m) (x.n0 + n) k) 0 := by
  have step : x.intStep s m n = fun t => ((x.stepKs t).map (x.intTerm s (x.m0 + m) (x.n0 + n))).sum :=
    funext fun _ => foldl_add_eq_sum_map ..
  have covered : x.steps * x.kp = x.dimK := Nat.div_mul_cancel (Nat.dvd_of_mod_eq_zero h)
  rw [step, foldl_add_eq_sum_map, ← covered, ← flatMap_stepKs, List.map_flatMap, List.flatMap_def, List.sum_flatten, List.map_map]
  rfl

/-- Settles O15: the sums of the steps, none of which clamps, add up to the sum over all K. -/
theorem integerCellIsExact : Obligations.IntegerCellIsExact := by
  intro s x m n old _ whole unclamped
  rw [MmaArgs.intCell_exact unclamped, MmaArgs.sum_intStep s m n whole]

/-- Settles O16: each clause is a lemma above. -/
theorem accumulatorsSaturate : Obligations.AccumulatorsSaturate := by
  refine ⟨fun v => ⟨sat32_fst v, sat32_snd_iff v⟩, ?range, ?once, ?steps⟩
  case range => exact fun s x m n old lo hi => x.intCell_mem s m n old ⟨lo, hi⟩
  case once =>
    intro s x m n old shape
    rw [MmaArgs.intCell_once s m n old shape, sat32_fst, clamp32]
  case steps => exact fun s x m n old not2 not4 => MmaArgs.intCell_steps_fst s m n old (not_or.2 ⟨not2, not4⟩)

end Sys2Proof.Machine
end

section
/-!
PROOF. Descriptors that start, end and fail (R217, R343 to R346, R356, R528): the choice of the firmware for a partition, the record of
one that has ended and the handling of one that failed.
-/
namespace Sys2Proof.Machine

/-- What a partition's dispatch has chosen: the context, its descriptor and the waiting list that it was picked from, a REAL_TIME one
before a NORMAL one (R344). -/
def State.Chooses (s : State) (p n : Nat) (d : Desc) (l : List (Nat × Desc)) : Prop :=
  (s.pick (s.rtCandidates p) [] = some (n, d) ∧ l = s.rtCandidates p) ∨
    (s.pick (s.rtCandidates p) [] = none ∧ s.pick (s.normalCandidates p) [] = some (n, d) ∧ l = s.normalCandidates p)

/-- The state in which a chosen context has used its turn; a REAL_TIME one has none (R344). -/
def State.turned (s : State) (p n : Nat) : State := if (s.ctx n).realtime then s else s.takeTurn p n

/-- What a dispatch makes of a descriptor that it has chosen from the waiting list `l` (R343, R344, R703). -/
def State.dispatchOf (s : State) (p n : Nat) (d : Desc) (l : List (Nat × Desc)) : Res :=
  if s.namesRetired d.raw then .next (((s.turned p n).closeReservation n d.idx).endDesc n d.idx .eCoreRetired)
  else
    let t := if d.phase == .queued then s.ledgerTest n d.idx else s
    match t.desc n d.idx with
    | some d' =>
      if t.startable d' (blockedBefore l n) then .next (t.startDesc n d')
      else if d'.phase == .ended then .next (if d.phase == .queued then (s.turned p n).ledgerTest n d.idx else s.turned p n)
      else .next t
    | none => .next t

/-- The contexts hold the same descriptors in both states and are halted alike. -/
structure SameQueues (s t : State) : Prop where
  descs (n : Nat) : (t.ctx n).descs = (s.ctx n).descs
  halted (n : Nat) : (t.ctx n).halted = (s.ctx n).halted

/-- A descriptor that ends with a failure, and whose context halts with it (R356, R358). -/
def State.failDesc (s : State) (n idx : Nat) (st : Status) (detail : Nat) : State :=
  (s.setDesc n idx (fun x => { x with phase := .ended, fault := true, status := st, detail0 := detail, detail1 := 0 })).haltCtx n st

/-- The cores and moves that work for a descriptor are stopped (Table 8.5 steps 3 and 4). -/
def State.dropDesc (s : State) (n idx : Nat) : State :=
  let t := (s.descCores n idx).foldl State.dropCore s
  ((t.resumeCores n idx).foldl State.dropResume t).cancelMoves n idx

variable {s t u : State} {p n idx : Nat} {d d' : Desc} {l : List (Nat × Desc)}

/-! Dispatch (R343, R344). -/

/-- A dispatch that has chosen a descriptor acts on it alone. -/
theorem execDescriptorDispatch_chosen {part : Part} (live : s.errs.halted = false) (hp : s.part p = some part)
    (hc : part.clearing = false) (hf : s.pwr.fw.running = true) (h : s.Chooses p n d l) :
    execDescriptorDispatch p s = s.dispatchOf p n d l := by
  have acts : (part.clearing || s.errs.halted || !s.pwr.fw.running) = false := by rw [hc, live, hf]; rfl
  rw [execDescriptorDispatch, hp]
  dsimp only
  rw [acts]
  obtain ⟨picked, rfl⟩ | ⟨idle, picked, rfl⟩ := h
  · rw [picked]
    rfl
  · rw [idle, picked]
    rfl

/-- A descriptor that names a retired core ends with its status, its turn used (R344, R703). -/
theorem State.dispatchOf_retired (h : s.namesRetired d.raw = true) (l : List (Nat × Desc)) :
    s.dispatchOf p n d l = .next (((s.turned p n).closeReservation n d.idx).endDesc n d.idx .eCoreRetired) := if_pos h

/-- An admitted descriptor whose wait and cores are ready starts (R343). -/
theorem State.dispatchOf_admitted (h : s.namesRetired d.raw = false) (hd : s.desc n d.idx = some d) (ha : d.phase = .admitted)
    (hs : s.startable d (blockedBefore l n) = true) : s.dispatchOf p n d l = .next (s.startDesc n d) := by
  simp [dispatchOf, h, ha, hd, hs]

/-- A queued descriptor is tested by the ledger first; what the test made of it decides (R592). -/
theorem State.dispatchOf_queued (h : s.namesRetired d.raw = false) (hq : d.phase = .queued)
    (hd : (s.ledgerTest n d.idx).desc n d.idx = some d') : s.dispatchOf p n d l =
      .next (if (s.ledgerTest n d.idx).startable d' (blockedBefore l n) then (s.ledgerTest n d.idx).startDesc n d'
        else if d'.phase = .ended then (s.turned p n).ledgerTest n d.idx else s.ledgerTest n d.idx) := by
  simp only [dispatchOf, h, hq, hd, beq_self_eq_true, beq_iff_eq, Bool.false_eq_true, if_false, if_true]
  split
  · rfl
  · split <;> rfl

/-! Completion (R217, R528). -/

theorem execDescriptorComplete_ended (live : s.errs.halted = false) (hd : s.desc n idx = some d) (he : d.phase = .ended) (energy : Nat) :
    execDescriptorComplete n idx energy s = .next (s.finishDesc n d d.status energy).checkPending := by
  simp [execDescriptorComplete, hd, live, he]

/-- A compute descriptor whose every core has ended takes its outcome as its status. -/
theorem execDescriptorComplete_computed (live : s.errs.halted = false) (hd : s.desc n idx = some d) (he : d.phase ≠ .ended)
    (hc : s.computeDone n d = true) (energy : Nat) : execDescriptorComplete n idx energy s = .next (s.finishDesc n
      { d with detail0 := if d.outcome = .okEmpty then d.detail0 else 0 } d.outcome energy).checkPending := by
  simp [execDescriptorComplete, hd, live, he, hc]

/-- The outcome of a compute descriptor: non-finite before saturated before empty (R168, R217). -/
theorem Desc.outcome_eq (d : Desc) : d.outcome = if d.accNonfin = true then .okAccNonfinite else if d.accSat = true then .okAccSat
    else if d.status = .okEmpty then .okEmpty else .ok := by
  unfold Desc.outcome tileOutcome
  cases d.accNonfin <;> cases d.accSat <;> rfl

/-! What leaves the queues of the contexts as they are. -/

theorem SameQueues.refl (s : State) : SameQueues s s := ⟨fun _ => rfl, fun _ => rfl⟩

theorem SameQueues.trans (h : SameQueues s t) (k : SameQueues t u) : SameQueues s u :=
  ⟨fun n => (k.descs n).trans (h.descs n), fun n => (k.halted n).trans (h.halted n)⟩

theorem SameQueues.desc_eq (h : SameQueues s t) (n idx : Nat) : t.desc n idx = s.desc n idx := by
  rw [State.desc, State.desc, h.descs]

theorem SameQueues.of_ctxs (h : t.work.ctxs = s.work.ctxs) : SameQueues s t := by
  have same (n : Nat) : t.ctx n = s.ctx n := by rw [State.ctx, State.ctx, h]
  exact ⟨fun n => by rw [same], fun n => by rw [same]⟩

theorem SameQueues.of_work (h : t.work = s.work) : SameQueues s t := .of_ctxs (by rw [h])

/-- Steps that each keep the queues keep them together. -/
theorem SameQueues.foldl {α : Type} {f : State → α → State} (h : ∀ s a, SameQueues s (f s a)) (l : List α) (s : State) :
    SameQueues s (l.foldl f s) :=
  foldl_keeps (SameQueues s) f (fun _ a k => k.trans (h _ a)) l (.refl s)

/-- Another pending count of a context is no change of its queue. -/
theorem State.setCtx_pending_sameQueues (s : State) (n k : Nat) : SameQueues s (s.setCtx n { s.ctx n with pending := k }) := by
  constructor <;>
  · intro m
    rw [State.ctx_setCtx]
    split
    case isTrue same => rw [same]
    case isFalse => rfl

/-- A message resets pending counts (R513). -/
theorem State.sendMsg_sameQueues (s : State) (f vec : Nat) : SameQueues s (s.sendMsg f vec) := by
  unfold State.sendMsg
  dsimp only
  split
  · exact .of_work rfl
  · obtain ⟨h, o, e⟩ := s.toHost_rest f 0 4 (.msix f vec)
    refine .trans (.of_work (by rw [e])) (.foldl (fun s m => ?_) _ _)
    split
    · exact s.setCtx_pending_sameQueues m 0
    · exact .refl s

theorem State.event_sameQueues (s : State) (f : Nat) (code : Status) (pl : List Byte) : SameQueues s (s.event f code pl) := by
  obtain ⟨x, g, e⟩ := s.event_rest f code pl false
  exact .of_work (by rw [e])

theorem State.signal_work (s : State) (i add p g : Nat) : (s.signal i add p g).work = s.work := by
  obtain ⟨u, e⟩ := s.signal_rest i add p g
  rw [e]

theorem State.logWrite_work (s : State) (level source fn part : Nat) (code : Status) :
    (s.logWrite level source fn part code).work = s.work := by
  unfold State.logWrite
  dsimp only
  split <;> rfl

/-! Stopping a failed descriptor's cores and moves (Table 8.5 steps 3 and 4). -/

theorem State.undefine_work (s : State) (a n : Nat) : (s.undefine a n).work = s.work := by
  unfold State.undefine
  split <;> rfl

theorem State.yieldSignal_work (s : State) (p : Nat) : (s.yieldSignal p).work = s.work := by
  unfold State.yieldSignal
  split
  · exact State.signal_work ..
  · rfl

theorem State.yieldOpen_work (s : State) (n : Nat) : (s.yieldOpen n).work = s.work := by
  unfold State.yieldOpen
  split
  · split
    · exact State.yieldSignal_work ..
    · rfl
  · rfl

theorem State.modeUp_work (s : State) (n : Nat) : (s.modeUp n).work = s.work := by
  unfold State.modeUp
  split <;> rfl

theorem State.undefineBody_work (s : State) (n : Nat) (l : List (Nat × Nat)) : (s.undefineBody n l).work = s.work :=
  foldl_keeps (fun t : State => t.work = s.work) _ (fun t r h => (t.undefine_work (coreBase n + r.1) r.2).trans h) l rfl

theorem State.dropCore_work (s : State) (n : Nat) : (s.dropCore n).work = s.work :=
  calc (s.dropCore n).work = (((s.yieldOpen n).modeUp n).undefineBody n (s.core n).wrote).work := rfl
    _ = s.work := by rw [undefineBody_work, modeUp_work, yieldOpen_work]

theorem State.dropResume_work (s : State) (n : Nat) : (s.dropResume n).work = s.work := rfl

theorem State.cancelMoves_sameQueues (s : State) (n idx : Nat) : SameQueues s (s.cancelMoves n idx) :=
  .foldl (fun s _ => .of_work (s.setCluster_work ..)) _ s

theorem State.dropDesc_sameQueues (s : State) (n idx : Nat) : SameQueues s (s.dropDesc n idx) := by
  have cores : SameQueues s ((s.descCores n idx).foldl dropCore s) := .foldl (fun s m => .of_work (s.dropCore_work m)) _ s
  have resumes (t : State) : SameQueues t ((t.resumeCores n idx).foldl dropResume t) :=
    .foldl (fun s m => .of_work (s.dropResume_work m)) _ t
  exact (cores.trans (resumes _)).trans (State.cancelMoves_sameQueues ..)

/-! Telling of the failure (R358, R384, R385). -/

theorem State.driveSafe_work (s : State) (c : Nat) : (s.driveSafe c).work = s.work := by
  obtain ⟨a, b, e⟩ := s.driveSafe_rest c
  rw [e]

theorem State.eventBoth_work (s : State) (f : Nat) (code : Status) (pl : List Byte) : (s.eventBoth f code pl).work = s.work := by
  obtain ⟨x, g, e⟩ := s.eventBoth_rest f code pl
  rw [e]

theorem State.pairStop_sameQueues (s : State) (i : Nat) (st : Status) (detail : List Byte) : SameQueues s (s.pairStop i st detail) := by
  unfold State.pairStop
  split
  · exact .of_ctxs (by rw [eventBoth_work, driveSafe_work])
  · exact .refl s

theorem State.pairsFail_sameQueues (s : State) (p : Nat) (st : Status) : SameQueues s (s.pairsFail p st) := by
  refine .foldl (fun s i => ?_) _ s
  split
  · split
    · exact s.pairStop_sameQueues ..
    · exact .refl s
  · exact .refl s

theorem State.noteCause_sameQueues (s : State) (p c : Nat) : SameQueues s (s.noteCause p c) := by
  unfold State.noteCause
  split
  · exact .refl s
  · exact .of_ctxs rfl

theorem State.stallUpdate_sameQueues (before s : State) (p : Nat) : SameQueues s (before.stallUpdate p s) := by
  unfold State.stallUpdate
  split
  case h_1 =>
    split
    · exact s.noteCause_sameQueues ..
    · dsimp only
      split <;> exact .of_ctxs rfl
  case h_2 =>
    split
    · refine .trans ?_ (State.noteCause_sameQueues ..)
      exact .of_ctxs rfl
    · exact .refl s

/-! The descriptor and its context afterwards (R356, R358). -/

/-- What a halt tells its function leaves the queues alone: the halted mark is the only change. -/
theorem State.haltCtx_sameQueues (s : State) (n : Nat) (st : Status) :
    SameQueues (s.setCtx n { s.ctx n with halted := true }) (s.haltCtx n st) :=
  (State.event_sameQueues ..).trans (State.sendMsg_sameQueues ..)

theorem State.desc_setDesc_same (s : State) (n idx : Nat) {f : Desc → Desc} (h : ∀ d, (f d).idx = d.idx) :
    (s.setDesc n idx f).desc n idx = (s.desc n idx).map f := by
  have found (d : Desc) : ((if d.idx = idx then f d else d).idx == idx) = (d.idx == idx) := by
    split
    · rw [h]
    · rfl
  rw [State.desc, State.setDesc, State.ctx_setCtx_same, State.desc, List.find?_map]
  simp only [Function.comp_def, found]
  cases e : (s.ctx n).descs.find? (fun d => d.idx == idx) with
  | none => rfl
  | some d =>
    have named := List.find?_some e
    exact congrArg some (if_pos (beq_iff_eq.1 named))

theorem State.failDesc_halted (s : State) (n idx : Nat) (st : Status) (detail : Nat) :
    ((s.failDesc n idx st detail).ctx n).halted = true := by
  rw [State.failDesc, (State.haltCtx_sameQueues ..).halted, State.ctx_setCtx_same]

theorem State.failDesc_desc (s : State) (n idx : Nat) (st : Status) (detail : Nat) : (s.failDesc n idx st detail).desc n idx =
    (s.desc n idx).map (fun x => { x with phase := .ended, fault := true, status := st, detail0 := detail, detail1 := 0 }) := by
  rw [State.failDesc, (State.haltCtx_sameQueues ..).desc_eq, State.desc, State.ctx_setCtx_same]
  exact s.desc_setDesc_same n idx fun _ => rfl

/-! The fault handler (R356). -/

/-- While a core has its tile to finish, the handler asks every core of the descriptor to stop at its next boundary. -/
theorem State.handleFault_midTile (live : s.errs.halted = false) (hd : s.desc n idx = some d) (hr : d.phase = .running)
    {cause : Status × Nat} (hc : s.faultCause n d = some cause)
    (hm : ∃ m ∈ s.descCores n idx, (s.core m).midTile = true ∧ s.heldAtBody m = false) :
    s.handleFault n idx = (s.descCores n idx).foldl (fun s m => s.setCore m { s.core m with stopReq := true }) s := by
  have busy : (s.descCores n idx).any (fun m => (s.core m).midTile && !s.heldAtBody m) = true := by simpa using hm
  simp only [handleFault, hd, hc, hr, live, busy, ne_eq, not_true_eq_false, Bool.false_eq_true, or_self, if_false, if_true]

/-- Once no core has a tile to finish, its cores and moves are stopped and it fails with its cause; the log, the signal and the pairs that
tell of it change no queue. -/
theorem State.handleFault_stopped (live : s.errs.halted = false) (hd : s.desc n idx = some d) (hr : d.phase = .running)
    {st : Status} {detail : Nat} (hc : s.faultCause n d = some (st, detail))
    (hm : ∀ m ∈ s.descCores n idx, (s.core m).midTile = true → s.heldAtBody m = true) :
    SameQueues ((s.dropDesc n idx).failDesc n idx st detail) (s.handleFault n idx) := by
  have idle : (s.descCores n idx).any (fun m => (s.core m).midTile && !s.heldAtBody m) = false := by simpa using hm
  have runs : ¬ (d.phase ≠ .running ∨ s.errs.halted = true) := by simp [hr, live]
  rw [handleFault, hd]
  dsimp only
  rw [hc]
  dsimp only
  rw [if_neg runs, idle, if_neg Bool.false_ne_true]
  refine .trans ?_ ((State.pairsFail_sameQueues ..).trans (State.stallUpdate_sameQueues ..))
  split
  · exact .of_work ((State.signal_work ..).trans (State.logWrite_work ..))
  · exact .of_work (State.logWrite_work ..)

/-- A failed descriptor ends with its cause, and its context is halted (R356, R358). -/
theorem State.handleFault_failed (live : s.errs.halted = false) (hd : s.desc n idx = some d) (hr : d.phase = .running)
    {st : Status} {detail : Nat} (hc : s.faultCause n d = some (st, detail))
    (hm : ∀ m ∈ s.descCores n idx, (s.core m).midTile = true → s.heldAtBody m = true) :
    ((s.handleFault n idx).ctx n).halted = true ∧ (s.handleFault n idx).desc n idx =
      some { d with phase := .ended, fault := true, status := st, detail0 := detail, detail1 := 0 } := by
  have told := handleFault_stopped live hd hr hc hm
  constructor
  · rw [told.halted, failDesc_halted]
  · rw [told.desc_eq, failDesc_desc, (s.dropDesc_sameQueues n idx).desc_eq, hd, Option.map_some]

/-- Settles O36: each clause is the lemma of its command. -/
theorem descriptorsStartEndAndFail : Obligations.DescriptorsStartEndAndFail := by
  intro s live
  refine ⟨?dispatch, ?complete, ?fault⟩
  case dispatch =>
    rintro p part n d l hp hc hf chosen _ rfl
    have acts : exec (.descriptorDispatch p) s = s.dispatchOf p n d l := execDescriptorDispatch_chosen live hp hc hf chosen
    rw [acts]
    refine ⟨?retired, ?admitted, ?queued⟩
    case retired => exact fun h => State.dispatchOf_retired h l
    case admitted => exact State.dispatchOf_admitted
    case queued =>
      rintro _ d' h hq rfl hd
      rw [State.dispatchOf_queued h hq hd]
      refine ⟨fun starts => by rw [if_pos starts], fun waits => ?_⟩
      rw [if_neg (by simp [waits])]
      exact ⟨fun still => by rw [if_neg still], fun ended => by rw [if_pos ended]; rfl⟩
  case complete =>
    rintro n idx energy d st hd
    refine ⟨fun he => execDescriptorComplete_ended live hd he energy, fun he hc hst => ?_⟩
    rw [← d.outcome_eq] at hst
    subst hst
    exact execDescriptorComplete_computed live hd he hc energy
  case fault =>
    rintro n idx d st detail hd hr hc
    refine ⟨fun hm => congrArg _ (State.handleFault_midTile live hd hr hc hm), fun hm => ?_⟩
    obtain ⟨halted, failed⟩ := State.handleFault_failed live hd hr hc hm
    refine ⟨_, rfl, halted, fun d' hd' => ?_, by rw [failed]; rfl⟩
    obtain rfl := Option.some.inj (failed.symm.trans hd')
    exact ⟨rfl, rfl, rfl⟩

end Sys2Proof.Machine
end

section
/-!
PROOF. Sync objects (R194 to R201, R527, R785): what a new value does to its waiters, and what the commands on objects do.
-/
namespace Sys2Proof.Machine

variable {s : State}

/-! A new value and its waiters (R198). -/

/-- Updating the entry of each key of a list by a function that twice applied does what it does once changes the listed entries so, and no
other. `get` and `set` are an accessor of a state and its update. -/
theorem foldl_update_get {σ α : Type} {get : σ → Nat → α} {set : σ → Nat → α → σ} {f : α → α}
    (get_set : ∀ s n m a, get (set s n a) m = if m = n then a else get s m) (idem : ∀ a, f (f a) = f a) (keys : List Nat) (s : σ) (m : Nat) :
    get (keys.foldl (fun s n => set s n (f (get s n))) s) m = if m ∈ keys then f (get s m) else get s m := by
  induction keys generalizing s with
  | nil => rfl
  | cons n keys ih =>
    rw [List.foldl_cons, ih, get_set]
    by_cases here : m = n
    · subst here
      simp [idem]
    · simp [here]

theorem Tbl.find_eq_none_of_not_mem_keys {α : Type} {t : Tbl α} {n : Nat} (h : n ∉ Tbl.keys t) : Tbl.find t n = none := by
  cases e : Tbl.find t n with
  | none => rfl
  | some v => exact absurd (Tbl.mem_keys.2 ⟨v, Tbl.mem_of_find e⟩) h

/-- A key that a table does not list reads as the default. -/
theorem Tbl.get_of_not_mem_keys {α : Type} {d : α} {t : Tbl α} {n : Nat} (h : n ∉ Tbl.keys t) : Tbl.get d t n = d := by
  rw [Tbl.get, Tbl.find_eq_none_of_not_mem_keys h, Option.getD_none]

theorem Core.wake_met {c : Core} {w : SyncWait} {v : Word} (hr : c.run = .waiting w) (hv : w.holds v = true) :
    c.wake w.sync v = { c with run := .woken } := by
  simp [Core.wake, hr, hv]

theorem Core.wake_unmet {c : Core} {i : Nat} {w : SyncWait} {v : Word} (hr : c.run = .waiting w) (h : w.sync ≠ i ∨ w.holds v = false) :
    c.wake i v = c := by
  have unmet : ¬ (w.sync = i ∧ w.holds v = true) := by
    rintro ⟨named, holds⟩
    simp [named, holds] at h
  simp [Core.wake, hr, unmet]

theorem Core.wake_not_waiting {c : Core} (i : Nat) (v : Word) (h : ∀ w, c.run ≠ .waiting w) : c.wake i v = c := by
  unfold Core.wake
  split
  case h_1 w e => exact absurd e (h w)
  case h_2 => rfl

/-- A woken core sees no further value. -/
theorem Core.wake_wake (c : Core) (i : Nat) (v : Word) : (c.wake i v).wake i v = c.wake i v := by
  by_cases waits : ∃ w, c.run = .waiting w ∧ w.sync = i ∧ w.holds v = true
  · obtain ⟨w, hr, rfl, hv⟩ := waits
    rw [Core.wake_met hr hv]
    exact Core.wake_not_waiting _ _ (fun _ => nofun)
  · have stands : c.wake i v = c := by
      unfold Core.wake
      split
      case h_1 w e => exact if_neg (fun met => waits ⟨w, e, met⟩)
      case h_2 => rfl
    rw [stands, stands]

theorem WaitSet.see_see (w : WaitSet) (i : Nat) (v : Word) : (w.see i v).see i v = w.see i v := by
  unfold WaitSet.see
  split
  case isTrue => simp
  case isFalse => simp

/-- The watches of a cluster evaluated against a new value of an object (R785). -/
def Cluster.see (c : Cluster) (i : Nat) (v : Word) : Cluster := { c with waitSets := c.waitSets.map (fun w => w.see i v) }

theorem Cluster.see_see (c : Cluster) (i : Nat) (v : Word) : (c.see i v).see i v = c.see i v := by
  simp [Cluster.see, WaitSet.see_see]

/-- The descriptors of a context evaluated against a new value of an object (R527). -/
def Ctx.see (c : Ctx) (i : Nat) (v : Word) : Ctx := { c with descs := c.descs.map (fun d => d.see i v) }

/-- A fold of steps that each leave a part of the state alone leaves it alone. -/
theorem foldl_frame {σ α π : Type} (part : σ → π) (f : σ → α → σ) (h : ∀ s a, part (f s a) = part s) (l : List α) (s : σ) :
    part (l.foldl f s) = part s :=
  foldl_keeps (fun t => part t = part s) f (fun t a k => (h t a).trans k) l rfl

/-! The three passes of an evaluation: over the cores, the clusters and the contexts. -/

def State.wakeCores (s : State) (i : Nat) (v : Word) : State :=
  (Tbl.keys s.cpu.cores).foldl (fun s n => s.setCore n ((s.core n).wake i v)) s

def State.seeClusters (s : State) (i : Nat) (v : Word) : State :=
  (Tbl.keys s.cpu.clusters).foldl (fun s k => s.setCluster k ((s.cluster k).see i v)) s

def State.seeCtxs (s : State) (i : Nat) (v : Word) : State :=
  (Tbl.keys s.work.ctxs).foldl (fun s n => s.setCtx n ((s.ctx n).see i v)) s

theorem State.evalWaiters_eq (s : State) (i : Nat) (v : Word) :
    s.evalWaiters i v = ((s.wakeCores i v).seeClusters i v).seeCtxs i v := rfl

@[simp] theorem State.wakeCores_clusters (s : State) (i : Nat) (v : Word) : (s.wakeCores i v).cpu.clusters = s.cpu.clusters :=
  foldl_frame (·.cpu.clusters) _ (by intros; rfl) _ s

@[simp] theorem State.wakeCores_sync (s : State) (i : Nat) (v : Word) : (s.wakeCores i v).cpu.sync = s.cpu.sync :=
  foldl_frame (·.cpu.sync) _ (by intros; rfl) _ s

@[simp] theorem State.seeClusters_cores (s : State) (i : Nat) (v : Word) : (s.seeClusters i v).cpu.cores = s.cpu.cores :=
  foldl_frame (·.cpu.cores) _ (by intros; rfl) _ s

@[simp] theorem State.seeClusters_sync (s : State) (i : Nat) (v : Word) : (s.seeClusters i v).cpu.sync = s.cpu.sync :=
  foldl_frame (·.cpu.sync) _ (by intros; rfl) _ s

@[simp] theorem State.seeCtxs_cpu (s : State) (i : Nat) (v : Word) : (s.seeCtxs i v).cpu = s.cpu :=
  foldl_frame State.cpu _ (by intros; rfl) _ s

theorem State.wakeCores_core (s : State) (i : Nat) (v : Word) (n : Nat) : (s.wakeCores i v).core n = (s.core n).wake i v := by
  rw [State.wakeCores, foldl_update_get (get := State.core) (set := State.setCore) (f := fun c => c.wake i v)
    (fun s n m c => s.core_setCore n m c) (fun c => c.wake_wake i v)]
  split
  case isTrue => rfl
  case isFalse unlisted =>
    rw [State.core, Tbl.get_of_not_mem_keys unlisted]
    exact (Core.wake_not_waiting i v (by simp [Core.reset])).symm

theorem State.seeClusters_cluster (s : State) (i : Nat) (v : Word) (k : Nat) : (s.seeClusters i v).cluster k = (s.cluster k).see i v := by
  rw [State.seeClusters, foldl_update_get (get := State.cluster) (set := State.setCluster) (f := fun c => c.see i v)
    (fun s n m c => s.cluster_setCluster n m c) (fun c => c.see_see i v)]
  split
  case isTrue => rfl
  case isFalse unlisted =>
    rw [State.cluster, Tbl.get_of_not_mem_keys unlisted]
    rfl

theorem State.core_congr {t : State} (h : t.cpu.cores = s.cpu.cores) (n : Nat) : t.core n = s.core n := by
  rw [State.core, State.core, h]

theorem State.cluster_congr {t : State} (h : t.cpu.clusters = s.cpu.clusters) (k : Nat) : t.cluster k = s.cluster k := by
  rw [State.cluster, State.cluster, h]

theorem State.evalWaiters_sync (s : State) (i : Nat) (v : Word) : (s.evalWaiters i v).cpu.sync = s.cpu.sync := by
  simp [State.evalWaiters_eq]

/-- Every core sees a new value of an object. -/
theorem State.evalWaiters_core (s : State) (i : Nat) (v : Word) (n : Nat) : (s.evalWaiters i v).core n = (s.core n).wake i v :=
  calc (s.evalWaiters i v).core n = (s.wakeCores i v).core n := State.core_congr (by simp [State.evalWaiters_eq]) n
    _ = (s.core n).wake i v := s.wakeCores_core i v n

/-- Every cluster controller sees a new value of an object. -/
theorem State.evalWaiters_cluster (s : State) (i : Nat) (v : Word) (k : Nat) : (s.evalWaiters i v).cluster k = (s.cluster k).see i v :=
  calc (s.evalWaiters i v).cluster k = ((s.wakeCores i v).seeClusters i v).cluster k :=
        State.cluster_congr (by simp [State.evalWaiters_eq]) k
    _ = ((s.wakeCores i v).cluster k).see i v := State.seeClusters_cluster ..
    _ = (s.cluster k).see i v := by rw [State.cluster_congr (s.wakeCores_clusters i v)]

theorem State.putSyncValue_objs (s : State) (i : Nat) (o : SyncObj) (v : Word) :
    (s.putSyncValue i o v).cpu.sync.objs = Tbl.put s.cpu.sync.objs i { o with value := v } := by
  rw [State.putSyncValue, State.evalWaiters_sync]
  rfl

theorem State.putSyncValue_syncValue (s : State) (i : Nat) (o : SyncObj) (v : Word) : (s.putSyncValue i o v).syncValue i = v := by
  rw [State.syncValue, State.syncObj, State.putSyncValue_objs, Tbl.find_put_same]

theorem State.putSyncValue_core (s : State) (i : Nat) (o : SyncObj) (v : Word) (n : Nat) :
    (s.putSyncValue i o v).core n = (s.core n).wake i v := State.evalWaiters_core ..

/-- Settles O26: an object takes its value in the table, and each waiter sees it. -/
theorem waitersSeeEveryValue : Obligations.WaitersSeeEveryValue := by
  intro s i o v
  refine ⟨s.putSyncValue_syncValue i o v, ?others, ?woken, ?unmet, ?idle, ?watches⟩
  case others =>
    intro j hj
    rw [State.syncObj, State.putSyncValue_objs, Tbl.find_put_ne _ _ hj, State.syncObj]
  case woken =>
    rintro n w waits rfl holds
    rw [State.putSyncValue_core, Core.wake_met waits holds]
  case unmet =>
    intro n w waits unmet
    rw [State.putSyncValue_core, Core.wake_unmet waits unmet]
  case idle =>
    intro n idle
    rw [State.putSyncValue_core, Core.wake_not_waiting i v idle]
  case watches =>
    intro k
    rw [State.putSyncValue, State.evalWaiters_cluster]
    rfl

/-! The commands on objects (R195, R200, R201). -/

theorem State.ownsSyncs_single {f i : Nat} {o : SyncObj} (ho : s.syncObj i = some o) (hf : o.fn = f) (hp : o.pf0 = false) :
    s.ownsSyncs f [i] = true := by
  simp [State.ownsSyncs, ho, hf, hp]

theorem State.resetSyncValue_syncValue (s : State) (i : Nat) (o : SyncObj) (v : Word) : (s.resetSyncValue i o v).syncValue i = v :=
  s.putSyncValue_syncValue i o v

/-- A released signal leaves the flight and is applied (R198). -/
theorem execSyncSignalApply_flight {ix : Nat} {g : Signal} (live : s.errs.halted = false) (hg : s.cpu.sync.flight[ix]? = some g) :
    execSyncSignalApply ix s = .next ((s.setSync { s.cpu.sync with flight := s.cpu.sync.flight.eraseIdx ix }).applySignal g) := by
  simp [execSyncSignalApply, live, hg]

/-- A signal of the firmware or of a current generation adds its amount to its object (R195). -/
theorem State.applySignal_current {g : Signal} {o : SyncObj} (ho : s.syncObj g.sync = some o) (hg : g.part = 64 ∨ g.gen = s.gen g.part) :
    s.applySignal g =
      (s.setSync { s.cpu.sync with applied := s.cpu.sync.applied + 1 }).putSyncValue g.sync o (o.value + BitVec.ofNat 32 g.add) := by
  have current : (g.part == 64 || g.gen == s.gen g.part) = true := by simpa using hg
  simp only [State.applySignal, ho, current, if_true]

/-- A signal to no object, or of an old generation, is dropped (R200). -/
theorem State.applySignal_stale {g : Signal} (h : s.syncObj g.sync = none ∨ (g.part ≠ 64 ∧ g.gen ≠ s.gen g.part)) :
    s.applySignal g = s.dropSignal g.part := by
  unfold State.applySignal
  split
  case h_1 o ho =>
    obtain none_ | ⟨tenant, old⟩ := h
    · simp [ho] at none_
    · rw [if_neg (by simp [tenant, old])]
  case h_2 => rfl

/-- Settles O25: each message is served, and a signal is applied or dropped by its lemma. -/
theorem syncObjectCommands : Obligations.SyncObjectCommands := by
  intro s
  refine ⟨fun f tag served => ⟨?alloc, ?free, ?set⟩, ?apply⟩
  case alloc =>
    intro count p owns
    have owner : (Issuer.owner (s.ownsPart f p)).allows f = true := owns
    refine ⟨fun short enough => ?given, fun short few => ?exhausted, fun long => ?form⟩
    all_goals show execSyncAlloc f tag count p s = _; rw [execSyncAlloc]
    case given =>
      rw [decide_eq_true short, State.request_served served _ _ owner]
      exact congrArg _ (if_neg (Nat.not_lt.2 enough))
    case exhausted =>
      rw [decide_eq_true short, State.request_served served _ _ owner]
      exact congrArg _ (if_pos few)
    case form => rw [decide_eq_false (Nat.not_le.2 long), State.request_form served]
  case free =>
    intro objs owns
    have owner : (Issuer.owner (s.ownsSyncs f objs)).allows f = true := owns
    refine ⟨fun short => ?freed, fun long => ?form⟩
    all_goals show execSyncFree f tag objs s = _; rw [execSyncFree]
    case freed =>
      rw [decide_eq_true short, State.request_served served _ _ owner]
      rfl
    case form => rw [decide_eq_false (Nat.not_le.2 long), State.request_form served]
  case set =>
    intro ix value o ho hf hp
    have owner : (Issuer.owner (s.ownsSyncs f [ix.val])).allows f = true := State.ownsSyncs_single ho hf hp
    refine ⟨?_, s.resetSyncValue_syncValue ix o _⟩
    have there : (s.taken f 0x22 tag).syncObj ix = some o := ho
    show execSyncSet f tag ix value s = _
    rw [execSyncSet, State.request_served served _ _ owner, there]
  case apply =>
    rintro ix g _ live hg rfl
    have acts : exec (.syncSignalApply ix) s = _ := execSyncSignalApply_flight live hg
    exact ⟨fun o ho current => acts.trans (congrArg _ (State.applySignal_current ho current)),
      fun stale => acts.trans (congrArg _ (State.applySignal_stale stale))⟩

end Sys2Proof.Machine
end

section
/-!
PROOF. Instructions that may stand anywhere (R185, R781, R782, R784): the scalar and address instructions, loops and branches.
-/
namespace Sys2Proof.Machine

variable {s : State} {n : Nat} {c : Core} {w : Nat}

/-! An instruction of its opcode at a core that is ready for it runs with the body begun (R188, R782). -/

theorem State.issue_anyPlace (h : Issues s n c w) (ready : c.anyReady s.pwr.ledger.hold = true) {op : Nat} (ho : opcodeOf w = op)
    (f : Nat → Core → State) : s.issue n op (fun c w => s.anyPlace n c (f w)) = .next (f w c.entered) := by
  rw [State.issue_at h, if_pos ho, State.anyPlace_ready ready]

theorem State.issue_inBody (h : Issues s n c w) (ready : c.bodyReady s.pwr.ledger.hold = true) {op : Nat} (ho : opcodeOf w = op)
    (f : Nat → Core → State) : s.issue n op (fun c w => s.inBody n c (f w)) = .next (f w c.entered) := by
  rw [State.issue_at h, if_pos ho, State.inBody_ready ready]

/-! Scalar operations (R784). -/

theorem saluOp_sub_add (a b : Word) : (saluOp 0x01 a b).map (· + b) = some a := congrArg some (BitVec.sub_add_cancel a b)

theorem saluOp_shiftLeft (a b : Word) : saluOp 0x06 a b = some (BitVec.ofNat 32 (a.toNat * 2 ^ (b.toNat % 32))) := by
  refine congrArg some (BitVec.eq_of_toNat_eq ?_)
  rw [BitVec.toNat_shiftLeft, BitVec.toNat_ofNat, Nat.shiftLeft_eq]

theorem saluOp_shiftRight (a b : Word) : saluOp 0x07 a b = some (BitVec.ofNat 32 (a.toNat / 2 ^ (b.toNat % 32))) := by
  refine congrArg some (BitVec.eq_of_toNat_eq ?_)
  rw [BitVec.toNat_ushiftRight, BitVec.toNat_ofNat, Nat.shiftRight_eq_div_pow,
    Nat.mod_eq_of_lt (Nat.lt_of_le_of_lt (Nat.div_le_self ..) a.isLt)]

theorem saluOp_shiftRightSigned (a b : Word) : saluOp 0x08 a b = some (BitVec.ofInt 32 (a.toInt / 2 ^ (b.toNat % 32))) := by
  refine congrArg some ?_
  rw [BitVec.sshiftRight, Int.shiftRight_eq_div_pow]
  norm_cast

theorem saluOp_min (a b : Word) : saluOp 0x09 a b = some (BitVec.ofInt 32 (min a.toInt b.toInt)) := by
  rw [min_comm, min_def_lt, apply_ite (BitVec.ofInt 32), BitVec.ofInt_toInt, BitVec.ofInt_toInt]
  simp only [saluOp, BitVec.slt_iff_toInt_lt]

theorem saluOp_max (a b : Word) : saluOp 0x0A a b = some (BitVec.ofInt 32 (max a.toInt b.toInt)) := by
  rw [max_def_lt, apply_ite (BitVec.ofInt 32), BitVec.ofInt_toInt, BitVec.ofInt_toInt]
  simp only [saluOp, BitVec.slt_iff_toInt_lt]

theorem saluOp_minu (a b : Word) : saluOp 0x0B a b = some (BitVec.ofNat 32 (min a.toNat b.toNat)) := by
  rw [min_comm, min_def_lt, apply_ite (BitVec.ofNat 32), BitVec.ofNat_toNat, BitVec.ofNat_toNat, BitVec.setWidth_eq, BitVec.setWidth_eq]
  simp only [saluOp, BitVec.ult_iff_toNat_lt]

theorem saluOp_maxu (a b : Word) : saluOp 0x0C a b = some (BitVec.ofNat 32 (max a.toNat b.toNat)) := by
  rw [max_def_lt, apply_ite (BitVec.ofNat 32), BitVec.ofNat_toNat, BitVec.ofNat_toNat, BitVec.setWidth_eq, BitVec.setWidth_eq]
  simp only [saluOp, BitVec.ult_iff_toNat_lt]

theorem saluOp_undefined {op : Nat} (h : 0x0D < op) (a b : Word) : saluOp op a b = none := by
  obtain ⟨k, rfl⟩ : ∃ k, op = k + 0x0E := Nat.exists_eq_add_of_le' h
  rfl

/-! Scalar and address instructions (R784). -/

theorem execSalu_issues (h : Issues s n c w) (ready : c.anyReady s.pwr.ledger.hold = true) (ho : opcodeOf w = 0x0A)
    (hr : reservedSet w 0xFFFFFFFCFFFFFFFF = false) {v : Word}
    (hv : saluOp (bits w 55 50) (c.sreg (bits w 44 40)) (if bit w 34 then BitVec.ofNat 32 (bits w 31 0) else c.sreg (bits w 39 35)) = some v) :
    execSalu n s = .next (s.advance n (c.entered.setSreg (bits w 49 45) v)) := by
  rw [execSalu, State.issue_anyPlace h ready ho]
  simp only [hr, Core.entered_sreg, hv, Bool.false_eq_true, if_false]

theorem execAalu_issues (h : Issues s n c w) (ready : c.anyReady s.pwr.ledger.hold = true) (ho : opcodeOf w = 0x0C) :
    execAalu n s = .next (s.advance n (c.entered.setAreg (bits w 55 53)
      (BitVec.ofInt 48 ((c.areg (bits w 52 50)).toNat + sext 32 (c.sreg (bits w 49 45)).toNat + sext 45 (bits w 44 0))))) := by
  rw [execAalu, State.issue_anyPlace h ready ho]
  rfl

/-- Settles O5: the instructions are their lemmas, and each operation its own. -/
theorem scalarInstructions : Obligations.ScalarInstructions := by
  refine ⟨fun s n c w issues ready => ⟨?salu, execAalu_issues issues ready⟩, fun a b => ?operations⟩
  case salu =>
    rintro _ v ho hr rfl hv
    exact execSalu_issues issues ready ho hr hv
  case operations =>
    exact ⟨rfl, saluOp_sub_add a b, rfl, rfl, rfl, rfl, saluOp_shiftLeft a b, saluOp_shiftRight a b,
      saluOp_shiftRightSigned a b, saluOp_min a b, saluOp_max a b, saluOp_minu a b, saluOp_maxu a b, rfl,
      fun _ undefined => saluOp_undefined undefined a b⟩

/-! Loops (R781). -/

/-- The end of a run that is not the last leads back to the first instruction of the body. -/
theorem landing_again {f : LoopFrame} (h : 1 < f.left) (fs : List LoopFrame) :
    landing (f :: fs) (f.start + f.len) = (f.start, { f with left := f.left - 1 } :: fs) := by
  rw [landing, if_pos rfl, if_pos h]

/-- The end of the last run closes the loop and is a position of the loops around it. -/
theorem landing_last {f : LoopFrame} (h : ¬ 1 < f.left) (fs : List LoopFrame) :
    landing (f :: fs) (f.start + f.len) = landing fs (f.start + f.len) := by
  rw [landing, if_pos rfl, if_neg h]

theorem landing_inside {f : LoopFrame} {pos : Nat} (h : pos ≠ f.start + f.len) (fs : List LoopFrame) :
    landing (f :: fs) pos = (pos, f :: fs) := by
  rw [landing, if_neg h]

/-- The loops after j ends of a body of k runs that have all led back. -/
theorem landing_repeat (start len k : Nat) (outer : List LoopFrame) (j : Nat) (hj : j < k) :
    Nat.repeat (fun l => (landing l (start + len)).2) j ({ start := start, len := len, left := k } :: outer) =
      { start := start, len := len, left := k - j } :: outer := by
  induction j with
  | zero => rfl
  | succ j ih =>
    have more : 1 < k - j := by omega
    rw [Nat.repeat, ih (by omega), landing_again (f := { start := start, len := len, left := k - j }) more]
    rfl

/-- Settles O7: each end before the last leads back, and the last closes the loop. -/
theorem loopBodyRunsItsCount : Obligations.LoopBodyRunsItsCount := by
  intro start len k outer positive
  refine ⟨landing_repeat start len k outer, ?again, ?last, fun pos inside => landing_inside inside outer⟩
  case again =>
    intro j hj
    have more : 1 < k - j := by omega
    rw [landing_repeat _ _ _ _ _ (by omega), landing_again (f := { start := start, len := len, left := k - j }) more]
  case last =>
    have one : ¬ 1 < k - (k - 1) := by omega
    rw [landing_repeat _ _ _ _ _ (by omega), landing_last (f := { start := start, len := len, left := k - (k - 1) }) one]

/-! LOOP and BRANCH (R781, R784). -/

theorem mem_rangeFrom {q lo len : Nat} : q ∈ rangeFrom lo len ↔ lo ≤ q ∧ q < lo + len := by
  simp only [rangeFrom, List.mem_map, List.mem_range]
  constructor
  · rintro ⟨i, hi, rfl⟩
    omega
  · rintro ⟨above, below⟩
    exact ⟨q - lo, by omega, by omega⟩

/-- The body of a LOOP reaches past the end of the innermost open loop (R781). -/
def Core.bodyPast (c : Core) (len : Nat) : Bool :=
  match c.loops with
  | f :: _ => decide (f.start + f.len < c.pc + 1 + len)
  | [] => false

/-- The body of a LOOP holds a TILE or a COMMIT (R781). -/
def Core.bodyHasTile (c : Core) (len : Nat) : Bool := (rangeFrom (c.pc + 1) len).any (fun q => c.opAt q == 1 || c.opAt q == 2)

theorem Core.bodyPast_of_inside {len : Nat} (h : ∀ f fs, c.loops = f :: fs → c.pc + 1 + len ≤ f.start + f.len) : c.bodyPast len = false := by
  unfold Core.bodyPast
  split
  case h_1 f fs e => exact decide_eq_false (Nat.not_lt.2 (h f fs e))
  case h_2 => rfl

theorem Core.bodyHasTile_of_none {len : Nat} (h : ∀ q, c.pc < q → q ≤ c.pc + len → c.opAt q ≠ 1 ∧ c.opAt q ≠ 2) :
    c.bodyHasTile len = false := by
  rw [Core.bodyHasTile, List.any_eq_false]
  intro q inBody
  rw [mem_rangeFrom] at inBody
  simpa using h q (by omega) (by omega)

/-- The count of a LOOP: the immediate, or a scalar register (R781). -/
def Core.loopCount (c : Core) (w : Nat) : Nat := if bits w 53 49 = 0 then bits w 23 0 else (c.sreg (bits w 53 49)).toNat

/-- A well-formed LOOP opens a frame over its body, or goes on after it where the count is 0. -/
theorem execLoop_issues (h : Issues s n c w) (ready : c.anyReady s.pwr.ledger.hold = true) (ho : opcodeOf w = 0x08)
    (hr : reservedSet w 0xFFFE00FFFFFFFFFF = false) (body : 0 < bits w 39 24) (depth : bits w 55 54 = c.loops.length)
    (inside : c.bodyPast (bits w 39 24) = false) (noTile : c.bodyHasTile (bits w 39 24) = false) :
    execLoop n s = .next (
      if c.loopCount w = 0 then s.continueAt n c.entered (c.pc + 1 + bits w 39 24)
      else s.continueAt n { c.entered with loops := { start := c.pc + 1, len := bits w 39 24, left := c.loopCount w } :: c.loops }
        (c.pc + 1)) := by
  have sound : (reservedSet w 0xFFFE00FFFFFFFFFF || bits w 55 54 != c.loops.length || bits w 39 24 == 0 || c.bodyPast (bits w 39 24) ||
      c.bodyHasTile (bits w 39 24)) = false := by
    simp [hr, depth, inside, noTile, Nat.pos_iff_ne_zero.1 body]
  rw [execLoop, State.issue_anyPlace h ready ho]
  exact congrArg _ (if_neg (by rw [Bool.not_eq_true]; exact sound))

/-- A well-formed BRANCH moves on where its condition fails, and goes to an allowed target where it holds. -/
theorem execBranch_issues (h : Issues s n c w) (ready : c.anyReady s.pwr.ledger.hold = true) (ho : opcodeOf w = 0x09)
    (hr : reservedSet w 0xFFFFFC00FFFFFFFF = false) {taken : Bool}
    (ht : branchHolds (bits w 55 52) (c.sreg (bits w 51 47)) (c.sreg (bits w 46 42)) = some taken) :
    execBranch n s = .next (
      if !taken then s.advance n c.entered
      else if c.entered.branchBad (c.pc + sext 32 (bits w 31 0)) then s.stopIllegal n
      else s.continueAt n c.entered ((c.pc : Int) + sext 32 (bits w 31 0)).toNat) := by
  rw [execBranch, State.issue_anyPlace h ready ho]
  simp only [Core.entered_sreg, ht, hr, Bool.false_eq_true, if_false]
  rfl

/-- Settles O6: a LOOP and a BRANCH that meet the conditions do what their lemmas say. -/
theorem controlFlow : Obligations.ControlFlow := by
  intro s n c w issues ready
  constructor
  · rintro _ _ ho hr rfl body rfl depth inside noTile
    have acts : exec (.loop n) s = _ :=
      execLoop_issues issues ready ho hr body depth (Core.bodyPast_of_inside inside) (Core.bodyHasTile_of_none noTile)
    exact ⟨fun none_ => acts.trans (congrArg _ (if_pos none_)), fun some_ => acts.trans (congrArg _ (if_neg (Nat.pos_iff_ne_zero.1 some_)))⟩
  · intro taken ho hr ht
    have acts : exec (.branch n) s = _ := execBranch_issues issues ready ho hr ht
    exact ⟨fun fails => acts.trans (by rw [fails]; rfl), fun holds allowed => acts.trans (by rw [holds, allowed]; rfl)⟩

end Sys2Proof.Machine
end

section
/-!
PROOF. Instructions that reach the core store (R81, R185, R219, R316) and those on sync objects of another partition (R199).
-/
namespace Sys2Proof.Machine

variable {s : State} {n : Nat} {c : Core} {w : Nat}

/-! The core store (R185). -/

/-- A well-formed SLDST: out of range, a store, over poison, a load. -/
theorem execSldst_issues (h : Issues s n c w) (ready : c.anyReady s.pwr.ledger.hold = true) (ho : opcodeOf w = 0x0B)
    (hr : reservedSet w 0xFFFF8000001FFFFF = false) (aligned : bits w 20 0 % 4 = 0) :
    let a := (c.areg (bits w 49 47)).toNat + bits w 20 0
    execSldst n s = .next (
      if coreStoreBytes < a + 4 then s.abortTile n .eStoreRange
      else if bit w 55 then (s.coreWrite n a (toLE 4 (c.sreg (bits w 54 50)).toNat)).advance n (c.entered.note [(a, 4)])
      else if s.corePoisoned n a 4 then s.abortTile n .eMemPoison
      else s.advance n (c.entered.setSreg (bits w 54 50) (BitVec.ofNat 32 (leNat (s.coreRead n a 4))))) := by
  have sound : (reservedSet w 0xFFFF8000001FFFFF || bits w 20 0 % 4 != 0) = false := by simp [hr, aligned]
  rw [execSldst, State.issue_anyPlace h ready ho]
  exact congrArg _ (if_neg (by rw [Bool.not_eq_true]; exact sound))

/-- A well-formed VLDST: out of range, a store, over poison, a load. -/
theorem execVldst_issues (h : Issues s n c w) (ready : c.bodyReady s.pwr.ledger.hold = true) (ho : opcodeOf w = 0x21)
    (hr : reservedSet w 0xFF80FC00001FFFFF = false) (aligned : bits w 20 0 % 64 = 0) :
    let a := (c.areg (bits w 44 42)).toNat + bits w 20 0
    execVldst n s = .next (
      if coreStoreBytes < a + 512 then s.abortTile n .eStoreRange
      else if bit w 55 then
        ((s.coreWrite n a ((c.lanes (bits w 47 45)).flatMap (fun x => toLE 4 x.toNat))).markPads (coreBase n + a)
          (c.pads (bits w 47 45))).advance n (c.entered.note [(a, 512)])
      else if s.corePoisoned n a 512 then s.abortTile n .eMemPoison
      else s.advance n ((c.entered.setLanes (bits w 47 45)
        ((List.range 128).map (fun l => BitVec.ofNat 32 (leNat (s.coreRead n (a + 4 * l) 4))))).setPads (bits w 47 45)
          ((rangeFrom (coreBase n + a) 512).map s.padOf))) := by
  have sound : (reservedSet w 0xFF80FC00001FFFFF || bits w 20 0 % 64 != 0) = false := by simp [hr, aligned]
  rw [execVldst, State.issue_inBody h ready ho]
  exact congrArg _ (if_neg (by rw [Bool.not_eq_true]; exact sound))

/-- A well-formed TDLOAD over sound bytes loads its descriptor register. -/
theorem execTdload_issues (h : Issues s n c w) (ready : c.anyReady s.pwr.ledger.hold = true) (ho : opcodeOf w = 0x06)
    (hr : reservedSet w 0xFF0F00000000FFFF = false) (sound : s.corePoisoned n (32 * bits w 15 0) 32 = false) :
    execTdload n s = .next (s.advance n (c.entered.setTdreg (bits w 51 48) (s.coreRead n (32 * bits w 15 0) 32))) := by
  rw [execTdload, State.issue_anyPlace h ready ho]
  simp only [hr, sound, Bool.false_eq_true, if_false]

/-- Settles O8: each clause is one case of its instruction. -/
theorem coreStoreAccess : Obligations.CoreStoreAccess := by
  intro s n c w issues
  refine ⟨?sldst, ?vldst, execTdload_issues issues⟩
  case sldst =>
    rintro _ ready ho hr aligned rfl
    have acts : exec (.sldst n) s = _ := execSldst_issues issues ready ho hr aligned
    refine ⟨fun past => ?_, fun within store => ?_, fun within load bad => ?_, fun within load sound => ?_⟩
    · rw [acts, if_pos past]
    all_goals rw [acts, if_neg (Nat.not_lt.2 within)]
    · rw [if_pos store]
    · simp only [load, bad, Bool.false_eq_true, if_false, if_true]
    · simp only [load, sound, Bool.false_eq_true, if_false]
  case vldst =>
    rintro _ ready ho hr aligned rfl within
    have acts : exec (.vldst n) s = _ := execVldst_issues issues ready ho hr aligned
    rw [acts, if_neg (Nat.not_lt.2 within)]
    refine ⟨fun store => ?_, fun load sound => ?_⟩
    · rw [if_pos store]
    · simp only [load, sound, Bool.false_eq_true, if_false]

/-! Foreign sync objects (R199). -/

theorem Core.owner_of_work {work : CoreWork} (h : c.work = some work) : c.owner = (work.part, work.gen) := by
  simp [Core.owner, h]

/-- An object of another partition or of an old generation is not owned, whatever generation its user carries. -/
theorem State.ownsSync_foreign {i p : Nat} {o : SyncObj} (ho : s.syncObj i = some o) (foreign : o.part ≠ p ∨ o.gen ≠ s.gen p) (gen : Nat) :
    s.ownsSync p gen i = false := by
  rw [Bool.eq_false_iff]
  intro owns
  simp only [State.ownsSync, ho, Bool.and_eq_true, beq_iff_eq] at owns
  obtain ⟨⟨⟨part, old⟩, _⟩, current⟩ := owns
  exact foreign.elim (· part) (· (old.trans current))

/-- A well-formed WAIT in a preamble whose object the core's partition does not own aborts the tile. -/
theorem execWait_foreign (h : Issues s n c w) (ho : opcodeOf w = 0x03) (hr : reservedSet w 0xFFFFC0000000FFFF = false)
    (cond : bits w 55 54 ≤ 1) (mode : bits w 48 46 ≤ 3) {t : TileOpen} (ht : c.tile = some t) (preamble : t.inBody = false)
    (foreign : s.ownsSync c.owner.1 c.owner.2 (bits w 15 0) = false) : execWait n s = .next (s.abortTile n .eSyncOwner) := by
  have sound : (reservedSet w 0xFFFFC0000000FFFF || decide (1 < bits w 55 54) || decide (3 < bits w 48 46)) = false := by
    simp [hr, cond, mode]
  rw [execWait, State.issue_at h, if_pos ho]
  simp only [sound, ht, preamble, foreign, Bool.false_eq_true, if_false, Bool.not_false, if_true]

/-- A well-formed SIGNAL in a body whose object the core's partition does not own aborts the tile. -/
theorem execSignal_foreign (h : Issues s n c w) (ready : c.bodyReady s.pwr.ledger.hold = true) (ho : opcodeOf w = 0x04)
    (hr : reservedSet w 0xFF00FFFF0000FFFF = false) (amount : bits w 47 32 ≠ 0)
    (foreign : s.ownsSync c.owner.1 c.owner.2 (bits w 15 0) = false) : execSignal n s = .next (s.abortTile n .eSyncOwner) := by
  have sound : (reservedSet w 0xFF00FFFF0000FFFF || bits w 47 32 == 0) = false := by simp [hr, amount]
  rw [execSignal, State.issue_inBody h ready ho]
  simp only [sound, Core.entered_owner, foreign, Bool.false_eq_true, if_false, Bool.not_false, if_true]

/-- Settles O11: neither instruction owns the object that it names. -/
theorem foreignSyncObjectAborts : Obligations.ForeignSyncObjectAborts := by
  intro s n c w work o issues hw ho foreign
  have notOwned : s.ownsSync c.owner.1 c.owner.2 (bits w 15 0) = false := by
    rw [Core.owner_of_work hw]
    exact State.ownsSync_foreign ho foreign work.gen
  exact ⟨fun t ht preamble op hr cond mode => execWait_foreign issues op hr cond mode ht preamble notOwned,
    fun ready op hr amount => execSignal_foreign issues ready op hr amount notOwned⟩

end Sys2Proof.Machine
end

section
/-!
PROOF. How a tile opens, commits and aborts (R80, R125, R167 to R169, R187 to R191, R325, R785).
-/
namespace Sys2Proof.Machine

variable {s : State} {n : Nat} {c : Core} {w : Nat}

/-! TILE and COMMIT (R187, R188, R190). -/

/-- The core whose TILE at its position opens a tile: registers of the tile before carry no defined value, drawn from `draw` on. -/
def Core.openTile (c : Core) (id draw : Nat) : Core :=
  { c with
    tile := some { id := id, pos := c.pc, inBody := false, proxies := [] }, lastTile := id, accSat := false,
    accNonfin := false, acc := [], accBase := some draw, v := [], vBase := some (draw + 1), vPad := [], loops := [], wrote := [] }

/-- A well-formed TILE outside every tile, with neither a Minuet request nor a stop asked for, opens its tile. -/
theorem execTile_opens (h : Issues s n c w) (ho : opcodeOf w = 0x01) (hr : reservedSet w 0xFF0000000000FFFF = false)
    (free : c.tile = none) (noMinuet : c.minuetReq = false) (noStop : c.stopReq = false) {p : Program} (hp : c.prog = some p)
    (hid : bits w 15 0 < p.live.length) :
    execTile n s = .next ((({ s with draws := s.draws + 2 } : State).keepRanges n (p.live.getD (bits w 15 0) [])).advance n
      (c.openTile (bits w 15 0) s.draws)) := by
  have listed : decide (p.live.length ≤ bits w 15 0) = false := decide_eq_false (Nat.not_le.2 hid)
  rw [execTile, State.issue_at h, if_pos ho]
  simp only [free, noMinuet, noStop, hp, hr, listed, Option.isSome_none, Bool.or_false, Bool.false_eq_true, if_false, Core.openTile]

/-- A core that has waited on every WAITSET proxy of its tile begins the body, or commits (R785). -/
theorem State.inTile_waited {t : TileOpen} (ht : c.tile = some t) (waited : t.proxies = []) (f : Core → State) :
    s.inTile n c f = f c.entered := by
  simp only [State.inTile, ht, waited, List.isEmpty_nil, if_true, Core.entered, Option.map_some]

/-- A COMMIT of a tile whose queued signals are all on owned objects releases its queue and closes it. -/
theorem execCommit_releases (h : Issues s n c w) (ho : opcodeOf w = 0x02) (hr : reservedSet w 0xFF00000000000000 = false)
    {t : TileOpen} (ht : c.tile = some t) (waited : t.proxies = []) {work : CoreWork} (hw : c.work = some work)
    (owned : ∀ sync add, .signal sync add ∈ c.commitQ → s.ownsSync work.part work.gen sync = true) :
    let s1 := c.commitQ.foldl (releaseEntry n work t.id) s
    let s2 := s1.setCluster (n / 8) ((s1.cluster (n / 8)).disarm n)
    execCommit n s = .next (s.stallUpdate work.part
      ((s2.setCtx work.ctx ((s2.ctx work.ctx).addTileFlags work.idx c.accSat c.accNonfin)).advance n
        { c.entered with tile := none, commitQ := [], loops := [], wrote := [] })) := by
  have entered : c.entered.tile = some { t with inBody := true } := by rw [Core.entered, ht, Option.map_some]
  rw [execCommit, State.issue_at h, if_pos ho]
  simp only [hr, State.inTile_waited ht waited, entered, Core.entered_work, hw, Bool.false_eq_true, if_false]
  refine congrArg _ (if_neg ?_)
  rw [List.any_eq_true]
  rintro ⟨e, queued, bad⟩
  cases e with
  | signal sync add => simp [owned sync add queued] at bad
  | move desc => exact Bool.false_ne_true bad

/-- Settles O9: TILE and COMMIT are their lemmas. -/
theorem tileOpensAndCommits : Obligations.TileOpensAndCommits := by
  intro s n c w issues
  constructor
  · intro p ho hr noMinuet noStop free hp hid
    exact execTile_opens issues ho hr free noMinuet noStop hp hid
  · rintro work t ho hr ht waited hw owned _ _ rfl rfl
    exact execCommit_releases issues ho hr ht waited hw owned

end Sys2Proof.Machine
end

section
/-!
PROOF. What an abort does outside its tile (R70, R80, R191, R356): it notes its stop at the descriptor, and a core that waits in OFF powers up.
Two statements leave one of these out, and each falls on a state of its own.
-/
namespace Sys2Proof.Machine

variable {s : State} {n : Nat} {c : Core}

@[simp] theorem State.noteStop_cpu (s : State) (n : Nat) (st : Status) : (s.noteStop n st).cpu = s.cpu := by
  unfold State.noteStop
  split <;> rfl

@[simp] theorem State.noteStop_pwr (s : State) (n : Nat) (st : Status) : (s.noteStop n st).pwr = s.pwr := by
  unfold State.noteStop
  split <;> rfl

@[simp] theorem State.noteStop_core (s : State) (n : Nat) (st : Status) (m : Nat) : (s.noteStop n st).core m = s.core m :=
  State.core_congr (by rw [State.noteStop_cpu]) m

/-- The context of the core's descriptor notes the stop (R356). -/
theorem State.noteStop_ctx {work : CoreWork} (hw : (s.core n).work = some work) (st : Status) :
    (s.noteStop n st).ctx work.ctx = (s.ctx work.ctx).noteStop work.idx n st ((s.core n).lastTile + n * 2 ^ 16) := by
  simp only [State.noteStop, hw, State.ctx_setCtx_same]

theorem State.undefine_pwr (s : State) (a n : Nat) : (s.undefine a n).pwr = s.pwr := by
  unfold State.undefine
  split <;> rfl

theorem State.undefineBody_pwr (s : State) (n : Nat) (l : List (Nat × Nat)) : (s.undefineBody n l).pwr = s.pwr :=
  foldl_frame State.pwr _ (by intro t r; exact t.undefine_pwr ..) l s

/-- The work of an abort is the note of its stop. -/
theorem State.abortTile_work (s : State) (n : Nat) (st : Status) : (s.abortTile n st).work = (s.noteStop n st).work :=
  calc (s.abortTile n st).work = (((s.noteStop n st).modeUp n).undefineBody n (s.core n).wrote).work := rfl
    _ = (s.noteStop n st).work := by rw [undefineBody_work, modeUp_work]

/-- Power after an abort is that of a core which leaves its island mode. -/
theorem State.abortTile_pwr (s : State) (n : Nat) (st : Status) : (s.abortTile n st).pwr = ((s.noteStop n st).modeUp n).pwr :=
  calc (s.abortTile n st).pwr = (((s.noteStop n st).modeUp n).undefineBody n (s.core n).wrote).pwr := rfl
    _ = ((s.noteStop n st).modeUp n).pwr := undefineBody_pwr ..

theorem State.modeUp_off_domainOn (h : (s.core n).mode = 3) : (s.modeUp n).domainOn (coreIsland n) = true := by
  rw [State.modeUp, if_pos h, State.domainOn_setDomain, if_pos rfl]

/-- An abort of a core that waits in OFF powers its domain up (R70, R585). -/
theorem State.abortTile_off_domainOn (h : (s.core n).mode = 3) (st : Status) : (s.abortTile n st).domainOn (coreIsland n) = true := by
  rw [State.domainOn, State.abortTile_pwr]
  exact State.modeUp_off_domainOn (by rw [State.noteStop_core, h])

/-- A tile whose last instruction moves past the end of the program stops there under R80 (R188). -/
theorem State.advance_past_end (loops : c.loops = []) (past : c.codeEnd ≤ c.pc + 1) (tile : c.tile.isSome = true) :
    s.advance n c = (s.setCore n { c with pc := c.pc + 1, loops := [] }).stopIllegal n := by
  have ends : ({ c with pc := c.pc + 1, loops := [] } : Core).codeEnd ≤ c.pc + 1 := past
  simp only [State.advance, State.continueAt, loops, landing]
  rw [if_pos ends, if_pos tile]

/-! A core that waits in OFF (R584). -/

/-- Core 0 stands at a WAIT in the preamble of a tile, its domain off. -/
def offCore : Core :=
  { Core.reset with
    run := .waiting { sync := 0, eq := false, target := 1 }, mode := 3, allow := 3,
    tile := some { id := 0, pos := 0, inBody := false, proxies := [] } }

def offState : State := { State.reset with cpu := { Cpu.reset with cores := [(0, offCore)] } }

/-- Refutes O13: where the aborted core waits in OFF, as one whose wait set expires may (R785), the abort powers its domain up, and what lies
outside the cores and clusters has changed by more than the note of the stop. -/
theorem not_abortLeavesTheOutsideAlone : ¬ Obligations.AbortLeavesTheOutsideAlone := by
  intro h
  obtain ⟨_, _, _, _, _, _, same, _⟩ := h offState 0 .syncTimeout
  have up : (offState.abortTile 0 .syncTimeout).domainOn 0 = true := State.abortTile_off_domainOn (n := 0) rfl _
  have off : (offState.abortTile 0 .syncTimeout).domainOn 0 = false := by
    rw [State.domainOn, same.pwr, State.noteStop_pwr]
    rfl
  exact Bool.false_ne_true (off.symm.trans up)

/-! A program that ends in an open tile (R188). -/

/-- The word of SIGNAL to object 0 with an amount of 1. -/
def signalWord : Nat := 0x0400000100000000

/-- The descriptor at index 0 of context 0, for partition 0. -/
def lastSignalWork : CoreWork := { ctx := 0, idx := 0, part := 0, gen := 0 }

/-- Core 0 in the body of a tile at a SIGNAL, the last instruction of its program. -/
def lastSignalCore : Core :=
  { Core.reset with
    run := .running, work := some lastSignalWork, pc := 1,
    code := [0x0100000000000000, 0x0400000100000000],
    prog := some { compat := false, realtime := false, features := 0, liveBytes := 0, codeWords := 2, codeBase := 0, live := [[]],
                   iova := false, imageBase := 0, words := [0x0100000000000000, 0x0400000100000000] },
    tile := some { id := 0, pos := 0, inBody := true, proxies := [] } }

/-- The core with the signal in its commit queue. -/
def lastSignalQueued : Core := { lastSignalCore.entered with commitQ := [.signal 0 1] }

/-- A running COMPUTE descriptor at index 0. -/
def runningDesc : Desc :=
  { idx := 0, raw := [1], phase := .running, order := 0, status := .ok, accSat := false, accNonfin := false, detail0 := 0, detail1 := 0,
    estimate := 0, resLeft := 0, resC := 0, resOpen := false, drawn := 0, waitSince := 0, voided := false, fault := false, stops := [],
    waitMet := false, freed := false }

def lastSignalState : State :=
  { State.reset with
    cpu := { Cpu.reset with cores := [(0, lastSignalCore)] }
    work := { Work.reset with ctxs := [(0, { Ctx.reset with descs := [runningDesc] })] } }

theorem lastSignalState_issues : Issues lastSignalState 0 lastSignalCore signalWord := ⟨rfl, by decide, by decide⟩

/-- Refutes O10: a SIGNAL that is the last instruction of its program leads past the program's end with its tile open, which stops issue
under R80 (R188), and the stop is noted at the descriptor, outside the core. -/
theorem not_signalAndMoveQueue : ¬ Obligations.SignalAndMoveQueue := by
  intro h
  obtain ⟨_, _, same, _⟩ := h lastSignalState 0 lastSignalCore signalWord (.signal 0 1) lastSignalState_issues (by decide)
  have stands : (lastSignalState.advance 0 lastSignalQueued).ctx 0 = lastSignalState.ctx 0 := by
    rw [State.ctx, State.ctx]
    exact congrArg (fun x : Work => Tbl.get Ctx.reset x.ctxs 0) same.work
  have noted : (lastSignalState.advance 0 lastSignalQueued).ctx 0 = (lastSignalState.ctx 0).noteStop 0 0 .eSeqIllegal 0 := by
    have works : ((lastSignalState.setCore 0 { lastSignalQueued with pc := 2, loops := [] }).core 0).work = some lastSignalWork := by
      rw [State.core_setCore_same]
      rfl
    rw [State.advance_past_end rfl (by decide) rfl, State.stopIllegal, State.ctx, State.abortTile_work]
    refine (State.noteStop_ctx works .eSeqIllegal).trans ?_
    rw [State.core_setCore_same]
    rfl
  exact absurd (congrArg (fun x : Ctx => x.descs.map (·.stops)) (noted.symm.trans stands)) (by decide)

end Sys2Proof.Machine
end

section
/-!
PROOF. Loading programs and their overlays (R184, R211, R215, R217, R345, R786).
-/
namespace Sys2Proof.Machine

variable {s : State} {n : Nat} {w : CoreWork} {part : Part} {host : HostRead} {img : List Byte}

/-- What becomes of an image that has been read and has passed the checks before a load: its geometry ends the descriptor, or the core
takes it (R215 to R218). -/
def State.placeImage (s : State) (n : Nat) (c : Core) (w : CoreWork) (d : Desc) (img : List Byte) : State :=
  if geomErr img then s.endUnrun w.ctx w.idx .eWindowGeometry 0
  else match (imageGeoms img).find? (fun g => (geomOut g).1 == 0 || (geomOut g).2 == 0) with
    | some g => (s.keepGeoms (n / 8) (imageGeoms img)).endUnrun w.ctx w.idx .okEmpty (geomDetail g)
    | none => (((s.keepGeoms (n / 8) (imageGeoms img)).setCore n (c.load img (bit (fld d.raw 0 4) 11) (fld d.raw 0x20 8)
        (fld d.raw 0x28 6))).noteCompat n w.part).startIfLoaded w.ctx w.idx

theorem State.placeImage_badGeometry (h : geomErr img = true) (c : Core) (d : Desc) :
    s.placeImage n c w d img = s.endUnrun w.ctx w.idx .eWindowGeometry 0 := if_pos h

theorem State.placeImage_empty (h : geomErr img = false) {g : List Byte}
    (hg : (imageGeoms img).find? (fun g => (geomOut g).1 == 0 || (geomOut g).2 == 0) = some g) (c : Core) (d : Desc) :
    s.placeImage n c w d img = (s.keepGeoms (n / 8) (imageGeoms img)).endUnrun w.ctx w.idx .okEmpty (geomDetail g) := by
  rw [State.placeImage, h, if_neg Bool.false_ne_true, hg]

theorem State.placeImage_loads (h : geomErr img = false) (hg : ∀ g ∈ imageGeoms img, (geomOut g).1 ≠ 0 ∧ (geomOut g).2 ≠ 0) (c : Core)
    (d : Desc) : s.placeImage n c w d img = (((s.keepGeoms (n / 8) (imageGeoms img)).setCore n
      (c.load img (bit (fld d.raw 0 4) 11) (fld d.raw 0x20 8) (fld d.raw 0x28 6))).noteCompat n w.part).startIfLoaded w.ctx w.idx := by
  have noneEmpty : (imageGeoms img).find? (fun g => (geomOut g).1 == 0 || (geomOut g).2 == 0) = none := by
    rw [List.find?_eq_none]
    intro g among
    simpa using hg g among
  rw [State.placeImage, h, if_neg Bool.false_ne_true, noneEmpty]

/-- A core at rest takes the image of its descriptor, once that can be read and passes the checks; what is read counts. -/
theorem State.loadCore_image (idle : (s.core n).run = .idle) (hw : (s.core n).work = some w) {d : Desc} (hd : s.desc w.ctx w.idx = some d)
    (hp : s.part w.part = some part) (free : s.imageHeld part (bit (fld d.raw 0 4) 11) (fld d.raw 0x20 8) = false)
    (reads : (s.imageReads part (bit (fld d.raw 0 4) 11) (fld d.raw 0x20 8) host).readImage part w.part w.gen (n / 8)
      (bit (fld d.raw 0 4) 11) (fld d.raw 0x20 8) host = .ok img)
    (sound : loadErr img part (bit (s.ctx w.ctx).cfg.toNat 30) = none) :
    s.loadCore n host = ((s.imageReads part (bit (fld d.raw 0 4) 11) (fld d.raw 0x20 8) host).countImage w.ctx w.part (n / 8)
      (bit (fld d.raw 0 4) 11) (fld d.raw 0x20 8) img.length).placeImage n (s.core n) w d img := by
  simp only [State.loadCore, hw, idle, hd, hp, free, reads, sound, Bool.false_eq_true, if_false]
  rfl

/-- At a tile boundary an overlay program whose position lies outside the loaded part takes the overlay that holds it (R211). -/
theorem execOverlayLoad_loads (live : s.errs.halted = false) (hw : (s.core n).work = some w) (hp : s.part w.part = some part) {p : Program}
    (prog : (s.core n).prog = some p) (runs : s.issuing n = true) (boundary : (s.core n).tile = none)
    (outside : (s.core n).wordAt (s.core n).pc = none) (inText : (s.core n).pc < p.codeWords) (overlays : bit p.features 2 = true)
    (free : s.imageHeld part p.iova p.imageBase = false)
    (reads : (s.imageReads part p.iova p.imageBase host).readImage part w.part w.gen (n / 8) p.iova p.imageBase host = .ok img) :
    let b := overlayStart 65536 (imageCode img) 0 (s.core n).pc
    execOverlayLoad n host s =
      .next (((s.imageReads part p.iova p.imageBase host).countImage w.ctx w.part (n / 8) p.iova p.imageBase img.length).setCore n
        { s.core n with
          prog := some { p with codeBase := b, words := imageCode img }
          code := ((imageCode img).drop b).take (overlayLen ((imageCode img).drop b)) }) := by
  have due : (s.issuing n && (s.core n).tile.isNone && ((s.core n).wordAt (s.core n).pc).isNone && decide ((s.core n).pc < p.codeWords) &&
      bit p.features 2) = true := by simp [runs, boundary, outside, inText, overlays]
  simp only [execOverlayLoad, live, prog, hw, due, hp, free, reads, Bool.false_eq_true, if_false, if_true]

/-- Settles O22: a checked image is placed by its geometry, and an overlay is loaded by its lemma. -/
theorem programsLoad : Obligations.ProgramsLoad := by
  intro s n host w part img live hw hp
  constructor
  · rintro d _ _ idle hd free rfl reads sound rfl
    have placed := State.loadCore_image idle hw hd hp free reads sound
    have acts : exec (.programLoad n host) s = .next (s.loadCore n host) := by
      show execProgramLoad n host s = _
      rw [execProgramLoad, live, if_neg Bool.false_ne_true]
    rw [acts, placed]
    exact ⟨fun bad => by rw [State.placeImage_badGeometry bad], fun g fine empty => by rw [State.placeImage_empty fine empty],
      fun fine full => by rw [State.placeImage_loads fine full]⟩
  · rintro p _ _ prog runs boundary outside inText overlays free rfl reads rfl
    exact execOverlayLoad_loads live hw hp prog runs boundary outside inText overlays free reads

end Sys2Proof.Machine
end

section
/-!
PROOF. The messages that create and destroy partitions (R209, R334 to R338, R556, R560, R714).
-/
namespace Sys2Proof.Machine

variable {s : State}

/-- Taking a request changes no limit and no weight of a function (R547, R548). -/
theorem State.taken_bears (s : State) (f op tag g : Nat) (l : List Part) : ((s.taken f op tag).fn g).bears l = (s.fn g).bears l := by
  rw [State.taken, State.fn_setFn]
  split
  case isTrue same =>
    subst same
    rfl
  case isFalse => rfl

/-! PART_CREATE of a sound form by an issuer that may send it (R336, R337, R547). -/

section Create

variable {f tag : Nat} {raw : List Byte} (served : Served s f false false) (short : raw.length ≤ 480)
  (owner : (Issuer.owner (f == 0 || partFnField (slice raw 0 128) == f)).allows f = true)
include served short owner

/-- A record that fails R336 is answered E_PART_CONFIG. -/
theorem execPartCreate_unsound (unsound : s.partOk (slice raw 0 128) = false) :
    execPartCreate f tag raw s = .next ((s.taken f 0x10 tag).reply f 0x10 tag .ePartConfig) := by
  have unsound' : (s.taken f 0x10 tag).partOk (slice raw 0 128) = false := unsound
  rw [execPartCreate, decide_eq_true short, State.request_served served _ _ owner]
  simp only [unsound', Bool.not_false, if_true]

/-- A record beyond its function's limits is answered E_FN_LIMIT. -/
theorem execPartCreate_unborne (sound : s.partOk (slice raw 0 128) = true)
    (unborne : (s.fn (partFnField (slice raw 0 128))).bears
      (partOf (slice raw 0 128) 0 0 [] :: s.held (partFnField (slice raw 0 128))) = false) :
    execPartCreate f tag raw s = .next ((s.taken f 0x10 tag).reply f 0x10 tag .eFnLimit) := by
  have sound' : (s.taken f 0x10 tag).partOk (slice raw 0 128) = true := sound
  have held : (s.taken f 0x10 tag).held (partFnField (slice raw 0 128)) = s.held (partFnField (slice raw 0 128)) := rfl
  rw [execPartCreate, decide_eq_true short, State.request_served served _ _ owner]
  simp only [sound', held, State.taken_bears, unborne, Bool.not_true, Bool.not_false, Bool.false_eq_true, if_false, if_true]

/-- A sound record within the limits creates its partition. -/
theorem execPartCreate_created (sound : s.partOk (slice raw 0 128) = true)
    (borne : (s.fn (partFnField (slice raw 0 128))).bears
      (partOf (slice raw 0 128) 0 0 [] :: s.held (partFnField (slice raw 0 128))) = true)
    {p y : Nat} {reserve : List Nat} (free : s.freePart = some p) (five : s.freeSyncs 5 = y :: reserve) :
    let r := slice raw 0 128
    let x := partOf r p y reserve (placeAll (partOf r 0 0 []).room (elasticOf raw))
    let s1 := (((s.taken f 0x10 tag).allocSyncs (partFnField r) p false [y]).allocSyncs 0 p true reserve).setPart p x
    let t := ((((List.range 16).foldl State.secureSlot (s1.grantPages p x)).clearStall p).clearAcct (0x8000 + 8 * p)).forgetMoved p
    execPartCreate f tag raw s =
      .next (t.reply f 0x10 tag .ok (createReply p (t.gen p) y reserve (placeReport (elasticOf raw) x.placed))) := by
  have sound' : (s.taken f 0x10 tag).partOk (slice raw 0 128) = true := sound
  have held : (s.taken f 0x10 tag).held (partFnField (slice raw 0 128)) = s.held (partFnField (slice raw 0 128)) := rfl
  have free' : (s.taken f 0x10 tag).freePart = some p := free
  have five' : (s.taken f 0x10 tag).freeSyncs 5 = y :: reserve := five
  rw [execPartCreate, decide_eq_true short, State.request_served served _ _ owner]
  simp only [sound', held, State.taken_bears, borne, free', five', Bool.not_true, Bool.false_eq_true, if_false]

end Create

/-- PART_DESTROY by the owner or PF0 begins the Clearing (R556, R560). -/
theorem execPartDestroy_clears {f tag p : Nat} {x : Part} (served : Served s f false false) (hp : s.part p = some x)
    (issuer : f = 0 ∨ x.fn = f) :
    execPartDestroy f tag p s =
      .next (((s.taken f 0x11 tag).triggerClearing p (if x.fn = f then 0 else 1)).reply f 0x11 tag .ok) := by
  have owner : (Issuer.owner (f == 0 || x.fn == f)).allows f = true := by simpa [Issuer.allows] using issuer
  have there : (s.taken f 0x11 tag).part p = some x := hp
  rw [execPartDestroy]
  simp only [hp]
  rw [State.request_served served _ _ owner]
  simp only [there]

/-- Settles O32: a creation record is answered by the first check that it fails, and a sound one creates its partition. -/
theorem partitionMessages : Obligations.PartitionMessages := by
  intro s f tag served
  refine ⟨?long, ?create, ?destroy⟩
  case long =>
    intro raw long
    show execPartCreate f tag raw s = _
    rw [execPartCreate, decide_eq_false (Nat.not_le.2 long), State.request_form served]
  case create =>
    rintro raw _ short rfl issuer
    have owner : (Issuer.owner (f.val == 0 || partFnField (slice raw 0 128) == f.val)).allows f = true := by
      simpa [Issuer.allows] using issuer
    refine ⟨?created, execPartCreate_unsound served short owner, execPartCreate_unborne served short owner⟩
    rintro p y reserve _ _ _ sound borne free five rfl rfl rfl
    exact execPartCreate_created served short owner sound borne free five
  case destroy =>
    intro p x hp issuer
    exact execPartDestroy_clears served hp (issuer.imp_left (congrArg Fin.val))

end Sys2Proof.Machine
end

section
/-!
PROOF. The post engine queues a sound descriptor, starts one function's after another's, and writes records, then the header, then signals
(R243, R244, R251).
-/
namespace Sys2Proof.Machine

variable {s : State} {j : PostJob} {part : Part}

/-! The check of a handed descriptor (R243, R780). -/

/-- The oldest handed descriptor leaves the hand and is refused or queued. -/
theorem execPostDescriptorQueue_handed {js : List PostJob} (live : s.errs.halted = false) (hp : s.part j.part = some part)
    (hand : s.cpu.post.handed = j :: js) (room : s.cpu.post.queue.length < 32) :
    execPostDescriptorQueue s =
      if postOk part j.raw = false then .next ((s.setPost { s.cpu.post with handed := js }).endPost j .ePostDesc)
      else if fld j.raw 0x3E 2 ≠ 0 ∧ s.ownsSync j.part j.gen (fld j.raw 0x3C 2) = false then
        .next ((s.setPost { s.cpu.post with handed := js }).endPost j .eSyncOwner)
      else .next (s.setPost { s.cpu.post with handed := js, queue := s.cpu.post.queue ++ [j] }) := by
  have there : (s.setPost { s.cpu.post with handed := js }).part j.part = some part := hp
  have owns : (s.setPost { s.cpu.post with handed := js }).ownsSync j.part j.gen (fld j.raw 0x3C 2) =
    s.ownsSync j.part j.gen (fld j.raw 0x3C 2) := rfl
  simp only [execPostDescriptorQueue, live, hand, Nat.not_le.2 room, there, owns, Bool.false_eq_true, if_false, Bool.not_eq_true',
    Bool.and_eq_true, bne_iff_ne]
  rfl

/-! The next function in turn (R244). -/

/-- The first index of a range at which a partial function answers. -/
theorem findSome?_range_first {α : Type} {n k : Nat} {F : Nat → Option α} {x : α} (hk : k < n) (hx : F k = some x)
    (before : ∀ i, i < k → F i = none) : (List.range n).findSome? F = some x := by
  induction n with
  | zero => exact absurd hk (Nat.not_lt_zero k)
  | succ n ih =>
    rw [List.range_succ, List.findSome?_append]
    obtain earlier | rfl := Nat.lt_succ_iff_lt_or_eq.1 hk
    · rw [ih earlier, Option.some_or]
    · have none_before : (List.range k).findSome? F = none :=
        List.findSome?_eq_none_iff.2 fun i hi => before i (List.mem_range.1 hi)
      rw [none_before, Option.none_or, List.findSome?_singleton, hx]

/-- Where function f stands in the turn that begins after the function served last. -/
theorem turn_reaches {f : Nat} (hf : f < 32) (last : Nat) : (last + 1 + (f + 31 - last % 32) % 32) % 32 = f := by omega

/-- The turn stops at function f where none before it answers. -/
theorem findSome?_turn {α : Type} {last f : Nat} {F : Nat → Option α} {x : α} (hf : f < 32) (hx : F f = some x)
    (before : ∀ i, i < (f + 31 - last % 32) % 32 → F ((last + 1 + i) % 32) = none) :
    ((List.range 32).map (fun i => (last + 1 + i) % 32)).findSome? F = some x := by
  rw [List.findSome?_map]
  refine findSome?_range_first (Nat.mod_lt _ (by decide)) ?_ before
  rw [Function.comp_apply, turn_reaches hf, hx]

/-- An idle engine starts the first queued descriptor of the function whose turn it is. -/
theorem execPostDescriptorStart_turn {f : Nat} (live : s.errs.halted = false) (idle : s.cpu.post.run = none)
    (free : s.pwr.ledger.hold = false) (hf : f < 32) (first : s.cpu.post.queue.find? (fun x => x.fn == f) = some j)
    (before : ∀ i, i < (f + 31 - s.cpu.post.last % 32) % 32 →
      s.cpu.post.queue.find? (fun x => x.fn == (s.cpu.post.last + 1 + i) % 32) = none) :
    execPostDescriptorStart s =
      .next (s.setPost { s.cpu.post with run := some j, queue := s.cpu.post.queue.erase j, last := f }) := by
  have serves : j.fn = f := by simpa using List.find?_some first
  have turn := findSome?_turn (F := fun g => s.cpu.post.queue.find? (fun x => x.fn == g)) hf first before
  simp only [execPostDescriptorStart, live, idle, free, turn, serves, Bool.false_eq_true, if_false]

/-! The end of the running descriptor (R251, R253). -/

/-- What the engine reads for a descriptor is no longer its own or holds poison. -/
def State.postPoisoned (s : State) (j : PostJob) : Bool :=
  s.stale j.part j.gen || ((postRanges j.raw).take 2).any (fun e => e.2 != 0 && s.poisoned e.1 e.2)

/-- The reads of a descriptor's inputs and the write of its output, counted. -/
def State.accountPost (s : State) (j : PostJob) : State :=
  (((postRanges j.raw).take 2).foldl (fun t e => t.accountStacked (some j.ctx) j.part 2 false e.1 e.2) s).accountStacked
    (some j.ctx) j.part 2 true (fld j.raw 8 8) (64 + ((postRun s j.raw).kept.flatMap PostEntry.bytes).length)

/-- The records are written, then the header. -/
def State.writePost (s : State) (j : PostJob) (x : PostResult) : State :=
  (s.writeMem (fld j.raw 8 8 + 64) (x.kept.flatMap PostEntry.bytes)).writeMem (fld j.raw 8 8) x.header

/-- The running descriptor, none of whose requests a slice holds and whose stacks serve, ends by poison or with its result. -/
theorem execPostDescriptorComplete_runs {t : State} (live : s.errs.halted = false) (hp : s.part j.part = some part)
    (running : s.cpu.post.run = some j) (answered : ∀ e ∈ postRanges j.raw, s.memHeld e.1 e.2 = false)
    (ht : t = s.setPost { s.cpu.post with run := none })
    (serve : (postRanges j.raw).findSome? (fun e => t.stackedErr part j.part j.gen e.1 e.2) = none) :
    execPostDescriptorComplete s =
      if t.postPoisoned j then .next (t.endPost j .eMemPoison)
      else
        let u := (t.accountPost j).writePost j (postRun t j.raw)
        .next ((({ u with draws := u.draws + 1 } : State).signal (fld j.raw 0x3C 2) (fld j.raw 0x3E 2) j.part j.gen).endPost j
          (postRun t j.raw).status) := by
  have unheld : (postRanges j.raw).any (fun e => s.memHeld e.1 e.2) = false := by
    simpa only [List.any_eq_false, Bool.not_eq_true] using answered
  have there : t.part j.part = some part := by rw [ht]; exact hp
  simp only [execPostDescriptorComplete, live, running, unheld, ← ht, there, serve, Bool.false_eq_true, if_false]
  rfl

/-- Settles O27: each clause is a branch of its command's lemma. A descriptor that fails R243 ends with E_POST_DESC whoever owns its
object (log entry 199). -/
theorem postEngineCommands : Obligations.PostEngineCommands := by
  intro s j part live hp
  refine ⟨?queue, fun f idle free hf first before => execPostDescriptorStart_turn live idle free hf first before, ?complete⟩
  case queue =>
    intro js hand room
    have acts : exec .postDescriptorQueue s = _ := execPostDescriptorQueue_handed live hp hand room
    refine ⟨fun sound owned => ?_, fun sound signals foreign => ?_, fun unsound => ?_⟩
    · have allowed : ¬ (fld j.raw 0x3E 2 ≠ 0 ∧ s.ownsSync j.part j.gen (fld j.raw 0x3C 2) = false) := by
        rintro ⟨signals, foreign⟩
        simp [signals, foreign] at owned
      rw [acts, if_neg (by simp [sound]), if_neg allowed]
    · rw [acts, if_neg (by simp [sound]), if_pos ⟨signals, foreign⟩]
    · rw [acts, if_pos unsound]
  case complete =>
    intro t running answered ht serve
    have acts : exec .postDescriptorComplete s = _ := execPostDescriptorComplete_runs live hp running answered ht serve
    have sameGen : t.stale j.part j.gen = s.stale j.part j.gen := by rw [ht]; rfl
    refine ⟨fun bad => ?poison, ?written⟩
    case poison =>
      have poisoned : t.postPoisoned j = true := by rwa [State.postPoisoned, Bool.or_eq_true, sameGen]
      rw [acts, if_pos poisoned]
    case written =>
      rintro _ _ _ current sound rfl rfl rfl
      have clean : t.postPoisoned j = false := by rw [State.postPoisoned, sameGen, current, sound, Bool.or_self]
      rw [acts, clean]
      rfl

end Sys2Proof.Machine
end

section
/-!
PROOF. Attention and serving (R256, R260, R263, R289 to R291, R363, R364, R369, R370, R372): the messages that register and write, the
start and the end of a step, and a block tag that does not match.
-/
namespace Sys2Proof.Machine

variable {s t : State}

/-! Fields of a sequence's entry (R21, R364). -/

theorem toLE_length (n x : Nat) : (toLE n x).length = n := by
  induction n generalizing x with
  | zero => rfl
  | succ n ih => rw [toLE, List.length_cons, ih]

/-- The bytes of a number spell it, modulo what they can hold (R21). -/
theorem leNat_toLE (n x : Nat) : leNat (toLE n x) = x % 256 ^ n := by
  induction n generalizing x with
  | zero => rw [pow_zero, Nat.mod_one]; rfl
  | succ n ih =>
    rw [toLE, leNat, ih, BitVec.toNat_ofNat, pow_succ' 256, Nat.mod_mul]

/-- A number put at the start of a record is read there, modulo what its bytes can hold. -/
theorem fld_putBytes_toLE (bs : List Byte) (n x : Nat) : fld (putBytes bs 0 (toLE n x)) 0 n = x % 256 ^ n := by
  rw [fld, putBytes, List.take_zero, List.nil_append, List.drop_zero, List.take_left' (toLE_length n x), leNat_toLE]

theorem seqState_eq (r : List Byte) : seqState r = fld r 0 4 % 8 := rfl

/-- A marked sequence is FAULTED, which is 3 (Table 6.6). -/
theorem State.seqState_markFaulted (s : State) (i : Nat) : seqState ((s.markFaulted i).seq i).raw = 3 := by
  rw [State.markFaulted, State.seq_setSeq, if_pos rfl, seqState_eq, fld_putBytes_toLE, seqState_eq]
  omega

/-! Messages about attention records, page lists, model slots and sequences (R256, R263, R363, R364, R372). -/

/-- A served message of sound form from the owner of what it names runs on the state in which it has been taken. -/
theorem State.request_owned {f op tag : Nat} {early ro ok : Bool} (served : Served s f early ro) (owned : ok = true)
    (k : State → State) : s.request f op tag early ro (.owner ok) true k = .next (k (s.taken f op tag)) :=
  State.request_served served _ k owned

section Messages

variable {f tag p : Nat} {part : Part} (served : Served s f false false) (owned : s.ownsPart f p = true)
include served owned

/-- A sound attention record is registered under its POOL_BASE, with its PAGE_BYTES and an empty free list (R256, R257; log entry 185). -/
theorem execAttnRegister_sound (hp : s.part p = some part) {raw r : List Byte} (sound : attnOk part (slice raw 0 64) = true)
    (hr : r = putBytes (slice raw 0 64) 0x1C (toLE 4 (attnPageBytes (slice raw 0 64)))) :
    execAttnRegister f tag p raw s = .next (({ s.taken f 0x40 tag with work := { s.work with
      attn := Tbl.put s.work.attn (fld r 0 8) { raw := r, part := p, head := 0, len := 0 } } } : State).reply f 0x40 tag .ok r) := by
  have there : (s.taken f 0x40 tag).part p = some part := hp
  rw [execAttnRegister, State.request_owned served owned]
  simp only [there, sound, Bool.not_true, Bool.false_eq_true, if_false, hr]
  rfl

/-- Pages within the pool that its list has room for are appended (R263). -/
theorem execKvPages_within {slot first count : Nat} {a : AttnReg} (registered : s.modelAttn p slot = some a)
    (named : first + count ≤ attnPool a.raw) (room : a.len + count ≤ attnPool a.raw) :
    execKvPages f tag p slot first count s =
      .next (((s.taken f 0x47 tag).freeListAppend a (rangeFrom first count)).reply f 0x47 tag .ok) := by
  have registered' : (s.taken f 0x47 tag).modelAttn p slot = some a := registered
  have fits : ¬ (attnPool a.raw < first + count ∨ attnPool a.raw < a.len + count) := by omega
  rw [execKvPages, State.request_owned served owned]
  simp only [registered', fits, if_false]

/-- A sound serving record is stored, and the step number restarts at 0 (R363, Table 8.11). -/
theorem execServeRegister_sound (hp : s.part p = some part) {raw : List Byte} (sound : s.servingOk p part (slice raw 0 32) = true) :
    execServeRegister f tag p raw s =
      .next (((s.taken f 0x43 tag).setServing p { s.serving p with raw := some (slice raw 0 32), stepNo := 0 }).reply f 0x43 tag .ok) := by
  have there : (s.taken f 0x43 tag).part p = some part := hp
  have sound' : (s.taken f 0x43 tag).servingOk p part (slice raw 0 32) = true := sound
  rw [execServeRegister, State.request_owned served owned]
  simp only [there, sound', Bool.not_true, Bool.false_eq_true, if_false]
  rfl

/-- A model slot whose records lie in the partition's pages is stored (R363). -/
theorem execModelSlot_sound (hp : s.part p = some part) {slot : Nat} {raw : List Byte}
    (record : part.ownsStacked (fld (slice raw 0 32) 0 8) 64 = true) (template : part.ownsStacked (fld (slice raw 0 32) 8 8) 320 = true)
    (reserved : zeroBytes (slice raw 0 32) 0x18 8 = true) :
    execModelSlot f tag p slot raw s = .next (((s.taken f 0x44 tag).setServing p
      { s.serving p with models := Tbl.put (s.serving p).models slot (slice raw 0 32) }).reply f 0x44 tag .ok) := by
  have there : (s.taken f 0x44 tag).part p = some part := hp
  rw [execModelSlot, State.request_owned served owned]
  simp only [there, record, template, reserved, Bool.and_self, if_true]
  rfl

end Messages

/-- The host's entry of a sequence in an open step waits in it; another is applied at once (R289, R372). -/
theorem execSeqWrite_owned {f tag ix : Nat} (served : Served s f false false) (named : ix < 2048) {raw r : List Byte} (hr : r = slice raw 0 48)
    (owned : s.ownsPart f (seqPart r) = true) (free : seqState (s.seq ix).raw = 0 ∨ s.ownsPart f (seqPart (s.seq ix).raw) = true)
    (sound : seqOk r = true)
    (unheld : seqState (s.seq ix).raw ≠ 0 → seqState r = 0 ∨ seqState r = 4 → s.seqHeld (s.seq ix).raw = false) :
    execSeqWrite f tag ix raw s = .next (State.reply
      (if s.inStep (seqPart (s.seq ix).raw) ix = true
        then (s.taken f 0x45 tag).setSeq ix { s.seq ix with pendingRaw := (s.seq ix).pendingRaw ++ [r] }
        else (s.taken f 0x45 tag).applySeq ix r) f 0x45 tag .ok) := by
  have mine : (s.ownsPart f (seqPart r) && (seqState (s.seq ix).raw == 0 || s.ownsPart f (seqPart (s.seq ix).raw))) = true := by
    simpa [owned] using free
  have acts : ¬ ((seqState (s.seq ix).raw != 0 && (seqState r == 0 || seqState r == 4) && s.seqHeld (s.seq ix).raw) = true) := by
    simp only [Bool.and_eq_true, Bool.or_eq_true, bne_iff_ne, beq_iff_eq]
    rintro ⟨⟨old, ends⟩, held⟩
    rw [unheld old ends] at held
    cases held
  subst hr
  simp only [execSeqWrite, mine, Bool.true_and, acts, sound, named, decide_true]
  rw [State.request_owned served rfl]
  rfl

/-! Forming a step (R366, R372). -/

section Steps

variable {p : Nat} {part : Part} {r : List Byte} (ready : s.stepRecord p = some (part, r))
include ready

/-- Where a step may start, no slice holds what the step builder reads (R303, R317). -/
theorem State.stepHeld_of_stepRecord : s.stepHeld p = false := by
  unfold State.stepRecord at ready
  split at ready
  · split at ready
    case isTrue may =>
      simp only [Bool.and_eq_true, Bool.not_eq_true'] at may
      exact may.2
    case isFalse => cases ready
  · cases ready

/-- In STEP_MODE 0 the step builder forms a step that may start (R366, R372). -/
theorem execStepStart_forms (mode : bit (fld r 0 4) 12 = false) : execStepStart p s = .next (s.formStep p part r) := by
  simp only [execStepStart, ready, mode, Bool.false_eq_true, if_false]

/-- In STEP_MODE 1 the STEP message forms it (R372). -/
theorem execStep_forms {f tag : Nat} (served : Served s f false false) (owned : s.ownsPart f p = true) (mode : bit (fld r 0 4) 12 = true) :
    execStep f tag p s = .next (((s.taken f 0x46 tag).formStep p part r).reply f 0x46 tag .ok) := by
  have ready' : (s.taken f 0x46 tag).stepRecord p = some (part, r) := ready
  have unheld : ¬ ((s.ownsPart f p && s.stepHeld p) = true) := by simp [State.stepHeld_of_stepRecord ready]
  rw [execStep, if_neg unheld, State.request_owned served owned]
  simp only [ready', mode, if_true]

end Steps

/-! What writes records and returns pages leaves the serving state as it is (R289, R369). -/

theorem State.writeRecord_serving (s : State) (n : Nat) (r : Rec) (now : Bool) : (s.writeRecord n r now).work.serving = s.work.serving := by
  obtain ⟨_, _, _, _, _, e⟩ := s.writeRecord_rest n r now
  rw [e]

theorem State.seqRecord_serving (s : State) (i : Nat) (st : Status) : (s.seqRecord i st).work.serving = s.work.serving :=
  State.writeRecord_serving ..

theorem State.releaseSlot_serving (s : State) (i : Nat) : (s.releaseSlot i).work.serving = s.work.serving := rfl

theorem State.endList_serving (p : Nat) (part : Part) (s : State) (l : WorkList) :
    (s.endList p part l).work.serving = s.work.serving := by
  have records (xs : List LenEntry) :
      (xs.foldl (fun s x => (s.releaseSlot x.seq).seqRecord x.seq .eScaleSkew) s).work.serving = s.work.serving :=
    foldl_frame (fun t : State => t.work.serving) _ (fun _ _ => (State.seqRecord_serving ..).trans (State.releaseSlot_serving ..)) xs s
  unfold State.endList
  dsimp only
  split
  · obtain ⟨_, _, e⟩ := State.event_rest _ part.fn .partitionFault (toLE 4 (p + Status.eScaleSkew.num * 2 ^ 16)) false
    rw [e]
    exact records _
  · exact records _

theorem State.partRead_serving (s : State) (p a n : Nat) : (s.partRead p a n).work.serving = s.work.serving := by
  obtain ⟨_, e⟩ := s.accountStacked_rest none p 2 false a n
  rw [State.partRead, e]

theorem State.sliceWrite_serving (s : State) (p gen a : Nat) (bs : List Byte) :
    (s.sliceWrite p gen a bs).work.serving = s.work.serving := by
  unfold State.sliceWrite
  split
  · rfl
  · obtain ⟨_, _, e⟩ := (s.accountStacked none p 2 true a bs.length).writeMem_rest a bs
    obtain ⟨_, k⟩ := s.accountStacked_rest none p 2 true a bs.length
    rw [e, k]

theorem State.partWrite_serving (s : State) (p a : Nat) (bs : List Byte) : (s.partWrite p a bs).work.serving = s.work.serving := by
  unfold State.partWrite
  split
  · exact State.sliceWrite_serving ..
  · rfl

theorem State.freeListAppend_serving (s : State) (a : AttnReg) (ids : List Nat) :
    (s.freeListAppend a ids).work.serving = s.work.serving :=
  foldl_frame (fun t : State => t.work.serving) _ (fun _ _ => State.partWrite_serving ..) _ s

theorem State.returnPages_serving (s : State) (r : List Byte) : (s.returnPages r).work.serving = s.work.serving := by
  unfold State.returnPages
  dsimp only
  split
  · rfl
  · split
    · rfl
    · simp only [State.partWrite_serving, State.freeListAppend_serving, State.partRead_serving]

/-- Two states agree in the open step of every partition: its lists and its number. -/
structure SameSteps (s t : State) : Prop where
  lists : ∀ p, (t.serving p).lists = (s.serving p).lists
  stepNo : ∀ p, (t.serving p).stepNo = (s.serving p).stepNo

theorem SameSteps.trans {u : State} (h : SameSteps s t) (k : SameSteps t u) : SameSteps s u :=
  ⟨fun p => (k.lists p).trans (h.lists p), fun p => (k.stepNo p).trans (h.stepNo p)⟩

theorem SameSteps.of_serving (h : t.work.serving = s.work.serving) : SameSteps s t := by
  have same (p : Nat) : t.serving p = s.serving p := by rw [State.serving, State.serving, h]
  exact ⟨fun p => by rw [same], fun p => by rw [same]⟩

/-- Other marks of what has been reported are no change of the open step. -/
theorem State.setServing_reported_sameSteps (s : State) (p : Nat) (x : Tbl Bool) :
    SameSteps s (s.setServing p { s.serving p with reported := x }) := by
  constructor <;>
  · intro q
    rw [State.serving_setServing]
    split
    case isTrue same => rw [same]
    case isFalse => rfl

/-- The host's write over an entry leaves the open steps as they are (R289). -/
theorem State.applySeq_sameSteps (s : State) (i : Nat) (r : List Byte) : SameSteps s (s.applySeq i r) := by
  unfold State.applySeq
  dsimp only
  generalize hu : (if ((seqState r == 0 || seqState r == 4) && seqState (s.seq i).raw != 0) = true then s.returnPages (s.seq i).raw else s) = u
  have pages : SameSteps s u := by
    rw [← hu]
    split
    · exact .of_serving (State.returnPages_serving ..)
    · exact .of_serving rfl
  refine pages.trans ?_
  split
  · exact (u.setServing_reported_sameSteps ..).trans (.of_serving rfl)
  · exact .of_serving rfl

theorem State.applyPending_sameSteps (s : State) (p : Nat) : SameSteps s (s.applyPending p) :=
  foldl_keeps (SameSteps s) _ (fun _ _ k => k.trans (State.applySeq_sameSteps ..)) _ (.of_serving rfl)

/-- What stands of a partition's step when its last list is done: no list, and the next number (R372). -/
theorem State.serving_endStep (s : State) (p : Nat) (part : Part) :
    ((s.endStep p part).serving p).lists = [] ∧ ((s.endStep p part).serving p).stepNo = ((s.serving p).stepNo + 1) % 2 ^ 32 := by
  have ended : SameSteps s ((s.serving p).lists.foldl (State.endList p part) s) :=
    .of_serving (foldl_frame (fun t : State => t.work.serving) _ (State.endList_serving p part) _ s)
  rw [State.endStep, (State.applyPending_sameSteps ..).lists, (State.applyPending_sameSteps ..).stepNo, State.serving_setServing,
    if_pos rfl, ended.stepNo]
  exact ⟨rfl, rfl⟩

/-! The end of a work list (R369, R370). -/

/-- The oldest list whose record is written ends its sequences with the first status that applies, and the last list ends the step (R298,
R317, R369, R372). -/
theorem execWorkListComplete_oldest {p : Nat} {part : Part} {l : WorkList} {st : Status} {u v : State} (live : s.errs.halted = false)
    (hp : s.part p = some part) (oldest : (s.serving p).lists.find? (fun l => l.done.isSome && !l.updated) = some l)
    (results : s.memHeld l.resultDpa (8 * l.entries.length) = false) (pages : ∀ e ∈ s.pendingSeqs p, s.seqHeld (s.seq e.1).raw = false)
    (hst : st = if s.stacksOn l.resultDpa (8 * l.entries.length) = false then .eStackOff
      else if s.poisoned l.resultDpa (8 * l.entries.length) = true then .eMemPoison else l.done.getD .ok)
    (hu : u = s.setServing p { s.serving p with lists := (s.serving p).lists.map (fun m => if m = l then { l with updated := true } else m) })
    (hv : v = (l.entries.zip (List.range l.entries.length)).foldl (State.endSeq p part l st) u) :
    execWorkListComplete p s = .next (if (v.serving p).lists.all (fun m => m.updated) = true then v.endStep p part else v) := by
  have unheld : ¬ ((s.memHeld l.resultDpa (8 * l.entries.length) || (s.pendingSeqs p).any (fun e => s.seqHeld (s.seq e.1).raw)) = true) := by
    simpa [results] using pages
  simp only [execWorkListComplete, live, hp, oldest, unheld, Bool.false_eq_true, if_false, Bool.not_eq_true', ← hst, ← hu, ← hv]

/-! A block tag that does not match (R260, R290, R291). -/

/-- The signals that an aborted tile would have released, added to the objects that its partition owns. -/
def State.releaseAll (s : State) (w : CoreWork) (signals : List (Nat × Nat)) : State :=
  signals.foldl (fun s e => if s.ownsSync w.part w.gen e.1 = true then s.signal e.1 e.2 w.part w.gen else s) s

section TagMismatch

variable {n seq out len : Nat} {signals : List (Nat × Nat)} {w : CoreWork} {l : WorkList} {u : State}
  (live : s.errs.halted = false) (hw : (s.core n).work = some w)
  (hl : (s.serving w.part).lists.find? (fun l => l.ctx == w.ctx && l.idx == w.idx) = some l)
include live hw hl

/-- In the cache: the tile aborts, the item reads zeros, its sequence is FAULTED and the event is counted (R260, R290, log entry 54). -/
theorem execCacheTagMismatch_cache (hit : s.cacheHit n w.part l seq out len = true) (released : (s.tilePlan n).releases signals = true)
    (hu : u = ((s.abortTile n .eScaleSkew).zeroItem w.part out len).releaseAll w signals) :
    execCacheTagMismatch n seq out len signals false s = .next ((((u.setServing w.part { u.serving w.part with
      lists := (u.serving w.part).lists.map (fun m => if m = l then { l with skewed := l.skewed ++ [seq] } else m),
      skews := (u.serving w.part).skews + 1 }).markFaulted seq).forgiveSkew n w).resumeAfterTile n) := by
  simp only [execCacheTagMismatch, live, hw, hl, hit, released, hu, Bool.false_eq_true, if_false, Bool.not_true, Bool.or_self]
  rfl

/-- In a weight, scale or codebook operand: the whole list is marked (R291). -/
theorem execCacheTagMismatch_weight (stopped : (s.core n).run = .stopped .eScaleSkew) (released : (s.core n).plan.releases signals = true)
    (hu : u = s.releaseAll w signals) :
    execCacheTagMismatch n seq out len signals true s = .next (((u.setServing w.part { u.serving w.part with
      lists := (u.serving w.part).lists.map (fun m => if m = l then { l with weightSkew := true } else m) }).forgiveSkew n w).resumeAfterTile n) := by
  simp only [execCacheTagMismatch, live, hw, hl, stopped, released, hu, Bool.false_eq_true, if_false, Bool.not_true, Bool.or_self,
    beq_self_eq_true, if_true]
  rfl

end TagMismatch

/-- Settles O39: each clause is a case of its command's lemma. A registration is known by its POOL_BASE (log entry 185); the place and the
signals of a tag mismatch are operands, and the core goes on after the tile's COMMIT (log entry 54). -/
theorem servingMessages : Obligations.ServingMessages := by
  refine ⟨fun s f tag p part served owned hp => ⟨?attn, ?pages, ?serve, ?model, ?seq, ?step⟩, fun s live => ⟨?complete, ?mismatch⟩⟩
  case attn => exact fun raw r sound hr => execAttnRegister_sound served owned hp sound hr
  case pages => exact fun slot first count a registered named room => execKvPages_within served owned registered named room
  case serve => exact fun raw sound => execServeRegister_sound served owned hp sound
  case model =>
    rintro slot raw _ rfl record template reserved
    exact execModelSlot_sound served owned hp record template reserved
  case seq =>
    intro ix raw r named hr new old sound unheld
    have acts : exec (.seqWrite f tag ix raw) s = _ := execSeqWrite_owned served named hr new old sound unheld
    refine ⟨fun outside => ?_, fun inside => ?_⟩
    · rw [acts, if_neg (by simp [outside])]
    · rw [acts, if_pos inside]
  case step => exact fun r ready => ⟨execStepStart_forms ready, execStep_forms ready served owned⟩
  case complete =>
    rintro p part l st u v hp oldest ⟨results, pages⟩ hst hu hv
    have acts : exec (.workListComplete p) s = _ := execWorkListComplete_oldest live hp oldest results pages hst hu hv
    refine ⟨fun ⟨m, hm, going⟩ => ?_, fun done => ⟨?_, v.serving_endStep p part⟩⟩
    · rw [acts, if_neg]
      simp only [List.all_eq_true]
      exact fun all => absurd (all m hm) (by simp [going])
    · rw [acts, if_pos (List.all_eq_true.2 done)]
  case mismatch =>
    intro n seq out len signals w l u1 u hw hl hu
    refine ⟨fun hit released hu1 => ⟨?_, fun x => x.seqState_markFaulted seq⟩, fun stopped released hu1 => ?_⟩
    · subst hu1
      exact execCacheTagMismatch_cache live hw hl hit released hu
    · subst hu1
      exact execCacheTagMismatch_weight live hw hl stopped released hu

end Sys2Proof.Machine
end

section
/-!
PROOF. Writes to device memory (R307, R310, R314, R703): which bytes and which poison a write touches.
-/
namespace Sys2Proof.Machine

variable {s : State} {g a : Nat} {bs : List Byte} {q : Nat}

/-! The part of a write that falls into one poison unit. -/

/-- The first byte of a write that lies in unit q of g bytes, or behind it. -/
def unitFrom (g a q : Nat) : Nat := max a (q * g)

/-- How many bytes of a write of n bytes lie in unit q. -/
def unitLen (g a n q : Nat) : Nat := min (a + n) ((q + 1) * g) - unitFrom g a q

/-- The bytes that a write puts into unit q. -/
def unitBytes (g a : Nat) (bs : List Byte) (q : Nat) : List Byte := (bs.drop (unitFrom g a q - a)).take (unitLen g a bs.length q)

/-- The bytes of a write land in unit q. -/
def State.landUnit (s : State) (g a : Nat) (bs : List Byte) (q : Nat) : State :=
  { s with dmem := Memory.writeN s.undef s.dmem (unitFrom g a q) (unitBytes g a bs q) }

theorem State.writeUnit_clean (h : s.poisoned (q * g) g = false) : s.writeUnit g a bs q = s.landUnit g a bs q := by
  simp only [State.writeUnit, h, Bool.false_eq_true, if_false]
  rfl

theorem State.writeUnit_whole (h : s.poisoned (q * g) g = true) (whole : unitLen g a bs.length q = g) :
    s.writeUnit g a bs q = (s.landUnit g a bs q).clearPoison (q * g) g := by
  simp only [unitLen, unitFrom] at whole
  simp only [State.writeUnit, h, whole, if_true, State.landUnit, unitBytes, unitLen, unitFrom]
  rfl

theorem State.writeUnit_partial (h : s.poisoned (q * g) g = true) (short : unitLen g a bs.length q ≠ g) : s.writeUnit g a bs q = s := by
  simp only [unitLen, unitFrom] at short
  simp only [State.writeUnit, h, short, if_true, if_false]

/-- What a unit makes of its part of a write (R314): all land, all land and the poison goes, or none land. -/
theorem State.writeUnit_cases (s : State) (g a : Nat) (bs : List Byte) (q : Nat) :
    s.writeUnit g a bs q = s.landUnit g a bs q ∨ s.writeUnit g a bs q = (s.landUnit g a bs q).clearPoison (q * g) g ∨
      s.writeUnit g a bs q = s := by
  cases h : s.poisoned (q * g) g
  case false => exact .inl (writeUnit_clean h)
  case true =>
    by_cases whole : unitLen g a bs.length q = g
    · exact .inr (.inl (writeUnit_whole h whole))
    · exact .inr (.inr (writeUnit_partial h whole))

/-! Bytes. -/

/-- A byte outside the range written, or outside the unit, reads as before. -/
theorem State.read_landUnit_away {x : Nat} (away : x < a ∨ a + bs.length ≤ x ∨ x < q * g ∨ (q + 1) * g ≤ x) :
    Memory.read (s.landUnit g a bs q).undef (s.landUnit g a bs q).dmem x = Memory.read s.undef s.dmem x := by
  have outside : ¬ (unitFrom g a q ≤ x ∧ x < unitFrom g a q + (unitBytes g a bs q).length) := by
    simp only [unitBytes, unitLen, unitFrom, List.length_take, List.length_drop]
    omega
  rw [State.landUnit, Memory.read_writeN, if_neg outside]

theorem State.read_writeUnit_away {x : Nat} (away : x < a ∨ a + bs.length ≤ x ∨ x < q * g ∨ (q + 1) * g ≤ x) :
    Memory.read (s.writeUnit g a bs q).undef (s.writeUnit g a bs q).dmem x = Memory.read s.undef s.dmem x := by
  rcases s.writeUnit_cases g a bs q with e | e | e
  · rw [e, read_landUnit_away away]
  · rw [e]
    exact read_landUnit_away away
  · rw [e]

/-- A byte outside the range written reads as before, whatever is poisoned (R307). -/
theorem State.read_writeMem_away (s : State) {x : Nat} (away : x < a ∨ a + bs.length ≤ x) :
    Memory.read (s.writeMem a bs).undef (s.writeMem a bs).dmem x = Memory.read s.undef s.dmem x := by
  unfold State.writeMem
  split
  · exact (Memory.read_writeN ..).trans (if_neg (by omega))
  · exact foldl_frame (fun t : State => Memory.read t.undef t.dmem x) _
      (fun t r => read_writeUnit_away (by omega)) _ s

/-! Poison. -/

/-- A range touches an entry of the poison table. -/
def State.listsPoison (s : State) (x n : Nat) : Bool := s.poison.any (fun e => e.2 && decide (x / 8 ≤ e.1) && decide (e.1 * 8 < x + n))

theorem State.poisoned_eq (s : State) (x n : Nat) : s.poisoned x n = (s.listsPoison x n || s.deadHit x n || s.retiredHit x n) := rfl

theorem State.listsPoison_iff (s : State) (x n : Nat) :
    s.listsPoison x n = true ↔ ∃ k, (k, true) ∈ s.poison ∧ x / 8 ≤ k ∧ k * 8 < x + n := by
  simp only [State.listsPoison, List.any_eq_true, Bool.and_eq_true, decide_eq_true_eq]
  constructor
  · rintro ⟨⟨k, v⟩, mem, ⟨rfl, above⟩, below⟩
    exact ⟨k, mem, above, below⟩
  · rintro ⟨k, mem, above, below⟩
    exact ⟨_, mem, ⟨rfl, above⟩, below⟩

theorem State.mem_clearPoison (s : State) (x n : Nat) (e : Nat × Bool) :
    e ∈ (s.clearPoison x n).poison ↔ e ∈ s.poison ∧ ¬ (x / 8 ≤ e.1 ∧ e.1 * 8 < x + n) := by
  simp only [State.clearPoison, List.mem_filter, Bool.not_eq_true', Bool.and_eq_false_iff, decide_eq_false_iff_not]
  tauto

/-- Poison cleared from a range is gone there; a dead pseudo-channel and a retired page stay poisoned (R703). -/
theorem State.poisoned_clearPoison_same (s : State) (x n : Nat) :
    (s.clearPoison x n).poisoned x n = (s.deadHit x n || s.retiredHit x n) := by
  have gone : (s.clearPoison x n).listsPoison x n = false := by
    rw [Bool.eq_false_iff, ne_eq, listsPoison_iff]
    rintro ⟨k, mem, inside⟩
    exact ((s.mem_clearPoison ..).1 mem).2 inside
  rw [poisoned_eq, gone]
  rfl

/-- Poison cleared from one line is no change of another. -/
theorem State.poisoned_clearPoison_line (s : State) {r : Nat} (h : r ≠ q) :
    (s.clearPoison (r * 64) 64).poisoned (64 * q) 64 = s.poisoned (64 * q) 64 := by
  have same : (s.clearPoison (r * 64) 64).listsPoison (64 * q) 64 = s.listsPoison (64 * q) 64 := by
    rw [Bool.eq_iff_iff, listsPoison_iff, listsPoison_iff]
    refine exists_congr fun k => and_congr_left fun inside => ?_
    rw [mem_clearPoison, and_iff_left (by omega)]
  rw [poisoned_eq, same]
  rfl

/-- Clearing poison adds none. -/
theorem State.poisoned_clearPoison_false {x n : Nat} (h : s.poisoned x n = false) (y m : Nat) :
    (s.clearPoison y m).poisoned x n = false := by
  simp only [poisoned_eq, Bool.or_eq_false_iff] at h ⊢
  obtain ⟨⟨unlisted, alive⟩, kept⟩ := h
  refine ⟨⟨?_, alive⟩, kept⟩
  rw [Bool.eq_false_iff, ne_eq, listsPoison_iff] at unlisted ⊢
  rintro ⟨k, mem, inside⟩
  exact unlisted ⟨k, ((s.mem_clearPoison ..).1 mem).1, inside⟩

/-- A write adds no poison. -/
theorem State.poisoned_writeMem_false {x n : Nat} (h : s.poisoned x n = false) : (s.writeMem a bs).poisoned x n = false := by
  unfold State.writeMem
  split
  · exact h
  · refine foldl_keeps (fun t : State => t.poisoned x n = false) _ (fun t r unhit => ?_) _ h
    rcases t.writeUnit_cases (poisonUnit a) a bs r with e | e | e <;> rw [e]
    · exact unhit
    · exact poisoned_clearPoison_false (s := t.landUnit ..) unhit _ _
    · exact unhit

/-- What has no spare or is retired stays poisoned whatever is written (R703). -/
theorem State.poisoned_writeMem_lost {x n : Nat} (lost : s.deadHit x n = true ∨ s.retiredHit x n = true) :
    (s.writeMem a bs).poisoned x n = true := by
  obtain ⟨d, p, e⟩ := s.writeMem_rest a bs
  rw [e, poisoned_eq, Bool.or_assoc, Bool.or_eq_true, Bool.or_eq_true]
  exact .inr lost

/-! A line of stacked memory under a write (R314). -/

/-- A line reads the same in two states: its bytes, and what poisons it. -/
structure SameLine (q : Nat) (s t : State) : Prop where
  bytes : t.readMem (64 * q) 64 = s.readMem (64 * q) 64
  poisoned : t.poisoned (64 * q) 64 = s.poisoned (64 * q) 64
  lost : (t.deadHit (64 * q) 64 || t.retiredHit (64 * q) 64) = (s.deadHit (64 * q) 64 || s.retiredHit (64 * q) 64)

theorem SameLine.refl (q : Nat) (s : State) : SameLine q s s := ⟨rfl, rfl, rfl⟩

theorem SameLine.trans {t u : State} (h : SameLine q s t) (k : SameLine q t u) : SameLine q s u :=
  ⟨k.bytes.trans h.bytes, k.poisoned.trans h.poisoned, k.lost.trans h.lost⟩

/-- Bytes that land in another line change nothing of a line. -/
theorem State.landUnit_sameLine {r : Nat} (h : r ≠ q) : SameLine q s (s.landUnit 64 a bs r) := by
  have bytes (i : Nat) (hi : i ∈ List.range 64) : Memory.read (s.landUnit 64 a bs r).undef (s.landUnit 64 a bs r).dmem (64 * q + i) =
      Memory.read s.undef s.dmem (64 * q + i) := by
    rw [List.mem_range] at hi
    exact read_landUnit_away (by omega)
  exact ⟨List.map_congr_left bytes, rfl, rfl⟩

/-- What a write does in another line changes nothing of a line. -/
theorem State.writeUnit_sameLine {r : Nat} (h : r ≠ q) : SameLine q s (s.writeUnit 64 a bs r) := by
  rcases s.writeUnit_cases 64 a bs r with e | e | e <;> rw [e]
  · exact landUnit_sameLine h
  · exact (landUnit_sameLine h).trans ⟨rfl, poisoned_clearPoison_line _ h, rfl⟩
  · exact .refl q s

theorem State.foldl_writeUnit_sameLine {l : List Nat} (h : q ∉ l) : SameLine q s (l.foldl (fun t r => t.writeUnit 64 a bs r) s) :=
  List.foldlRecOn l _ (motive := SameLine q s) (.refl q s)
    (fun _ same _ mem => same.trans (writeUnit_sameLine fun e => h (e ▸ mem)))

/-- A write to stacked memory goes line by line where poison is held. -/
theorem State.writeMem_lines (fits : a + bs.length ≤ stackedEnd) (h : s.poison ≠ []) :
    s.writeMem a bs = (rangeFrom (a / 64) ((a + bs.length + 63) / 64 - a / 64)).foldl (fun t r => t.writeUnit 64 a bs r) s := by
  have units : s.writeMem a bs = (rangeFrom (a / poisonUnit a) ((a + bs.length + poisonUnit a - 1) / poisonUnit a - a / poisonUnit a)).foldl
      (fun t r => t.writeUnit (poisonUnit a) a bs r) s := if_neg (by simpa using h)
  rw [units]
  by_cases inside : a < stackedEnd
  · rw [show poisonUnit a = 64 from if_pos inside, show a + bs.length + 64 - 1 = a + bs.length + 63 by omega]
  · rw [show poisonUnit a = 8 from if_neg inside]
    simp only [stackedEnd] at fits inside
    rw [show (a + bs.length + 8 - 1) / 8 - a / 8 = 0 by omega, show (a + bs.length + 63) / 64 - a / 64 = 0 by omega]
    simp only [rangeFrom, List.range_zero, List.map_nil, List.foldl_nil]

theorem rangeFrom_split {lo n : Nat} (above : lo ≤ q) (below : q < lo + n) :
    rangeFrom lo n = rangeFrom lo (q - lo) ++ q :: rangeFrom (q + 1) (lo + n - (q + 1)) := by
  rw [show n = q - lo + (1 + (lo + n - (q + 1))) by omega, rangeFrom_add, rangeFrom_add, show lo + (q - lo) = q by omega,
    show lo + (q - lo + (1 + (lo + n - (q + 1)))) - (q + 1) = lo + n - (q + 1) by omega]
  rfl

/-- A line that only a part of is written keeps its bytes and its poison (R314). -/
theorem State.writeMem_partial_sameLine (fits : a + bs.length ≤ stackedEnd) (h : s.poison ≠ [])
    (bad : s.poisoned (64 * q) 64 = true) (short : 64 * q < a ∨ a + bs.length < 64 * q + 64) : SameLine q s (s.writeMem a bs) := by
  rw [writeMem_lines fits h]
  refine foldl_keeps (SameLine q s) _ (fun t r same => ?_) _ (.refl q s)
  by_cases hr : r = q
  · have stays : t.writeUnit 64 a bs r = t := by
      refine writeUnit_partial (by rw [hr, Nat.mul_comm, same.poisoned, bad]) ?_
      simp only [unitLen, unitFrom, hr]
      omega
    rw [stays]
    exact same
  · exact same.trans (writeUnit_sameLine hr)

/-- The bytes that a write puts into a line that it covers are the line's. -/
theorem State.readMem_landUnit_whole (start : a ≤ 64 * q) (stop : 64 * q + 64 ≤ a + bs.length) :
    (s.landUnit 64 a bs q).readMem (64 * q) 64 = (bs.drop (64 * q - a)).take 64 := by
  have lo : unitFrom 64 a q = 64 * q := by simp only [unitFrom]; omega
  have data : unitBytes 64 a bs q = (bs.drop (64 * q - a)).take 64 := by
    rw [unitBytes, unitLen, lo, show min (a + bs.length) ((q + 1) * 64) - 64 * q = 64 by omega]
  have len : ((bs.drop (64 * q - a)).take 64).length = 64 := by
    rw [List.length_take, List.length_drop]
    omega
  have back := Memory.readN_writeN s.undef s.dmem (64 * q) ((bs.drop (64 * q - a)).take 64)
  rw [len] at back
  rw [State.landUnit, State.readMem, lo, data, back]

/-- A poisoned line that is written whole holds the bytes written, and is poisoned only where it is lost (R314, R703). -/
theorem State.writeMem_whole (fits : a + bs.length ≤ stackedEnd) (h : s.poison ≠ []) (bad : s.poisoned (64 * q) 64 = true)
    (start : a ≤ 64 * q) (stop : 64 * q + 64 ≤ a + bs.length) :
    (s.writeMem a bs).readMem (64 * q) 64 = (bs.drop (64 * q - a)).take 64 ∧
    (s.writeMem a bs).poisoned (64 * q) 64 = (s.deadHit (64 * q) 64 || s.retiredHit (64 * q) 64) := by
  rw [writeMem_lines fits h, rangeFrom_split (q := q) (by omega) (by omega), List.foldl_append, List.foldl_cons]
  generalize ht : (rangeFrom (a / 64) (q - a / 64)).foldl (fun t r => t.writeUnit 64 a bs r) s = t
  have before : SameLine q s t := ht ▸ foldl_writeUnit_sameLine (by rw [mem_rangeFrom]; omega)
  have here : t.writeUnit 64 a bs q = (t.landUnit 64 a bs q).clearPoison (64 * q) 64 := by
    rw [Nat.mul_comm 64 q]
    refine writeUnit_whole (by rw [Nat.mul_comm, before.poisoned, bad]) ?_
    simp only [unitLen, unitFrom]
    omega
  rw [here]
  have after := foldl_writeUnit_sameLine (a := a) (bs := bs) (s := (t.landUnit 64 a bs q).clearPoison (64 * q) 64)
    (l := rangeFrom (q + 1) (a / 64 + ((a + bs.length + 63) / 64 - a / 64) - (q + 1))) (q := q) (by rw [mem_rangeFrom]; omega)
  refine ⟨after.bytes.trans (readMem_landUnit_whole start stop), ?_⟩
  rw [after.poisoned, poisoned_clearPoison_same]
  exact before.lost

/-- Settles O29: a line is written whole, in part, or is lost. -/
theorem poisonedLineTakesWholeWritesOnly : Obligations.PoisonedLineTakesWholeWritesOnly := by
  intro s a q bs fits _ bad
  refine ⟨fun alive kept => ?_, State.poisoned_writeMem_lost⟩
  have held : s.poison ≠ [] := by
    intro clean
    simp [State.poisoned_eq, State.listsPoison, clean, alive, kept] at bad
  refine ⟨fun start stop => ?whole, fun short => ?part⟩
  case whole =>
    obtain ⟨bytes, poison⟩ := State.writeMem_whole fits held bad start stop
    exact ⟨by rw [poison, alive, kept]; rfl, bytes⟩
  case part =>
    have same := State.writeMem_partial_sameLine fits held bad short
    exact ⟨same.poisoned.trans bad, same.bytes⟩

/-- Settles O30: each clause is a lemma about every write. -/
theorem storeWritesOnlyItsBytes : Obligations.StoreWritesOnlyItsBytes := fun s a bs =>
  ⟨fun _ away => s.read_writeMem_away away, fun _ _ unhit => State.poisoned_writeMem_false unhit,
    fun clean => State.readMem_writeMem clean a bs⟩

end Sys2Proof.Machine
end

section
/-!
PROOF. Stacked memory (R297 to R317, R326, R328, R361, R738, R739): what a controller slice does with a request, which poison the lines
it reads keep or take on, and refresh, temperature, stall counters and group modes.
-/
namespace Sys2Proof.Machine

variable {s : State}

/-! Poison that lines keep and take on (R312, R313). -/

theorem foldl_set_true {l : List Nat} {t : Tbl Bool} {k : Nat} (h : k ∈ l ∨ (k, true) ∈ t) :
    (k, true) ∈ l.foldl (fun t i => Tbl.set false t i true) t := by
  induction l generalizing t with
  | nil => simpa using h
  | cons i l ih =>
    refine ih ?_
    have kept : (k, true) ∈ Tbl.set false t i true ↔ k = i ∨ ((k, true) ∈ t ∧ k ≠ i) := by
      rw [Tbl.set, if_neg (by decide), Tbl.mem_put, Prod.mk.injEq, and_iff_left rfl]
    rw [kept]
    rw [List.mem_cons] at h
    tauto

/-- Every poisoned word of a state is poisoned in another one. -/
structure KeepsPoison (s t : State) : Prop where
  kept : ∀ k, (k, true) ∈ s.poison → (k, true) ∈ t.poison

theorem KeepsPoison.trans {t u : State} (h : KeepsPoison s t) (g : KeepsPoison t u) : KeepsPoison s u := ⟨fun k m => g.kept k (h.kept k m)⟩

theorem KeepsPoison.of_eq {t : State} (h : t.poison = s.poison) : KeepsPoison s t := ⟨fun _ m => h ▸ m⟩

/-- Marking poison takes none away. -/
theorem State.setPoison_keeps (s : State) (a n : Nat) : KeepsPoison s (s.setPoison a n) := ⟨fun _ h => foldl_set_true (.inr h)⟩

/-- Poison marked at the start of a line is poison of the line. -/
theorem State.poisoned_of_setPoison {t : State} {q : Nat} (h : KeepsPoison (s.setPoison (64 * q) 1) t) : t.poisoned (64 * q) 64 = true := by
  have marked : (8 * q, true) ∈ (s.setPoison (64 * q) 1).poison := by
    refine foldl_set_true (.inl (mem_rangeFrom.2 ?_))
    unfold poisonUnit
    split <;> omega
  rw [poisoned_eq, (t.listsPoison_iff (64 * q) 64).2 ⟨8 * q, h.kept _ marked, by omega, by omega⟩]
  rfl

theorem State.voidDesc_poison (s : State) (f n cond : Nat) (d : Desc) : (s.voidDesc f n cond d).poison = s.poison := by
  unfold State.voidDesc
  split
  · rfl
  · dsimp only
    obtain ⟨_, _, e⟩ := State.eventBoth_rest _ f .wcetVoid (toLE 4 n ++ toLE 4 (fld d.raw 4 4) ++ toLE 4 cond)
    rw [e]
    rfl

theorem State.wcetVoid_poison (s : State) (cond p : Nat) : (s.wcetVoid cond p).poison = s.poison := by
  refine foldl_frame State.poison _ (fun s n => ?_) _ s
  dsimp only
  split
  · exact foldl_frame State.poison _ (fun s d => s.voidDesc_poison ..) _ s
  · rfl

theorem State.noteCause_poison (s : State) (p c : Nat) : (s.noteCause p c).poison = s.poison := by
  unfold State.noteCause
  split <;> rfl

theorem State.contained_poison (s : State) (st : Status) (i d : Nat) : (s.contained st i d).poison = s.poison := by
  obtain ⟨_, _, _, _, e⟩ := s.contained_rest st i d
  rw [e]

theorem State.corrected_poison (s : State) (st : Status) (i d : Nat) : (s.corrected st i d).poison = s.poison := by
  obtain ⟨_, _, e⟩ := s.corrected_rest st i d
  rw [e]

/-- Before it marks poison, a slice that reads a line may correct it and note a failed condition (R312, R326, R361). -/
def State.noteLine (s : State) (p ecc a : Nat) : State :=
  let s := if lineEcc ecc a = 1 then s.corrected (.unstated 0) (stackIsland (s.stackOf a)) a else s
  if 2 ≤ lineEcc ecc a then (s.wcetVoid 2 p).noteCause p 2 else s

theorem State.noteLine_poison (s : State) (p ecc a : Nat) : (s.noteLine p ecc a).poison = s.poison := by
  simp only [State.noteLine, apply_ite State.poison, noteCause_poison, wcetVoid_poison, corrected_poison, ite_self]

theorem State.readLine_eq (p ecc : Nat) (s : State) (a : Nat) : s.readLine p ecc a = if lineEcc ecc a = 3 then
    ((s.noteLine p ecc a).setPoison a 1).contained .eMemPoison (stackIsland ((s.noteLine p ecc a).stackOf a)) a else s.noteLine p ecc a := rfl

/-- Reading a line takes no poison away. -/
theorem State.readLine_keeps (p ecc : Nat) (s : State) (a : Nat) : KeepsPoison s (s.readLine p ecc a) := by
  have noted : KeepsPoison s (s.noteLine p ecc a) := .of_eq (s.noteLine_poison p ecc a)
  rw [readLine_eq]
  split
  · exact noted.trans ((State.setPoison_keeps ..).trans (.of_eq (State.contained_poison ..)))
  · exact noted

/-- A line whose re-reads both fail is poisoned in all that keeps the poison of its reading (R313). -/
theorem State.poisoned_of_readLine {p ecc q : Nat} {t : State} (fails : lineEcc ecc (64 * q) = 3)
    (h : KeepsPoison (s.readLine p ecc (64 * q)) t) : t.poisoned (64 * q) 64 = true := by
  rw [readLine_eq, if_pos fails] at h
  exact poisoned_of_setPoison (KeepsPoison.trans (.of_eq (State.contained_poison ..)) h)

theorem State.readLines_keeps (p ecc : Nat) (l : List Nat) (s : State) : KeepsPoison s (l.foldl (State.readLine p ecc) s) :=
  foldl_keeps (KeepsPoison s) _ (fun _ _ h => h.trans (State.readLine_keeps ..)) l (.of_eq rfl)

/-- Every line that a range touches and whose re-reads both fail is poisoned when the range has been read (R313). -/
theorem State.readLines_poisoned {p a n ecc q : Nat} (start : a / 64 ≤ q) (stop : 64 * q < a + n) (fails : lineEcc ecc (64 * q) = 3) :
    (s.readLines p a n ecc).poisoned (64 * q) 64 = true := by
  have noisy : ecc ≠ 0 := by
    rintro rfl
    simp [lineEcc] at fails
  have touched : q * 64 ∈ (rangeFrom (a / 64) ((a + n + 63) / 64 - a / 64)).map (· * 64) :=
    List.mem_map_of_mem (mem_rangeFrom.2 (by omega))
  obtain ⟨before, after, lines⟩ := List.append_of_mem touched
  rw [State.readLines, if_neg noisy, lines, List.foldl_append, List.foldl_cons, Nat.mul_comm q]
  exact poisoned_of_readLine fails (State.readLines_keeps ..)

/-! Requests at a slice (R298, R309, R310, R313, R317, R361). -/

theorem State.lookupGranule_stale {r : GranuleReq} (h : s.stale r.part r.gen = true) :
    s.lookupGranule r = (s.countStale r.part r.write).emit (.granule (if r.write then .ok else .eMemPoison) [] (!r.write) 0) := by
  rw [State.lookupGranule, if_pos h]
  rfl

theorem State.lookupGranule_granted {r : GranuleReq} {part : Part} (h : s.stale r.part r.gen = false) (hp : s.part r.part = some part)
    (granted : s.stackedErr part r.part r.gen r.addr r.len = none) : s.lookupGranule r = s.serveGranule r := by
  simp only [State.lookupGranule, h, hp, granted, Bool.false_eq_true, if_false]

theorem State.serveGranule_held {r : GranuleReq} (h : s.granuleHeld r.addr = true) :
    s.serveGranule r = ({ s with mem := { s.mem with held := s.mem.held ++ [r] } } : State).waitsOn r.part (s.repairing r.addr) := if_pos h

theorem State.serveGranule_write {r : GranuleReq} (h : s.granuleHeld r.addr = false) (hw : r.write = true) :
    s.serveGranule r = s.serveWrite r.part r.addr r.len r.data r.ecc := by
  simp only [State.serveGranule, h, hw, Bool.false_eq_true, if_false, if_true]

theorem State.serveGranule_read {r : GranuleReq} (h : s.granuleHeld r.addr = false) (hw : r.write = false) :
    s.serveGranule r = s.serveRead r.part r.addr r.len r.ecc r.bar := by
  simp only [State.serveGranule, h, hw, Bool.false_eq_true, if_false]

/-- The request that a SLICE_REQUEST makes: TC1 for a write, TC2 for a read (R301). -/
def sliceReq (p gen : Nat) (write : Bool) (a n : Nat) (data : List Byte) (ecc : Nat) : GranuleReq :=
  { part := p, gen := gen, write := write, addr := a, len := n, data := data, ecc := ecc, cls := if write then 1 else 2 }

section Slice

variable {p gen a n ecc : Nat} {write : Bool} {data : List Byte} (live : s.errs.halted = false) (touches : 0 < n)
  (fits : a % 256 + n ≤ 256)
include live touches fits

/-- A slice looks up a request within one granule (R298). -/
theorem execSliceRequest_live : execSliceRequest p gen write a n data ecc s = .next (s.lookupGranule (sliceReq p gen write a n data ecc)) := by
  rw [execSliceRequest, if_neg]
  · rfl
  · simp only [live, Bool.false_eq_true, or_false]
    omega

/-- One of an old generation writes nothing and reads poison (R309). -/
theorem execSliceRequest_stale (h : s.stale p gen = true) : execSliceRequest p gen write a n data ecc s =
    .next ((s.countStale p write).emit (.granule (if write then .ok else .eMemPoison) [] (!write) 0)) := by
  rw [execSliceRequest_live live touches fits, State.lookupGranule_stale (r := sliceReq p gen write a n data ecc) h]
  rfl

/-- One of the current generation within granted pages is served (R298). -/
theorem execSliceRequest_granted {part : Part} (h : s.stale p gen = false) (hp : s.part p = some part)
    (granted : s.stackedErr part p gen a n = none) :
    execSliceRequest p gen write a n data ecc s = .next (s.serveGranule (sliceReq p gen write a n data ecc)) := by
  rw [execSliceRequest_live live touches fits, State.lookupGranule_granted (r := sliceReq p gen write a n data ecc) h hp granted]

end Slice

/-! Refresh and temperature (R302, R303, R326, R361). -/

section Refresh

variable {stack ch : Nat} {postpone : Bool} (live : s.errs.halted = false) (serves : s.stackServes stack = true)
include live serves

theorem execRefreshDue_postponed (asked : postpone = true) (room : Tbl.get 0 s.mem.postponed (32 * stack + ch) < 8)
    (free : s.mem.repairOpen (32 * stack + ch) = false) : execRefreshDue stack ch postpone s = .next { s with mem := { s.mem with
      postponed := Tbl.set 0 s.mem.postponed (32 * stack + ch) (Tbl.get 0 s.mem.postponed (32 * stack + ch) + 1) } } := by
  simp [execRefreshDue, live, serves, asked, room, free]

/-- An issued refresh leaves none postponed (log entry 66). -/
theorem execRefreshDue_issued (due : postpone = false ∨ 8 ≤ Tbl.get 0 s.mem.postponed (32 * stack + ch) ∨
      s.mem.repairOpen (32 * stack + ch) = true) : execRefreshDue stack ch postpone s = .next (({ s with mem := { s.mem with
        postponed := Tbl.set 0 s.mem.postponed (32 * stack + ch) 0 } } : State).noteRefresh (32 * stack + ch)) := by
  have now : (postpone && decide (Tbl.get 0 s.mem.postponed (32 * stack + ch) < 8) && !s.mem.repairOpen (32 * stack + ch)) = false := by
    rcases due with h | h | h <;> simp [h]
  simp only [execRefreshDue, live, serves, now, Bool.false_eq_true, if_false, Bool.not_true]

end Refresh

theorem execStackTemperatureReport_cool {stack : Nat} {temp : Int} (cool : temp < 95) : execStackTemperatureReport stack temp s =
    .next (s.stallAll ({ s with mem := { s.mem with temp := Tbl.put s.mem.temp stack temp } } : State).releaseHeld) := by
  simp only [execStackTemperatureReport, Int.not_le.2 cool, if_false]

theorem execStackTemperatureReport_hot {stack : Nat} {temp : Int} (hot : 95 ≤ temp) : execStackTemperatureReport stack temp s =
    .next (s.stallAll (({ s with mem := { s.mem with temp := Tbl.put s.mem.temp stack temp } } : State).wcetVoidAll 1).releaseHeld) := by
  simp only [execStackTemperatureReport, hot, if_true]

/-! Stall counters and group modes (R297, R328, R738, R739). -/

theorem execMemStallClearAll_pf0 (acts : s.acts) : execMemStallClearAll 0 s = .next { s with work := { s.work with stall := [] } } :=
  State.regWrite_acts acts

theorem execMemStallClearPart_allowed {f p : Nat} (acts : s.acts) (allowed : f = 0 ∨ s.holdsPart f p = true) :
    execMemStallClearPart f p s = .next (s.clearStall p) := by
  rw [execMemStallClearPart, show (f == 0 || s.holdsPart f p) = true by simpa using allowed, State.regWrite_acts acts]

theorem execGroupMode_free {tag g : Nat} {sliced : Bool} (served : Served s 0 false false)
    (free : ∀ i, i < 4 → s.pageGranted (4 * g + i) = false) :
    execGroupMode 0 tag g sliced s = .next (((s.taken 0 0x12 tag).setGroupMode g sliced).reply 0 0x12 tag .ok) := by
  have ungranted : ¬ (rangeFrom (4 * g) 4).any (s.taken 0 0x12 tag).pageGranted = true := by
    rw [List.any_eq_true]
    rintro ⟨page, mem, granted⟩
    obtain ⟨low, high⟩ := mem_rangeFrom.1 mem
    have idle : s.pageGranted page = false := by
      rw [show page = 4 * g + (page - 4 * g) by omega]
      exact free _ (by omega)
    exact absurd granted (by rw [show (s.taken 0 0x12 tag).pageGranted page = s.pageGranted page from rfl, idle]; decide)
  rw [execGroupMode, State.request_served served .pf0 _ rfl, if_neg ungranted]

/-- Settles O28: each clause is the lemma of its command. What a stack delivers for the lines read is an operand (log entry 167). -/
theorem stackedMemoryCommands : Obligations.StackedMemoryCommands := by
  intro s
  refine ⟨?slice, ?refresh, ?temperature, execMemStallClearAll_pf0, ?part, fun _ _ _ served free => execGroupMode_free served free⟩
  case slice =>
    intro p gen write a n data ecc live touches fits
    refine ⟨execSliceRequest_stale live touches fits, fun part current hp granted => ?_⟩
    have acts : exec (.sliceRequest p gen write a n data ecc) s = _ := execSliceRequest_granted live touches fits current hp granted
    rw [acts]
    refine ⟨fun held => ?held, fun t free isWrite ht => ?write, fun t free isRead ht => ⟨?read, ?clean, ?poison⟩⟩
    case held =>
      rw [State.serveGranule_held (r := sliceReq p gen write a n data ecc) held]
      rfl
    case write =>
      rw [State.serveGranule_write (r := sliceReq p gen write a n data ecc) free isWrite, ht]
      rfl
    case read =>
      rw [State.serveGranule_read (r := sliceReq p gen write a n data ecc) free isRead, ht]
      rfl
    case clean =>
      intro clean
      rw [ht, State.readLines, if_pos clean]
    case poison =>
      intro q start stop fails
      rw [ht]
      exact State.readLines_poisoned start stop fails
  case refresh =>
    intro stack ch postpone live serves
    exact ⟨execRefreshDue_postponed live serves, execRefreshDue_issued live serves⟩
  case temperature =>
    rintro stack temp _ rfl
    exact ⟨Tbl.find_put_same .., fun j other => Tbl.find_put_ne _ _ other, execStackTemperatureReport_cool, execStackTemperatureReport_hot⟩
  case part =>
    intro f p acts allowed
    exact execMemStallClearPart_allowed acts (allowed.imp_left (congrArg Fin.val))

end Sys2Proof.Machine
end

section
/-!
PROOF. Weight streams (R318, R320 to R322, R324, R325): a record that starts a stream, the fill of a segment, and the stop at a boundary.
-/
namespace Sys2Proof.Machine

variable {s : State} {f tag p k : Nat}

/-- What stands of a cluster's stream makes way for a new record: a live one stops (log entry 62). -/
def State.replaceStream (s : State) (p k : Nat) : State :=
  match Tbl.find s.work.streams (16 * p + k) with
  | some w => if w.live then s.haltStream w else s
  | none => s

theorem State.replaceStream_none (h : Tbl.find s.work.streams (16 * p + k) = none) : s.replaceStream p k = s := by
  simp only [State.replaceStream, h]

theorem State.replaceStream_some {w : WStream} (h : Tbl.find s.work.streams (16 * p + k) = some w) :
    s.replaceStream p k = if w.live then s.haltStream w else s := by
  simp only [State.replaceStream, h]

/-- The stream that a sound record starts, before its first fill. -/
def newStream (r : List Byte) (p k : Nat) : WStream :=
  { raw := r, part := p, cluster := k, next := 0, filled := 0, tails := [], stopAsked := false, stopped := false }

/-- A stream starts: segments 0 and 1 fill, or wait for the cluster's domain (R321; log entry 62). -/
def State.startStream (s : State) (w : WStream) (p k : Nat) : State :=
  if s.domainOn (clusterIsland k) then (s.startFill w).fillNext p k 1 else s.setStream w

/-- A sound record whose table no slice holds sets both objects to 0 and starts its stream (R320, R321). -/
theorem execStreamRegister_sound {raw r : List Byte} {part : Part} (served : Served s f false false) (owned : s.ownsPart f p = true)
    (hp : s.part p = some part) (hr : r = slice raw 0 32) (unheld : s.memHeld (fld raw 0 8) (16 * streamN raw) = false)
    (sound : s.streamErr part p k r = none) :
    execStreamRegister f tag p k raw s = .next (((s.taken f 0x41 tag).stallAll
      (((((s.taken f 0x41 tag).replaceStream p k).zeroSync (streamFilled r)).zeroSync (streamReleased r)).startStream
        (newStream r p k) p k)).reply f 0x41 tag .ok) := by
  subst hr
  have free : ¬ ((s.ownsPart f p && s.memHeld (fld raw 0 8) (16 * streamN raw)) = true) := by simp [unheld]
  have hp' : (s.taken f 0x41 tag).part p = some part := hp
  have sound' : (s.taken f 0x41 tag).streamErr part p k (slice raw 0 32) = none := sound
  rw [execStreamRegister, if_neg free, State.request_owned served owned]
  simp only [hp', sound']
  rfl

/-- A segment of a running stream is filled when the released object, the domain and the slices allow it (R303, R317, R321). -/
theorem execStreamFillStart_ready {w : WStream} (live : s.errs.halted = false) (hw : Tbl.find s.work.streams (16 * p + k) = some w)
    (more : w.has w.next = true) (unasked : w.stopAsked = false) (runs : w.stopped = false) (on : s.domainOn (clusterIsland k) = true)
    (released : w.next < 2 ∨ s.waitHolds {
      sync := streamReleased w.raw, eq := false, target := BitVec.ofNat 32 ((w.next - 1) * streamConsumers w.raw) } = true)
    (unheld : s.memHeld w.nextEntry 16 = false) : execStreamFillStart p k s = .next (s.stallAll (s.startFill w)) := by
  have turn : (decide (w.next < 2) || s.waitHolds {
      sync := streamReleased w.raw, eq := false, target := BitVec.ofNat 32 ((w.next - 1) * streamConsumers w.raw) }) = true := by
    simpa using released
  simp only [execStreamFillStart, hw, more, unasked, runs, turn, live, on, unheld]
  rfl

/-- A stop request of the owner is noted at the stream (R324). -/
theorem execStreamStop_owned {w : WStream} (served : Served s f false false) (owned : s.ownsPart f p = true)
    (hw : Tbl.find s.work.streams (16 * p + k) = some w) :
    execStreamStop f tag p k s = .next (((s.taken f 0x42 tag).setStream { w with stopAsked := true }).reply f 0x42 tag .ok) := by
  rw [execStreamStop, State.request_owned served owned]
  simp only [State.taken_work, hw]

/-- A stream that has been asked stops when no fill is in flight (R324). -/
theorem execStreamStopAtBoundary_reached {w : WStream} (live : s.errs.halted = false)
    (hw : Tbl.find s.work.streams (16 * p + k) = some w) (asked : w.stopAsked = true) (runs : w.stopped = false)
    (idle : w.filled = w.next) : execStreamStopAtBoundary p k s = .next (s.stallAll (s.haltStream w)) := by
  simp [execStreamStopAtBoundary, live, hw, asked, runs, idle]

/-- Settles O31: a record starts its stream in the place of what stood there, and each other command is its lemma. -/
theorem weightStreams : Obligations.WeightStreams := by
  intro s f tag p k
  refine ⟨?register, fun w live hw => ⟨?fill, fun served owned => execStreamStop_owned served owned hw,
    fun asked runs idle => execStreamStopAtBoundary_reached live hw asked runs idle⟩⟩
  case register =>
    rintro raw r part _ _ u served owned hp hr unheld sound rfl rfl stood v rfl
    have replaced : (s.taken f 0x41 tag).replaceStream p k = u := by
      rcases stood with ⟨empty, rfl⟩ | ⟨w, there, dead, rfl⟩ | ⟨w, there, alive, rfl⟩
      · exact State.replaceStream_none empty
      · exact (State.replaceStream_some (s := s.taken f 0x41 tag) there).trans (if_neg (by simp [dead]))
      · exact (State.replaceStream_some (s := s.taken f 0x41 tag) there).trans (if_pos alive)
    have acts : exec (.streamRegister f tag p k raw) s = _ := execStreamRegister_sound served owned hp hr unheld sound
    rw [acts, replaced]
    refine ⟨fun on => ?_, fun off => ?_⟩
    · rw [State.startStream, if_pos on]
      rfl
    · rw [State.startStream, if_neg (by simp [off])]
      rfl
  case fill =>
    intro more unasked runs on released unheld
    exact execStreamFillStart_ready live hw more unasked runs on released unheld

end Sys2Proof.Machine
end

section
/-!
PROOF. Minuet, and pause and restart of contexts (R343, R347, R349, R352 to R354, R531): a request, a save at a TILE, the yield of an ended
program, a restore, and the two messages.
-/
namespace Sys2Proof.Machine

variable {s : State} {n : Nat}

/-! Requests and saves (R347, R349, R352, R353). -/

/-- A core of NORMAL work with a free save slot is asked where its context is paused, its swap is due or a REAL_TIME descriptor needs it; one
that waits in a preamble goes back to its TILE (R347, R352; log entry 156). -/
theorem execMinuetRequest_asks {w : CoreWork} {p : Part} {migrate : Bool} (live : s.errs.halted = false)
    (unasked : (s.core n).minuetReq = false) (slot : (s.core n).resume = none) (works : (s.core n).work = some w)
    (hp : s.part w.part = some p) (saves : p.save64k ≠ 0) (stays : p.clearing = false) (normal : (s.ctx w.ctx).realtime = false)
    (need : (migrate = true ∧ (Tbl.find s.errs.coreDue n).isSome = true) ∨ (s.ctx w.ctx).paused = true ∨ s.rtNeeds w.part n = true)
    (busy : (s.core n).run ≠ .idle) (started : (s.core n).run ≠ .loaded) :
    execMinuetRequest n migrate s = .next (if (s.core n).atWait || s.heldAtBody n
      then stallOf n s (((s.modeUp n).dropWaits n).setCore n { (s.core n).abandon with minuetReq := true })
      else s.setCore n { s.core n with minuetReq := true }) := by
  have needed : (migrate && (Tbl.find s.errs.coreDue n).isSome || (s.ctx w.ctx).paused || s.rtNeeds w.part n) = true := by
    simpa [or_assoc] using need
  have free : ((s.core n).minuetReq || (s.core n).resume.isSome || s.errs.halted) = false := by simp [unasked, slot, live]
  have asked : (p.save64k != 0 && !(s.ctx w.ctx).realtime && !p.clearing &&
      (migrate && (Tbl.find s.errs.coreDue n).isSome || (s.ctx w.ctx).paused || s.rtNeeds w.part n) &&
      (s.core n).run != .idle && (s.core n).run != .loaded) = true := by
    simp [needed, saves, stays, normal, busy, started]
  simp only [execMinuetRequest, free, works, hp, asked, Bool.false_eq_true, if_false, if_true]
  split <;> rfl

section Save

variable {w : CoreWork} {p : Program} {part : Part} (live : s.errs.halted = false) (asked : (s.core n).minuetReq = true)
  (works : (s.core n).work = some w) (runs : (s.core n).prog = some p) (hp : s.part w.part = some part) (stays : part.clearing = false)
include live asked works runs hp stays

/-- A program that has ended yields without a save, its core then free (R343, R353). -/
theorem execMinuetSave_ended (ended : (s.core n).run = .ended) :
    execMinuetSave n s = .next ((s.freeCore n).setDesc w.ctx w.idx (fun d => { d with freed := true })) := by
  simp only [execMinuetSave, live, asked, works, runs, hp, stays, ended, Bool.false_eq_true, if_false]

/-- At a TILE whose live ranges hold no poison, the registers and the ranges are saved with their padding marks, and the core yields (R349;
log entry 32). -/
theorem execMinuetSave_tile {word : Nat} {r : Resume} (running : (s.core n).run = .running) (outside : (s.core n).tile = none)
    (stands : (s.core n).wordAt (s.core n).pc = some word) (isTile : opcodeOf word = 1)
    (hr : r = (s.core n).resumeBlock w p (bits word 15 0) (part.slotOff n))
    (clean : ∀ e ∈ r.ranges, s.corePoisoned n e.1 e.2 = false) {bs : List Byte}
    (hbs : bs = r.ranges.flatMap (fun e => s.coreRead n e.1 e.2)) :
    execMinuetSave n s = .next (((s.carryPads (r.ranges.flatMap (fun e => rangeFrom (coreBase n + e.1) e.2))
      ((areaPieces (n / 8) (part.saveAreaUp (n / 8)) 3 (part.slotOff n) bs.length).flatMap (fun e => rangeFrom e.1 e.2))
      (State.areaWriteFuel (n / 8) (part.saveAreaUp (n / 8)) 3 (part.slotOff n) bs s)).setCore n
        ((s.core n).yielded (some r))).yieldSignal w.part) := by
  have unpoisoned : r.ranges.any (fun e => s.corePoisoned n e.1 e.2) = false := by simpa using clean
  subst hr hbs
  simp only [execMinuetSave, live, asked, works, runs, hp, stays, running, outside, stands, isTile, unpoisoned, Bool.false_eq_true, if_false,
    ne_eq, not_true_eq_false]

end Save

/-! Restores (R354). -/

/-- A core that goes on at the resume TILE with its registers, in the overlay that holds it (R354). -/
def Core.resumed (c : Core) (r : Resume) (img : List Byte) : Core :=
  let start := overlayStart 65536 (imageCode img) 0 r.tilePos
  let rest := (imageCode img).drop start
  { c with
    run := .running, work := some r.work, prog := some { r.prog with codeBase := start }, code := rest.take (overlayLen rest),
    pc := r.tilePos, s := r.s, a := r.a, td := r.td, resume := none, compat := r.prog.compat, allow := allowFor r.prog.realtime }

/-- WCET_VOID changes no core (R362). -/
theorem State.voidDesc_core (s : State) (f c : Nat) (cond : WcetCond) (d : Desc) (m : Nat) : (s.voidDesc f c cond d).core m = s.core m := by
  unfold State.voidDesc
  split
  · rfl
  · dsimp only
    obtain ⟨x, g, e⟩ := State.eventBoth_rest (s.setCtx c { s.ctx c with
      descs := (s.ctx c).descs.map (fun e => if e.idx = d.idx then { e with voided := true } else e) }) f .wcetVoid
        (toLE 4 c ++ toLE 4 (fld d.raw 4 4) ++ toLE 4 cond)
    rw [e]
    rfl

theorem State.wcetVoid_core (s : State) (cond : WcetCond) (p m : Nat) : (s.wcetVoid cond p).core m = s.core m := by
  refine foldl_keeps (fun t : State => t.core m = s.core m) _ (fun t c h => ?_) _ rfl
  dsimp only
  split
  · exact foldl_keeps (fun t : State => t.core m = s.core m) _ (fun t d h => (t.voidDesc_core ..).trans h) _ h
  · exact h

@[simp] theorem State.noteCompat_core (s : State) (n p m : Nat) : (s.noteCompat n p).core m = s.core m := by
  unfold State.noteCompat
  split
  · exact s.wcetVoid_core ..
  · rfl

/-- Read requests of host memory change the link's hop and what has been sent (R206). -/
theorem State.hostReadFuel_rest (f m : Nat) (attr : ReqAttr) (fuel a k : Nat) (s : State) :
    ∃ h l, State.hostReadFuel f m attr fuel a k s = { s with host := { s.host with hops := h }, sent := l } := by
  induction fuel generalizing a k s with
  | zero => exact ⟨s.host.hops, s.sent, rfl⟩
  | succ fuel ih =>
    unfold State.hostReadFuel
    split
    · exact ⟨s.host.hops, s.sent, rfl⟩
    · obtain ⟨h, l, e⟩ := s.toHost_rest f attr.tc (min m k) (.hostRead f a (min m k) attr)
      rw [e]
      exact ih (a + m) (k - m) { s with host := { s.host with hops := h }, sent := l }

theorem State.imageReads_rest (s : State) (part : Part) (iova : Bool) (addr : Nat) (host : HostRead) :
    ∃ h l, s.imageReads part iova addr host = { s with host := { s.host with hops := h }, sent := l } := by
  unfold State.imageReads State.hostRead
  dsimp only
  split
  · exact ⟨s.host.hops, s.sent, rfl⟩
  split
  · exact State.hostReadFuel_rest ..
  · obtain ⟨h, l, e⟩ := State.hostReadFuel_rest part.fn (s.fn part.fn).maxRead
      { tc := 2, relaxed := false, noSnoop := false, tag10 := (s.fn part.fn).tag10 } 0x40 addr 0x40 s
    rw [e]
    exact State.hostReadFuel_rest ..

/-- A core whose image is read, whose saved ranges hold no poison and that no REAL_TIME descriptor needs goes on (R354). -/
theorem execMinuetRestore_resumes {r : Resume} {part : Part} {img : List Byte} {host : HostRead} (live : s.errs.halted = false)
    (saved : (s.core n).resume = some r) (yielded : (s.core n).run = .yielded) (hp : s.part r.work.part = some part)
    (runs : (s.ctx r.work.ctx).halted = false) (unpaused : (s.ctx r.work.ctx).paused = false) (stays : part.clearing = false)
    (unneeded : s.rtNeeds r.work.part n = false) (usable : s.coreClosed n = false)
    (unheld : s.imageHeld part r.prog.iova r.prog.imageBase = false)
    (read : (s.imageReads part r.prog.iova r.prog.imageBase host).readImage part r.work.part r.work.gen (n / 8) r.prog.iova r.prog.imageBase
      host = .ok img)
    (clean : (areaPieces (n / 8) (part.saveAreaUp (n / 8)) 3 r.slotOff (r.ranges.foldl (fun acc e => acc + e.2) 0)).any
      (fun e => s.poisoned e.1 e.2) = false) :
    ∃ u : State, execMinuetRestore n host s = .next ((u.setCore n ((s.core n).resumed r img)).noteCompat n r.work.part) := by
  have clean' : (areaPieces (n / 8) (part.saveAreaUp (n / 8)) 3 r.slotOff (r.ranges.foldl (fun acc e => acc + e.2) 0)).any
      (fun e => (s.imageReads part r.prog.iova r.prog.imageBase host).poisoned e.1 e.2) = false := by
    obtain ⟨h, l, e⟩ := s.imageReads_rest part r.prog.iova r.prog.imageBase host
    rw [e]
    exact clean
  simp only [execMinuetRestore, saved, yielded, hp, runs, unpaused, stays, unneeded, usable, live, unheld, read, clean', Bool.or_self,
    Bool.false_eq_true, if_false]
  exact ⟨_, rfl⟩

/-! Pause and restart (R347, R531). -/

section Messages

variable {f tag : Nat} (served : Served s f false false) (owned : s.ctxFn n = f)
include served owned

/-- A NORMAL context of the function is paused (R347). -/
theorem execCtxPause_normal (normal : (s.ctx n).realtime = false) :
    execCtxPause f tag n s = .next (((s.taken f 0x31 tag).setCtx n { s.ctx n with paused := true }).reply f 0x31 tag .ok) := by
  rw [execCtxPause, normal, Bool.not_false, State.request_owned served (ok := s.ownsCtx f n) (by simpa [State.ownsCtx] using owned)]
  rfl

/-- A restarted context runs again, answers what a Windfall image restored, and acts on the doorbells held meanwhile in their order
(R531, R633). -/
theorem execCtxRestart_owned :
    execCtxRestart f tag n s = .next (((s.ctx n).held.foldl (fun s b => s.takeBell n b) ((s.taken f 0x30 tag).setCtx n { s.ctx n with
      halted := false, paused := false, held := [], descs := (s.ctx n).descs.map (fun d =>
        if d.phase == .restored then { d with phase := .ended, status := .abortedByWindfall } else d) })).reply f 0x30 tag .ok) := by
  rw [execCtxRestart, State.request_owned served (ok := s.ownsCtx f n) (by simpa [State.ownsCtx] using owned)]
  rfl

end Messages

/-- Settles O37: each clause is the lemma of its command. A core whose save slot is held is not asked (log entry 156); a restart also takes
a pause back (log entry 77). -/
theorem minuetCommands : Obligations.MinuetCommands := by
  intro s n
  refine ⟨?request, ?ended, ?save, ?restore, ?messages⟩
  case request =>
    intro w p migrate live unasked slot works hp saves stays normal need busy started
    have asks : exec (.minuetRequest n migrate) s = _ :=
      execMinuetRequest_asks live unasked slot works hp saves stays normal need busy started
    refine ⟨fun runs unheld => ?_, fun waits => ?_⟩
    · rw [asks, runs, unheld]
      rfl
    · rw [asks, if_pos (by simpa using waits)]
  case ended =>
    intro w p part live asked works runs hp stays ended
    exact execMinuetSave_ended live asked works runs hp stays ended
  case save =>
    intro w p part word r live asked works runs hp stays running outside stands isTile hr clean bs hbs
    exact execMinuetSave_tile live asked works runs hp stays running outside stands isTile hr clean hbs
  case restore =>
    intro r part img host live saved yielded hp runs unpaused stays unneeded usable unheld read clean
    obtain ⟨u, e⟩ := execMinuetRestore_resumes live saved yielded hp runs unpaused stays unneeded usable unheld read clean
    refine ⟨_, e, ?_⟩
    rw [State.noteCompat_core, State.core_setCore_same]
    exact ⟨rfl, rfl, rfl, rfl, rfl, rfl, rfl, rfl⟩
  case messages =>
    intro f tag x served owned
    refine ⟨fun normal => execCtxPause_normal served owned normal, ?_⟩
    rintro _ rfl
    exact execCtxRestart_owned served owned

end Sys2Proof.Machine
end

section
/-!
PROOF. Pas-de-deux pairs (R379 to R381, R384, R385): creation and arming, the comparison of a round, and the timeout.
-/
namespace Sys2Proof.Machine

variable {s : State} {f tag i : Nat} {x : Pair}

/-! Creation and arming (R379, R380). -/

/-- The pair with number i is as given. -/
def State.putPair (s : State) (i : Nat) (x : Pair) : State :=
  { s with work := { s.work with pairs := Tbl.put s.work.pairs i x } }

@[simp] theorem State.putPair_find (s : State) (i : Nat) (x : Pair) : Tbl.find (s.putPair i x).work.pairs i = some x := Tbl.find_put_same ..

/-- A sound record of PF0 or the owner creates a disarmed pair at round 0, under the lowest free number (R379; log entry 78). -/
theorem execPairCreate_sound {raw r : List Byte} (served : Served s f false false) (hr : r = slice raw 0 272)
    (issuer : f = 0 ∨ s.ownsPart f (pairA r) = true) (sound : s.pairOk r = true) :
    execPairCreate f tag raw s = .next (((s.taken f 0x50 tag).putPair s.freePair
      { raw := r, fn := s.partFn (pairA r), armed := false, round := 0, stopped := false }).reply f 0x50 tag .ok (toLE 4 s.freePair)) := by
  subst hr
  have owner : (f == 0 || s.ownsPart f (pairA (slice raw 0 272))) = true := by simpa using issuer
  have sound' : (s.taken f 0x50 tag).pairOk (slice raw 0 272) = true := sound
  rw [execPairCreate, State.request_owned served owner]
  simp only [sound', Bool.not_true, Bool.false_eq_true, if_false]
  rfl

/-- PF0 arms or disarms a pair, whose rounds count from 1 again (R380). -/
theorem execPairArm_found (served : Served s 0 false false) (hx : Tbl.find s.work.pairs i = some x) (arm : Bool) :
    execPairArm 0 tag i arm s = .next (((s.taken 0 0x51 tag).putPair i { x with armed := arm, round := 0, stopped := false }).reply
      0 0x51 tag .ok) := by
  rw [execPairArm, State.request_served served .pf0 _ rfl]
  simp only [State.taken_work, hx]
  rfl

/-! Stops (R384, R385). -/

theorem State.driveSafe_safeLow (s : State) (c : Nat) : (s.driveSafe c).pwr.safeLow = true := by
  unfold State.driveSafe
  split
  case isTrue low => exact low
  case isFalse => rfl

/-- A stopped pair stays in the table, SAFE_STATE_N is low, and no object is signalled (R384). -/
theorem State.pairStop_stops (hx : Tbl.find s.work.pairs i = some x) (st : Status) (detail : List Byte) :
    Tbl.find (s.pairStop i st detail).work.pairs i = some { x with stopped := true } ∧
    (s.pairStop i st detail).pwr.safeLow = true ∧ (s.pairStop i st detail).cpu.sync = s.cpu.sync := by
  have stop : s.pairStop i st detail = ((s.putPair i { x with stopped := true }).driveSafe 2).eventBoth x.fn st (toLE 4 i ++ detail) := by
    simp only [State.pairStop, hx]
    rfl
  obtain ⟨_, _, told⟩ := ((s.putPair i { x with stopped := true }).driveSafe 2).eventBoth_rest x.fn st (toLE 4 i ++ detail)
  obtain ⟨_, _, driven⟩ := (s.putPair i { x with stopped := true }).driveSafe_rest 2
  refine ⟨?_, ?_, ?_⟩
  · rw [stop, State.eventBoth_work, State.driveSafe_work, State.putPair_find]
  · rw [stop, told]
    exact State.driveSafe_safeLow ..
  · rw [stop, told, driven]
    rfl

/-- The pair of a round that only one side has reached in time stops (R385). -/
theorem execPairTimeout_oneDone (hx : Tbl.find s.work.pairs i = some x) (live : s.errs.halted = false) (armed : x.armed = true)
    (runs : x.stopped = false) (one : s.doneReached (pairDoneA x.raw) (x.round + 1) ≠ s.doneReached (pairDoneB x.raw) (x.round + 1)) :
    execPairTimeout i s = .next (s.pairStop i .ePairTimeout (toLE 4 (x.round + 1))) := by
  have late : (x.armed && !x.stopped && (s.doneReached (pairDoneA x.raw) (x.round + 1) != s.doneReached (pairDoneB x.raw) (x.round + 1)) &&
      !s.errs.halted) = true := by
    simp [armed, runs, live, one]
  simp only [execPairTimeout, hx, late, if_true]

/-! The comparison of a round (R381, R384). -/

/-- Each region of a bank holds no poison, is held by no slice, and lies in pages of its side in stacks that serve (R298, R303, R309, R317). -/
def State.PairReadable (s : State) (r : List Byte) (bank : Nat) : Prop :=
  ∀ j, j < pairRegions r → ∀ e ∈ [(pairA r, (pairRegion r j).1), (pairB r, (pairRegion r j).2.1)],
    s.poisoned (e.2 + pairStride r * bank) (pairRegion r j).2.2.1 = false ∧
    s.memHeld (e.2 + pairStride r * bank) (pairRegion r j).2.2.1 = false ∧
    s.sliceErr e.1 (e.2 + pairStride r * bank) (pairRegion r j).2.2.1 = none

/-- The ranges that a round reads: the side's partition, the address and the length. -/
def pairRanges (r : List Byte) (bank : Nat) : List (Nat × Nat × Nat) :=
  (List.range (pairRegions r)).flatMap (fun j =>
    [(pairA r, (pairRegion r j).1 + pairStride r * bank, (pairRegion r j).2.2.1),
     (pairB r, (pairRegion r j).2.1 + pairStride r * bank, (pairRegion r j).2.2.1)])

/-- The reads of a round are charged to both sides (R374). -/
def State.countPair (s : State) (r : List Byte) (bank : Nat) : State :=
  (List.range (pairRegions r)).foldl (fun s j =>
    (s.accountStacked none (pairA r) 2 false ((pairRegion r j).1 + pairStride r * bank) (pairRegion r j).2.2.1).accountStacked none
      (pairB r) 2 false ((pairRegion r j).2.1 + pairStride r * bank) (pairRegion r j).2.2.1) s

theorem State.countPair_rest (s : State) (r : List Byte) (bank : Nat) :
    ∃ t, s.countPair r bank = { s with work := { s.work with acct := t } } := by
  refine foldl_keeps (fun u : State => ∃ t, u = { s with work := { s.work with acct := t } }) _ ?_ _ ⟨s.work.acct, rfl⟩
  rintro _ j ⟨t, rfl⟩
  obtain ⟨t1, e1⟩ := State.accountStacked_rest { s with work := { s.work with acct := t } } none (pairA r) 2 false
    ((pairRegion r j).1 + pairStride r * bank) (pairRegion r j).2.2.1
  obtain ⟨t2, e2⟩ := State.accountStacked_rest { s with work := { s.work with acct := t1 } } none (pairB r) 2 false
    ((pairRegion r j).2.1 + pairStride r * bank) (pairRegion r j).2.2.1
  exact ⟨t2, by rw [e1, e2]⟩

/-- The charges of a round leave the table of pairs and the sync unit. -/
theorem State.countPair_pairs (s : State) (r : List Byte) (bank : Nat) : (s.countPair r bank).work.pairs = s.work.pairs := by
  obtain ⟨_, counted⟩ := s.countPair_rest r bank
  rw [counted]

theorem State.countPair_cpu (s : State) (r : List Byte) (bank : Nat) : (s.countPair r bank).cpu = s.cpu := by
  obtain ⟨_, counted⟩ := s.countPair_rest r bank
  rw [counted]

/-- The first region of a bank that holds poison (R317). -/
def State.pairPoison (s : State) (r : List Byte) (bank : Nat) : Option Nat :=
  (List.range (pairRegions r)).find? (fun j =>
    s.poisoned ((pairRegion r j).1 + pairStride r * bank) (pairRegion r j).2.2.1 ||
    s.poisoned ((pairRegion r j).2.1 + pairStride r * bank) (pairRegion r j).2.2.1)

/-- The first element of a bank that does not match, with its region and both values (R383). -/
def State.pairDiff (s : State) (r : List Byte) (bank : Nat) : Option (Nat × Nat × Nat × Nat) :=
  (List.range (pairRegions r)).findSome? (fun j => (s.regionDiff r bank j).map (fun d => (j, d)))

section Readable

variable {r : List Byte} {bank : Nat}

/-- The charges of a round change neither what its regions hold nor whether they differ. -/
theorem State.countPair_pairPoison (s : State) (r : List Byte) (bank : Nat) : (s.countPair r bank).pairPoison r bank = s.pairPoison r bank := by
  obtain ⟨_, counted⟩ := s.countPair_rest r bank
  rw [counted]
  rfl

theorem State.countPair_pairDiff (s : State) (r : List Byte) (bank : Nat) : (s.countPair r bank).pairDiff r bank = s.pairDiff r bank := by
  obtain ⟨_, counted⟩ := s.countPair_rest r bank
  rw [counted]
  rfl

/-- The bank matches exactly when no region of it differs. -/
theorem State.pairDiff_eq_none_iff : s.pairDiff r bank = none ↔ ∀ j, j < pairRegions r → s.regionDiff r bank j = none := by
  simp [State.pairDiff]

/-- A range of a readable bank waits for no slice, and its slices answer it. -/
theorem State.PairReadable.range (readable : s.PairReadable r bank) {e : Nat × Nat × Nat} (he : e ∈ pairRanges r bank) :
    s.memHeld e.2.1 e.2.2 = false ∧ s.sliceErr e.1 e.2.1 e.2.2 = none := by
  obtain ⟨j, hj, side⟩ := List.mem_flatMap.1 he
  have region := readable j (List.mem_range.1 hj)
  rcases List.mem_pair.1 side with rfl | rfl
  · exact (region _ (List.mem_cons_self ..)).2
  · exact (region _ (List.mem_cons_of_mem _ (List.mem_cons_self ..))).2

theorem State.PairReadable.unheld (readable : s.PairReadable r bank) :
    (pairRanges r bank).any (fun e => s.memHeld e.2.1 e.2.2) = false :=
  List.any_eq_false.2 fun _ he => Bool.eq_false_iff.1 (readable.range he).1

theorem State.PairReadable.answered (readable : s.PairReadable r bank) :
    (pairRanges r bank).findSome? (fun e => s.sliceErr e.1 e.2.1 e.2.2) = none :=
  List.findSome?_eq_none_iff.2 fun _ he => (readable.range he).2

theorem State.PairReadable.pairPoison_eq_none (readable : s.PairReadable r bank) : s.pairPoison r bank = none := by
  refine List.find?_eq_none.2 fun j hj => ?_
  have region := readable j (List.mem_range.1 hj)
  obtain ⟨cleanA, -⟩ := region _ (List.mem_cons_self ..)
  obtain ⟨cleanB, -⟩ := region _ (List.mem_cons_of_mem _ (List.mem_cons_self ..))
  simp only [cleanA, cleanB, Bool.or_self, Bool.false_eq_true, not_false_eq_true]

/-- A round that both sides have reached, over a readable bank, counts and signals PASS_SYNC where the bank matches, and stops the pair at
the first element where it does not (R381, R384). -/
theorem execPairRoundCompare_readable (hx : Tbl.find s.work.pairs i = some x) (live : s.errs.halted = false) (armed : x.armed = true)
    (runs : x.stopped = false) (doneA : s.doneReached (pairDoneA x.raw) (x.round + 1) = true)
    (doneB : s.doneReached (pairDoneB x.raw) (x.round + 1) = true) (hr : r = x.raw) (hbank : bank = x.round % pairBanks r)
    (readable : s.PairReadable r bank) :
    execPairRoundCompare i s = (s.pairDiff r bank).elim
      (.next (((s.countPair r bank).putPair i { x with round := x.round + 1 }).signal (fld r 8 2) 1 64 0))
      (fun d => .next ((s.countPair r bank).pairStop i .ePairMismatch
        (toLE 4 (x.round + 1) ++ toLE 4 d.1 ++ toLE 8 d.2.1 ++ toLE 8 d.2.2.1 ++ toLE 8 d.2.2.2))) := by
  subst hr hbank
  have compares : (!x.armed || x.stopped || !s.doneReached (pairDoneA x.raw) (x.round + 1) ||
      !s.doneReached (pairDoneB x.raw) (x.round + 1) || s.errs.halted) = false := by
    simp [armed, runs, doneA, doneB, live]
  simp only [execPairRoundCompare, hx, compares, Bool.false_eq_true, if_false]
  split
  case isTrue held => exact absurd held (Bool.eq_false_iff.1 readable.unheld)
  split
  case h_1 _ refused => exact absurd (refused.symm.trans readable.answered) nofun
  split
  case h_1 _ bad =>
    exact absurd (bad.symm.trans ((s.countPair_pairPoison ..).trans readable.pairPoison_eq_none)) nofun
  split
  case h_1 differs =>
    rw [show s.pairDiff x.raw (x.round % pairBanks x.raw) = _ from (s.countPair_pairDiff ..).symm.trans differs]
    rfl
  case h_2 same =>
    rw [show s.pairDiff x.raw (x.round % pairBanks x.raw) = _ from (s.countPair_pairDiff ..).symm.trans same]
    rfl

end Readable

/-- Settles O38: each clause is the lemma of its command. The reply names the lowest free pair number (log entry 78). -/
theorem pairCommands : Obligations.PairCommands := by
  intro s tag
  refine ⟨?create, fun ix x hx => ⟨?arm, fun live armed runs => ⟨?compare, ?timeout⟩⟩⟩
  case create =>
    intro f raw r served hr issuer sound
    exact execPairCreate_sound served hr (issuer.imp_left (congrArg Fin.val)) sound
  case arm =>
    intro arm served
    exact execPairArm_found served hx arm
  case compare =>
    intro doneA doneB readable
    have compared : exec (.pairRoundCompare ix) s = _ := execPairRoundCompare_readable hx live armed runs doneA doneB rfl rfl readable
    refine ⟨fun same => ?_, ?_⟩
    · rw [compared, State.pairDiff_eq_none_iff.2 same]
      refine ⟨_, rfl, ?_, ?_⟩
      · rw [State.signal_work, State.putPair_find]
      · show (s.countPair _ _).cpu.sync.flight ++ _ = _
        rw [State.countPair_cpu]
    · rintro ⟨j, hj, differs⟩
      obtain ⟨d, found⟩ := Option.ne_none_iff_exists'.1 fun none => differs (State.pairDiff_eq_none_iff.1 none j hj)
      rw [compared, found]
      obtain ⟨stopped, low, unsignalled⟩ := State.pairStop_stops (s := s.countPair x.raw (x.round % pairBanks x.raw)) (i := ix) (x := x)
        (by rw [State.countPair_pairs, hx]) .ePairMismatch
        (toLE 4 (x.round + 1) ++ toLE 4 d.1 ++ toLE 8 d.2.1 ++ toLE 8 d.2.2.1 ++ toLE 8 d.2.2.2)
      exact ⟨_, rfl, stopped, low, unsignalled.trans (by rw [State.countPair_cpu])⟩
  case timeout =>
    intro one
    obtain ⟨stopped, low, -⟩ := State.pairStop_stops hx .ePairTimeout (toLE 4 (x.round + 1))
    exact ⟨_, execPairTimeout_oneDone hx live armed runs one, stopped, low⟩

end Sys2Proof.Machine
end

section
/-!
PROOF. Camera ports (R391 to R398, R740, R756): the power switch, a bring-up, a lost link and the owner; and the sources of frame sync (R402,
R403, R741).
-/
namespace Sys2Proof.Machine

variable {s : State}

/-! The power switch (R392 to R394). -/

section Ports

variable {n : Nat}

@[simp] theorem State.writePoc_en (s : State) (n value : Nat) : ((s.writePoc n value).media.port n).en = (s.media.port n).en := by
  rw [State.writePoc, State.port_setPort_same]
  split <;> rfl

/-- CAM_POC[n] as it stands once it has been written while its group is off (R55, R56). -/
def State.writeDarkPoc (s : State) (n value : Nat) : State :=
  (s.writePoc n value).setPort n { (s.writePoc n value).media.port n with
    en := bit value 0
    late := if bit value 0 then ((s.writePoc n value).media.port n).late else ((s.writePoc n value).media.port n).late ||| 1 }

section Switch

variable {value : Nat} (acts : s.acts)

include acts

section PoweredGroup

variable (on : s.groupOn (n / 4) = true)

include on

/-- EN closes a switch that is open, and the bring-up begins (R393, R396). -/
theorem execCamPocEnWrite_closes (en : bit value 0 = true) (wasOpen : (s.media.port n).en = false) :
    execCamPocEnWrite 0 n value s = .next ((s.writePoc n value).setPort n ((s.writePoc n value).media.port n).close) := by
  rw [execCamPocEnWrite, beq_self_eq_true, State.regWrite_acts acts]
  simp [on, en, wasOpen]

/-- EN leaves a closed switch closed, and the other fields are written. -/
theorem execCamPocEnWrite_closed (en : bit value 0 = true) (closed : (s.media.port n).en = true) :
    execCamPocEnWrite 0 n value s = .next ((s.writePoc n value).setPort n ((s.writePoc n value).media.port n)) := by
  rw [execCamPocEnWrite, beq_self_eq_true, State.regWrite_acts acts]
  simp [on, en, closed]

/-- EN = 0 opens the switch and ends the link (R393, R394). -/
theorem execCamPocEnWrite_opens (en : bit value 0 = false) :
    execCamPocEnWrite 0 n value s = .next (((s.openSwitch n 0).writePoc n value).setPort n
      { ((s.openSwitch n 0).writePoc n value).media.port n with en := false, link := 0 }) := by
  rw [execCamPocEnWrite, beq_self_eq_true, State.regWrite_acts acts]
  simp [on, en]

end PoweredGroup

/-- A write to a port whose group is off acts at once where it powers the group, and otherwise when the group powers up (R55, R56). -/
theorem execCamPocEnWrite_dark (off : s.groupOn (n / 4) = false) :
    execCamPocEnWrite 0 n value s = .next
      (if (s.writeDarkPoc n value).groupOn (n / 4) then (s.writeDarkPoc n value).groupUp (n / 4) else s.writeDarkPoc n value) := by
  rw [execCamPocEnWrite, beq_self_eq_true, State.regWrite_acts acts]
  simp only [off, Bool.false_eq_true, if_false]
  rfl

/-- PF0 assigns a port that no function's context runs on (R391, R740). -/
theorem execCamPortOwnerWrite_free (free : s.media.ctxs.any (fun e => !e.2.dflt && e.2.port == n) = false) :
    execCamPortOwnerWrite 0 n value s =
      .next (s.setPort n { s.media.port n with owner := bits value 4 0, ownerRefused := false }) := by
  rw [execCamPortOwnerWrite, beq_self_eq_true, State.regWrite_acts acts]
  simp [free]

/-- A port that a function's context runs on keeps its owner, and the refusal shows (R740). -/
theorem execCamPortOwnerWrite_used (used : s.media.ctxs.any (fun e => !e.2.dflt && e.2.port == n) = true)
    (other : bits value 4 0 ≠ (s.media.port n).owner) :
    execCamPortOwnerWrite 0 n value s = .next (s.setPort n { s.media.port n with ownerRefused := true }) := by
  rw [execCamPortOwnerWrite, beq_self_eq_true, State.regWrite_acts acts]
  simp only [used, other, ne_eq, not_false_eq_true, and_self, if_true]

end Switch

/-- Overcurrent opens a powered switch with a latched fault, and the owner hears of it (R393, R416). -/
theorem execPocOvercurrent_powered (powered : (s.media.port n).st = 1 ∨ (s.media.port n).st = 2) :
    execPocOvercurrent n s = .next (((s.openSwitch n 3).setPort n { (s.openSwitch n 3).media.port n with overcurrent := true }).event
      (s.media.port n).owner .eCamPower (toLE 4 n)) :=
  if_pos powered

/-- CURRENT takes what is measured while the switch is on, and below 10 mA OPEN is set (R392; log entry 173). -/
theorem execPocOpenDetect_on (current : Nat) (on : (s.media.port n).st = 2) :
    execPocOpenDetect n current s = .next (s.setPort n { s.media.port n with
      opened := (s.media.port n).opened || decide (current < 10), current := min current 1023 }) :=
  if_pos on

/-! Bring-up and loss of a link (R396 to R398, R456). -/

section BringUp

variable {fails : Nat} (live : s.errs.halted = false)

include live

/-- A port whose link has failed only powers its switch (R397). -/
theorem execPortBringUp_failedLink (ramping : (s.media.port n).st = 1) (failed : (s.media.port n).link = 4) :
    execPortBringUp n fails s = .next (s.setPort n { s.media.port n with st := 2 }) := by
  simp [execPortBringUp, live, ramping, failed]

variable (en : (s.media.port n).en = true) (powered : (s.media.port n).st = 1 ∨ (s.media.port n).st = 2) (down : (s.media.port n).link < 2)

include en powered down

/-- A powered port whose link is down trains, or fails with E_CAM_LINK (R396, R397; without a profile log entry 103). -/
theorem execPortBringUp_down : execPortBringUp n fails s =
    if 3 ≤ fails ∨ s.portProfile n = [] then
      .next ((s.setPort n { s.media.port n with st := 2, attempts := 3, link := 4, gear := 0 }).event
        (s.media.port n).owner .eCamLink (toLE 4 n))
    else
      let u := s.setPort n { s.media.port n with
        st := 2, attempts := fails, link := 3, gear := profGear (s.portProfile n), retrain := false }
      .next ((if (s.media.port n).retrain then u
        else u.uplinkWrites n (s.portProfile n)
          ((List.range (profInit (s.portProfile n))).map (fun i => fld (s.portProfile n) (0x1980 + 4 * i) 4))).dueExps n) := by
  have notFailed : (s.media.port n).link ≠ 4 := by omega
  rcases powered with ramping | on
  · simp [execPortBringUp, live, en, ramping, down, notFailed]
  · simp [execPortBringUp, live, en, on, down]

theorem execPortBringUp_first (few : fails < 3) (profile : s.portProfile n ≠ []) (first : (s.media.port n).retrain = false) :
    execPortBringUp n fails s = .next (((s.setPort n { s.media.port n with
        st := 2, attempts := fails, link := 3, gear := profGear (s.portProfile n), retrain := false }).uplinkWrites n (s.portProfile n)
      ((List.range (profInit (s.portProfile n))).map (fun i => fld (s.portProfile n) (0x1980 + 4 * i) 4))).dueExps n) := by
  rw [execPortBringUp_down live en powered down, if_neg (by simp [profile, few])]
  simp [first]

/-- A retraining writes no init list (R398). -/
theorem execPortBringUp_again (few : fails < 3) (profile : s.portProfile n ≠ []) (again : (s.media.port n).retrain = true) :
    execPortBringUp n fails s = .next ((s.setPort n { s.media.port n with
      st := 2, attempts := fails, link := 3, gear := profGear (s.portProfile n), retrain := false }).dueExps n) := by
  rw [execPortBringUp_down live en powered down, if_neg (by simp [profile, few])]
  simp [again]

theorem execPortBringUp_fails (ends : 3 ≤ fails ∨ s.portProfile n = []) :
    execPortBringUp n fails s = .next ((s.setPort n { s.media.port n with st := 2, attempts := 3, link := 4, gear := 0 }).event
      (s.media.port n).owner .eCamLink (toLE 4 n)) := by
  rw [execPortBringUp_down live en powered down, if_pos ends]

end BringUp

/-- A lost link closes the port's frames and trains again (R398). -/
theorem execAphyLinkLoss_linked (linked : (s.media.port n).link = 2 ∨ (s.media.port n).link = 3) :
    execAphyLinkLoss n s = .next ((s.closePort n).setPort n { (s.closePort n).media.port n with
      link := 1, gear := 0, attempts := 0, retrains := satAdd (s.media.port n).retrains 1 0xFF, retrain := (s.media.port n).link == 3 }) :=
  if_pos linked

end Ports

/-! Sources of frame sync (R402, R403, R741). -/

section FrameSync

variable {g : Nat}

section Control

variable {value : Nat} (acts : s.acts)

include acts

/-- A source's control register takes MODE and the high time; MODE 1 drives the first edge, any other ends the pulse (R741). -/
theorem execCamFsyncCtrlWrite_acts : execCamFsyncCtrlWrite 0 g value s = .next (s.setSource g
    (if bits value 1 0 = 1 then
      (if (s.media.source g).mode = 1 then { s.media.source g with mode := bits value 1 0, width := bits value 15 8 }
        else ({ s.media.source g with mode := bits value 1 0, width := bits value 15 8 } : FsyncSrc).drive s.host.refTicks)
    else { s.media.source g with mode := bits value 1 0, width := bits value 15 8, due := false, rise := none })) := by
  rw [execCamFsyncCtrlWrite, beq_self_eq_true, State.regWrite_acts acts]

/-- A generator that is written again runs on (R741). -/
theorem execCamFsyncCtrlWrite_stays (output : bits value 1 0 = 1) (was : (s.media.source g).mode = 1) :
    execCamFsyncCtrlWrite 0 g value s = .next (s.setSource g { s.media.source g with mode := 1, width := bits value 15 8 }) := by
  rw [execCamFsyncCtrlWrite_acts acts, if_pos output, if_pos was, output]

/-- A source that enters output mode drives its first edge (R741). -/
theorem execCamFsyncCtrlWrite_enters (output : bits value 1 0 = 1) (was : (s.media.source g).mode ≠ 1) :
    execCamFsyncCtrlWrite 0 g value s = .next (s.setSource g
      (({ s.media.source g with mode := 1, width := bits value 15 8 } : FsyncSrc).drive s.host.refTicks)) := by
  rw [execCamFsyncCtrlWrite_acts acts, if_pos output, if_neg was, output]

/-- Outside output mode a source drives nothing (R741). -/
theorem execCamFsyncCtrlWrite_leaves (mode : bits value 1 0 ≠ 1) :
    execCamFsyncCtrlWrite 0 g value s = .next (s.setSource g { s.media.source g with
      mode := bits value 1 0, width := bits value 15 8, due := false, rise := none }) := by
  rw [execCamFsyncCtrlWrite_acts acts, if_neg mode]

theorem execCamFsyncPeriodWrite_acts :
    execCamFsyncPeriodWrite 0 g value s = .next (s.setSource g { s.media.source g with reg := value }) := by
  rw [execCamFsyncPeriodWrite, beq_self_eq_true, State.regWrite_acts acts]

end Control

theorem execFsyncGeneratorEdge_output (output : (s.media.source g).mode = 1) :
    execFsyncGeneratorEdge g s = .next (s.setSource g ((s.media.source g).drive s.host.refTicks)) :=
  if_pos output

theorem FsyncSrc.level_idle {x : FsyncSrc} (mode : x.mode ≠ 1) (now : Nat) : x.level now = none := if_neg mode

/-- The land is high for the pulse's microseconds of the 38.4 MHz clock (R44, R741). -/
theorem FsyncSrc.level_high_iff {x : FsyncSrc} {start : Nat} (mode : x.mode = 1) (rise : x.rise = some start) (now : Nat) :
    x.level now = some true ↔ (now - start) * 5 < x.pulse * 192 := by
  rw [FsyncSrc.level, if_pos mode, rise]
  simp

/-- An edge that is received, or that the generator has driven, goes up the uplinks (R402). -/
theorem execFsyncEdge_comes (comes : (s.media.source g).mode = 2 ∨ ((s.media.source g).mode = 1 ∧ (s.media.source g).due = true)) :
    execFsyncEdge g s = .next (((s.media.ctxs.filter (fun e => !e.2.suspended && camFsync e.2.raw == some g &&
      (s.media.port e.2.port).link == 3)).map (fun e => e.2.port)).eraseDups.foldl (fun s p => s.emit (.fsync p))
        (s.setSource g { s.media.source g with due := false })) :=
  if_pos comes

end FrameSync

/-- Settles O40: each clause is the lemma of its command. -/
theorem cameraPorts : Obligations.CameraPorts := by
  refine ⟨fun s n => ⟨?registers, execPocOvercurrent_powered, fun current => execPocOpenDetect_on current,
    fun fails live => execPortBringUp_failedLink live, ?bringUp, ?loss⟩, fun s g value => ⟨?control, execCamFsyncPeriodWrite_acts,
    execFsyncGeneratorEdge_output, fun now start => ⟨fun mode => FsyncSrc.level_idle mode now,
      fun mode rise => FsyncSrc.level_high_iff mode rise now⟩, execFsyncEdge_comes⟩⟩
  case registers =>
    intro value acts
    refine ⟨fun on => ⟨execCamPocEnWrite_closes acts on, execCamPocEnWrite_closed acts on, ?_⟩, ?_, execCamPortOwnerWrite_free acts,
      execCamPortOwnerWrite_used acts⟩
    · rintro _ rfl en
      exact execCamPocEnWrite_opens acts on en
    · rintro _ _ off rfl rfl
      exact execCamPocEnWrite_dark acts off
  case bringUp =>
    intro fails live en powered down
    exact ⟨execPortBringUp_first live en powered down, execPortBringUp_again live en powered down,
      fun ends => execPortBringUp_fails live en powered down (ends.imp_left Eq.ge)⟩
  case loss =>
    intro linked
    refine ⟨_, execAphyLinkLoss_linked linked, ?_⟩
    rw [State.port_setPort_same]
    exact ⟨rfl, rfl, rfl, rfl, beq_iff_eq⟩
  case control =>
    intro acts
    exact ⟨execCamFsyncCtrlWrite_stays acts, execCamFsyncCtrlWrite_enters acts, execCamFsyncCtrlWrite_leaves acts⟩

end Sys2Proof.Machine
end

section
/-!
PROOF. The start of a camera context on a port whose link is down (R407, R456): the context waits for its default exposure.
-/
namespace Sys2Proof.Machine

variable {s : State} {c n : Nat} {x : CamCtx}

/-! What the steps of a start leave of a context. -/

theorem slice_whole {bs : List Byte} {n : Nat} (h : bs.length = n) : slice bs 0 n = bs := by
  simp [slice, ← h]

theorem State.evalWaiters_media (s : State) (i : Nat) (v : Word) : (s.evalWaiters i v).media = s.media :=
  calc (s.evalWaiters i v).media = ((s.wakeCores i v).seeClusters i v).media := foldl_frame State.media _ (by intros; rfl) _ _
    _ = (s.wakeCores i v).media := foldl_frame State.media _ (by intros; rfl) _ _
    _ = s.media := foldl_frame State.media _ (by intros; rfl) _ _

theorem State.zeroSync_media (s : State) (i : Nat) : (s.zeroSync i).media = s.media := by
  unfold State.zeroSync
  split
  · exact State.evalWaiters_media ..
  · rfl

theorem State.zeroSyncs_media (l : List Nat) (s : State) : (l.foldl State.zeroSync s).media = s.media :=
  foldl_frame State.media _ State.zeroSync_media l s

theorem State.reply_cam (s : State) (f op tag : Nat) (st : Status) (pl : List Byte) : (s.reply f op tag st pl).media.cam c = s.media.cam c := by
  obtain ⟨_, _, _, _, h⟩ := State.reply_rest s f op tag st pl 0
  rw [h]

@[simp] theorem State.writeLoad_cam (s : State) (p : Nat) : (s.writeLoad p).media.cam c = s.media.cam c := rfl

theorem State.camSettle_cam_ne {d : Nat} (other : c ≠ d) : (s.camSettle d).media.cam c = s.media.cam c := by
  unfold State.camSettle
  split
  · split
    · exact (Tbl.find_del ..).trans (if_neg other)
    · rfl
  · rfl

/-- A link that is not up does not come up with its group (R396, R397). -/
theorem Port.powerUp_down {y : Port} (down : y.link ≠ 3) : y.powerUp.link ≠ 3 := by
  have cut : (if bit y.late 0 then { y with st := 0, link := 0, gear := 0 } else y).link ≠ 3 := by
    split
    · exact Nat.zero_ne_add_one 2
    · exact down
  unfold Port.powerUp
  extract_lets u v
  split
  · exact cut
  · split
    · exact cut
    · exact Nat.zero_ne_add_one 2

/-- A group that powers up keeps every context, and a link that is not up. -/
theorem State.groupUp_keeps (g : Nat) (down : (s.media.port n).link ≠ 3) :
    (s.groupUp g).media.cam c = s.media.cam c ∧ ((s.groupUp g).media.port n).link ≠ 3 := by
  refine foldl_keeps (fun t : State => t.media.cam c = s.media.cam c ∧ (t.media.port n).link ≠ 3) _ (fun t p => ?_) _ ⟨rfl, down⟩
  rintro ⟨same, down⟩
  refine ⟨same, ?_⟩
  rw [State.port_setPort]
  split
  · next h => exact Port.powerUp_down (h ▸ down)
  · exact down

/-- DEFAULT_EXP waits while the port is not up (R407, R456). -/
theorem State.defaultExp_waits (context : s.media.cam c = some x) (down : (s.media.port x.port).link ≠ 3) :
    s.defaultExp c = s.setCam c { x with expDue := true } := by
  simp [State.defaultExp, context, down]

section Start

variable {f tag : Nat} {raw prof : List Byte}

/-- The context that a sound record starts (R407). -/
def State.camOf (s : State) (raw prof : List Byte) (f : Nat) : CamCtx :=
  camNew raw prof f (fldBits raw 4 5 0) (s.gen (fldBits raw 4 5 0)) (s.gen (outDesc raw 2).mirrorPart) false

/-- A context that starts on a port whose link is not up waits for its DEFAULT_EXP (R407, R456). -/
theorem execCamCtxStart_waits (served : Served s f false false) (whole : raw.length = 256)
    (free : (List.range 16).find? (fun c => (s.media.cam c).isNone) = some c)
    (stored : Tbl.find s.media.profiles (fldBits raw 0 11 8) = some prof) (sound : s.camOk f raw prof = true)
    (owner : (s.media.port (fldBits raw 0 3 0)).owner = f)
    (borne : ((s.media.setCam c (s.camOf raw prof f)).pipeLoad (fldBits raw 0 13 12)).1 ≤
      144000000000 * ((s.media.setCam c (s.camOf raw prof f)).pipeLoad (fldBits raw 0 13 12)).2)
    (down : (s.media.port (fldBits raw 0 3 0)).link ≠ 3) :
    ∃ t, execCamCtxStart f tag raw s = .next t ∧ t.media.cam c = some { s.camOf raw prof f with expDue := true } := by
  have low : c < 16 := List.mem_range.1 (List.mem_of_find?_eq_some free)
  have sound : (s.taken f 0x62 tag).camOk f raw prof = true := sound
  rw [execCamCtxStart, slice_whole whole, show (raw.length == 256) = true by simp [whole], State.request_served served]
  · refine ⟨_, rfl, ?_⟩
    simp -zeta only [State.taken_media, free, stored, sound, Bool.not_true, Bool.false_eq_true, if_false]
    extract_lets port pipe p y m l dark zeroed _ placed due shown settled _
    have fits : ¬144000000000 * l.2 < l.1 := Nat.not_lt.2 borne
    rw [if_neg fits, State.reply_cam, State.writeLoad_cam]
    have started : zeroed.media = m := State.zeroSyncs_media ..
    have placedCam : placed.media.cam c = some y := by
      show zeroed.media.cam c = _
      rw [started]
      exact Tbl.find_put_same ..
    have placedDown : (placed.media.port port).link ≠ 3 := by
      rw [State.port_setPort_same]
      show (zeroed.media.port port).link ≠ 3
      rw [started]
      exact down
    have ready : (if (dark && placed.groupOn (port / 4)) = true then placed.groupUp (port / 4) else placed).media.cam c = some y ∧
        ((if (dark && placed.groupOn (port / 4)) = true then placed.groupUp (port / 4) else placed).media.port port).link ≠ 3 := by
      split
      · exact ⟨(State.groupUp_keeps _ placedDown).1.trans placedCam, (State.groupUp_keeps (c := c) _ placedDown).2⟩
      · exact ⟨placedCam, placedDown⟩
    have waits : due.media.cam c = some { s.camOf raw prof f with expDue := true } := by
      rw [show due = _ from State.defaultExp_waits ready.1 ready.2, State.cam_setCam_same]
      rfl
    have other : c ≠ 16 + port := by omega
    have kept : settled.media.cam c = shown.media.cam c := by
      dsimp only [settled]
      split
      · rw [State.camSettle_cam_ne other, State.cam_setCam, if_neg other]
      · rfl
    exact kept.trans waits
  · exact beq_iff_eq.2 owner

end Start

/-! A function's context starts on a port whose switch is open. -/

/-- A profile that R401 accepts, of 64 × 64 RAW8 pixels at gear 1; what it does not hold reads 0. -/
def plainProfile : List Byte :=
  [64, 0, 64, 0, 0x2A, 0x11, 0, 0, 0, 0, 1, 0] ++ List.replicate 32 0 ++ (List.range 15).flatMap (fun i => toLE 12 (i + 1))

/-- A context record for port 0, profile slot 0, pipe 0 and partition 0, with two raw slots of 4 KiB, at 1 Hz. -/
def plainRecord : List Byte :=
  [0, 0, 1, 0, 0, 2, 100, 0] ++ toLE 8 0 ++ toLE 8 4096 ++ List.replicate 228 0 ++ toLE 4 0x10100

/-- Partition 0 of function 1 with the first page of stacked memory. -/
def plainPart : Part :=
  { fn := 1, realtime := false, stemExcl := false, minClock := 0, maxClock := 3, save64k := 0, sharersMax := 0, memShare := 8,
    coreMask := 1, granules := [], extents := [(0, 1)], keySlot := 0, yieldSync := 0, reserve := [], clearing := false, placed := [] }

/-- The firmware runs, and function 1 owns port 0, whose switch is open. -/
def darkPortState : State :=
  { State.reset with
    pwr := { Power.reset with aon := true, stageADone := true, state := 4, fw := { Firmware.reset with running := true } }
    work := { Work.reset with parts := [(0, plainPart)] }
    media := { Media.reset with ports := [(0, { Port.reset with owner := 1 })], profiles := [(0, plainProfile)] } }

/-- The refutation does not rest on a profile that could not have been stored (R401). -/
theorem plainProfile_sound : profileOk plainProfile = true := by decide

theorem plainRecord_length : plainRecord.length = 256 := by
  simp only [plainRecord, List.length_append, List.length_replicate, toLE_length]
  rfl

theorem darkPortState_served : Served darkPortState 1 false false := ⟨by decide, .inl rfl, .inl rfl⟩

theorem darkPortState_camOk : darkPortState.camOk 1 plainRecord plainProfile = true := by decide

theorem darkPortState_borne :
    ((darkPortState.media.setCam 0 (darkPortState.camOf plainRecord plainProfile 1)).pipeLoad (fldBits plainRecord 0 13 12)).1 ≤
      144000000000 * ((darkPortState.media.setCam 0 (darkPortState.camOf plainRecord plainProfile 1)).pipeLoad
        (fldBits plainRecord 0 13 12)).2 := by
  decide

/-- Refutes O41: on a port whose link is not up, a context that starts waits for its DEFAULT_EXP until the port comes up (R407, R456), so it is
not the new context of the statement, which waits for nothing. -/
theorem not_cameraMessages : ¬ Obligations.CameraMessages := by
  intro h
  obtain ⟨_, _, start, _⟩ := h darkPortState 0
  obtain ⟨t, runs, context, _⟩ := start 1 plainRecord 0 plainProfile darkPortState_served plainRecord_length rfl rfl darkPortState_camOk rfl
    darkPortState_borne
  obtain ⟨u, waits, waiting⟩ := execCamCtxStart_waits (tag := 0) darkPortState_served plainRecord_length rfl rfl darkPortState_camOk rfl
    darkPortState_borne (by decide)
  obtain rfl : t = u := Host.Outcome.next.inj (runs.symm.trans waits)
  exact absurd (congrArg CamCtx.expDue (Option.some.inj (context.symm.trans waiting))) Bool.false_ne_true

end Sys2Proof.Machine
end

section
/-!
PROOF. Frames on a camera port (R390, R408 to R413, R437): how a frame opens, takes lines and embedded data, and closes.
-/
namespace Sys2Proof.Machine

/-! A frame start (R409 to R411). -/

/-- A frame start first closes the frame that is open on its channel (R411, R416). -/
def State.closeOpen (s : State) (port vc : Nat) : State :=
  match s.media.openCam port vc with
  | some e => s.closeFrame e.1 true
  | none => s

/-- The suspended context that a frame start is counted for (R409, R456). -/
def Media.suspendedCam (m : Media) (port vc : Nat) : Option (Nat × CamCtx) :=
  m.ctxs.find? (fun e => e.2.port == port && e.2.vc == vc && e.2.suspended)

/-- A context with its frame start counted, off the watch pipe from Sprout up (R409, R455). -/
def State.frameCam (s : State) (x : CamCtx) : CamCtx :=
  { x with
    watch := if 2 ≤ s.pwr.state then none else x.watch, started := x.started + 1, isOpen := true, reqs := pruneReqs x.started x.reqs }

/-- A new frame would fall into the raw slot of one that the pipe has not finished; an inline frame has no slot (R410, R437). -/
def CamCtx.slotTaken (x : CamCtx) (no : Nat) : Bool :=
  !(x.dflt || x.watch.isSome) && x.frames.any (fun f => f.no % camRawSlots x.raw == no % camRawSlots x.raw)

/-- The frame that a frame start opens in a context that has counted it (R409, R451). -/
def State.newFrame (s : State) (x : CamCtx) (no csiNo : Nat) : CamFrame :=
  { no := no, csiNo := csiNo, tick := s.host.refTicks, tFs := s.stampFor x.fn, tFe := 0, closed := false, rows := 0,
    short := 0, long := 0, bad := 0, tooLong := false, feMissing := false, filled := [], emb := []
    pred := match x.reqs.find? (fun e => decide (e.target ≤ no)) with
      | some e => e.id
      | none => 0
    ring := [], lost := false
    ringBase := match x.frames.getLast? with
      | some g => g.ringBase + min g.rows (profHeight x.profile)
      | none => 0
    next := 0, begun := false, seq := 0, bank := [], tnrOff := true, goes := [], stats := CamStats.zero, watch := x.watch }

section Packets

variable {s s1 : State} {port vc csiNo c : Nat} {x : CamCtx} (up : s.portUp port = true)

section Start

variable (room : s1 = s.closeOpen port vc)

include up room

/-- A frame start that no running context takes is counted for a suspended one, or as unmatched (R390, R409). -/
theorem execFrameStartPacket_none (noContext : s1.media.nextCam port vc = none) :
    execFrameStartPacket port vc csiNo s = .next ((s1.media.suspendedCam port vc).elim (s1.unmatchedPacket port)
      (fun e => s1.setCam e.1 { e.2 with started := e.2.started + 1 })) := by
  rw [execFrameStartPacket, if_neg (by simp [up])]
  extract_lets u
  obtain rfl : u = s1 := room.symm
  clear_value u
  clear room
  simp only [noContext, Media.suspendedCam]
  split <;> simp [*]

/-- A frame start is dropped where its slot is taken, and opens a frame otherwise (R409, R410). -/
theorem execFrameStartPacket_some (context : s1.media.nextCam port vc = some (c, x)) :
    execFrameStartPacket port vc csiNo s = .next (if (s1.frameCam x).slotTaken x.started then
        s1.setMedia ((s1.media.setCam c { s1.frameCam x with dropping := true }).setPipe x.pipe
          { s1.media.pipe x.pipe with drops := satAdd (s1.media.pipe x.pipe).drops 1 0xFFFFFFFF })
      else s1.setCam c { s1.frameCam x with dropping := false, frames := x.frames ++ [s1.newFrame (s1.frameCam x) x.started csiNo] }) := by
  rw [execFrameStartPacket, if_neg (by simp [up])]
  extract_lets u
  obtain rfl : u = s1 := room.symm
  clear_value u
  clear room
  have watch : (if decide (2 ≤ u.pwr.state) then { x with watch := none } else x) =
      { x with watch := if 2 ≤ u.pwr.state then none else x.watch } := by
    by_cases sprout : 2 ≤ u.pwr.state <;> simp [sprout]
  simp only [context, watch]
  rw [apply_ite Host.Outcome.next]
  rfl

theorem execFrameStartPacket_opens (context : s1.media.nextCam port vc = some (c, x)) (free : (s1.frameCam x).slotTaken x.started = false) :
    execFrameStartPacket port vc csiNo s = .next (s1.setCam c { s1.frameCam x with
      dropping := false, frames := x.frames ++ [s1.newFrame (s1.frameCam x) x.started csiNo] }) := by
  rw [execFrameStartPacket_some up room context, free]
  rfl

theorem execFrameStartPacket_drops (context : s1.media.nextCam port vc = some (c, x)) (taken : (s1.frameCam x).slotTaken x.started = true) :
    execFrameStartPacket port vc csiNo s = .next (s1.setMedia ((s1.media.setCam c { s1.frameCam x with dropping := true }).setPipe x.pipe
      { s1.media.pipe x.pipe with drops := satAdd (s1.media.pipe x.pipe).drops 1 0xFFFFFFFF })) := by
  rw [execFrameStartPacket_some up room context, if_pos taken]

end Start

/-- No slot is taken for an inline frame, or where no unfinished frame lies in it (R410, R437). -/
theorem State.slotTaken_eq_false (h : x.dflt = true ∨ (x.watch.isSome = true ∧ s.pwr.state < 2) ∨
    ∀ f ∈ x.frames, f.no % camRawSlots x.raw ≠ x.started % camRawSlots x.raw) : (s.frameCam x).slotTaken x.started = false := by
  rcases h with dflt | ⟨watched, low⟩ | apart
  · simp [CamCtx.slotTaken, State.frameCam, dflt]
  · simp [CamCtx.slotTaken, State.frameCam, watched, Nat.not_le.2 low]
  · simpa [CamCtx.slotTaken, State.frameCam] using fun _ _ => apart

/-- The slot is taken for a frame that does not run inline where an unfinished one lies in it (R410). -/
theorem State.slotTaken_eq_true (started : x.dflt = false) (unwatched : x.watch = none ∨ 2 ≤ s.pwr.state)
    (lies : ∃ f ∈ x.frames, f.no % camRawSlots x.raw = x.started % camRawSlots x.raw) : (s.frameCam x).slotTaken x.started = true := by
  have watch : (if 2 ≤ s.pwr.state then none else x.watch) = none := by rcases unwatched with h | h <;> simp [h]
  simpa [CamCtx.slotTaken, State.frameCam, started, watch] using lies

/-! Long packets and frame ends (R390, R408, R411 to R413). -/

/-- A port with the errors of a packet counted whose header is clean or corrected (R390). -/
def Port.countPacket (p : Port) (hdr : Nat) (crcOk : Bool) : Port :=
  { p with
    hdrCorrected := if hdr = 1 then satAdd p.hdrCorrected 1 0xFFFF else p.hdrCorrected
    crcBad := if crcOk then p.crcBad else satAdd p.crcBad 1 0xFFFF }

theorem Port.countPacket_fin (p : Port) (hdr : Fin 3) (crcOk : Bool) : p.countPacket hdr crcOk = { p with
    hdrCorrected := if hdr = 1 then satAdd p.hdrCorrected 1 0xFFFF else p.hdrCorrected
    crcBad := if crcOk then p.crcBad else satAdd p.crcBad 1 0xFFFF } := by
  simp [Port.countPacket, Fin.ext_iff]

section Long

variable {dt : Option Nat} {hdr : Nat} {crcOk : Bool} {k : Nat → CamCtx → State → State}

include up

/-- A packet whose header cannot be corrected is only counted (R390). -/
theorem State.longPacket_badHeader : s.longPacket port vc dt 2 crcOk k =
    .next (s.setPort port { s.media.port port with hdrEcc := satAdd (s.media.port port).hdrEcc 1 0xFFFF }) := by
  simp [State.longPacket, up]

variable (sound : hdr ≠ 2)

include sound

theorem State.longPacket_unmatched (noContext : s.media.hasCam port vc dt = false) : s.longPacket port vc dt hdr crcOk k =
    .next ((s.setPort port ((s.media.port port).countPacket hdr crcOk)).unmatchedPacket port) := by
  have counted : (s.setPort port ((s.media.port port).countPacket hdr crcOk)).media.hasCam port vc dt = false := noContext
  simp only [Port.countPacket] at counted ⊢
  simp [State.longPacket, up, sound, counted]

theorem State.longPacket_open (context : s.media.hasCam port vc dt = true) (opened : s.media.openCam port vc = some (c, x))
    (kept : x.dropping = false) : s.longPacket port vc dt hdr crcOk k =
    .next (k c x (s.setPort port ((s.media.port port).countPacket hdr crcOk))) := by
  have counted : (s.setPort port ((s.media.port port).countPacket hdr crcOk)).media.hasCam port vc dt = true := context
  have still : (s.setPort port ((s.media.port port).countPacket hdr crcOk)).media.openCam port vc = some (c, x) := opened
  simp only [Port.countPacket] at counted still ⊢
  simp [State.longPacket, up, sound, counted, still, kept]

end Long

include up

/-- An image line of the open frame lands in it (R408, R412). -/
theorem execLinePacket_lands {dt hdr : Nat} {px : List Nat} {crcOk : Bool} {f : CamFrame} (sound : hdr ≠ 2)
    (context : s.media.hasCam port vc (some dt) = true) (opened : s.media.openCam port vc = some (c, x)) (last : x.frames.getLast? = some f)
    (kept : x.dropping = false) (type : profType x.profile = dt) : execLinePacket port vc dt hdr px crcOk s =
      .next ((s.setPort port ((s.media.port port).countPacket hdr crcOk)).landLine c x f px crcOk) := by
  rw [execLinePacket, State.longPacket_open up sound context opened kept, last]
  simp [type]

/-- An embedded line joins the first 64 KiB of the open frame's, a bad one as it came (R408, R452; log entry 172). -/
theorem execEmbeddedDataLine_joins {e : EmbLine} (sound : e.hdr.val ≠ 2) (context : s.media.hasCam port vc none = true)
    (opened : s.media.openCam port vc = some (c, x)) (kept : x.dropping = false) : execEmbeddedDataLine port vc e s =
      .next ((s.setPort port ((s.media.port port).countPacket e.hdr e.crcOk)).setCam c (x.mapLast (fun f => { f with
        emb := (f.emb ++ e.data).take 65536, bad := f.bad + (if e.crcOk then 0 else 1) }))) := by
  rw [execEmbeddedDataLine, State.longPacket_open up sound context opened kept]
  cases e.crcOk <;> rfl

theorem execFrameEndPacket_open (opened : s.media.openCam port vc = some (c, x)) :
    execFrameEndPacket port vc s = .next (s.closeFrame c false) := by
  simp [execFrameEndPacket, up, opened]

theorem execFrameEndPacket_unmatched (closed : s.media.openCam port vc = none) (noContext : s.media.hasCam port vc none = false) :
    execFrameEndPacket port vc s = .next (s.unmatchedPacket port) := by
  simp [execFrameEndPacket, up, closed, noContext]

end Packets

/-- Settles O42: a frame start goes by what stands in its slot, the long packets share one reading of their header and context, and a frame
end closes the open frame. -/
theorem framePackets : Obligations.FramePackets := by
  intro s port vc up
  refine ⟨?start, fun dt px crcOk => ?lostLine, ?line, fun e bad => ?lostEmbedded, ?embedded, fun c x opened =>
    execFrameEndPacket_open up opened, execFrameEndPacket_unmatched up⟩
  case start =>
    intro csiNo s1 room
    have room : s1 = s.closeOpen port vc := room
    refine ⟨fun noContext noSuspended => ?_, fun c x noContext suspended => ?_,
      fun c x context => ⟨fun free => ?_, fun dflt watch lies => ?_⟩⟩
    · refine (execFrameStartPacket_none up room noContext).trans ?_
      rw [show s1.media.suspendedCam port vc = none from noSuspended]
      rfl
    · refine (execFrameStartPacket_none up room noContext).trans ?_
      rw [show s1.media.suspendedCam port vc = some (c, x) from suspended]
      rfl
    · exact ⟨_, _, _, execFrameStartPacket_opens up room context (State.slotTaken_eq_false free), State.cam_setCam_same .., rfl, rfl, rfl, rfl,
        rfl, rfl, rfl, rfl, rfl⟩
    · exact ⟨_, _, execFrameStartPacket_drops up room context (State.slotTaken_eq_true dflt watch lies), State.cam_setCam_same .., rfl, rfl, rfl,
        congrArg Pipe.drops (Tbl.get_set_same ..)⟩
  case lostLine => exact (State.longPacket_badHeader up : execLinePacket port vc dt 2 px crcOk s = _)
  case line =>
    intro dt hdr px crcOk s1 sound counted
    rw [← Port.countPacket_fin] at counted
    subst counted
    have sound : hdr.val ≠ 2 := fun h => sound (Fin.ext h)
    exact ⟨fun noContext => (State.longPacket_unmatched up sound noContext : execLinePacket port vc dt hdr px crcOk s = _),
      fun c x f context opened last kept type => execLinePacket_lands up sound context opened last kept type⟩
  case lostEmbedded =>
    show execEmbeddedDataLine port vc e s = _
    rw [execEmbeddedDataLine, bad]
    exact State.longPacket_badHeader up
  case embedded =>
    intro e s1 sound counted
    rw [← Port.countPacket_fin] at counted
    subst counted
    have sound : e.hdr.val ≠ 2 := fun h => sound (Fin.ext h)
    exact ⟨fun noContext => (State.longPacket_unmatched up sound noContext : execEmbeddedDataLine port vc e s = _),
      fun c x context opened kept => execEmbeddedDataLine_joins up sound context opened kept⟩

end Sys2Proof.Machine
end

section
/-!
PROOF. Units of an ISP pipe (R423, R431, R434, R454, R594): an idle pipe starts the next ready unit, and a unit's end hands its lines on.
-/
namespace Sys2Proof.Machine

variable {s : State} {p c n : Nat} {f : CamFrame} {x : CamCtx} (live : s.errs.halted = false)

include live

/-- Outside HOLD an idle pipe that is on starts the next ready unit; a frame's first unit begins the frame (R431, R434, R454, R594). -/
theorem execIspUnitStart_ready (outside : s.pwr.ledger.hold = false) (idle : (s.media.pipe p).run = none) (on : s.pipeOn p = true)
    (next : s.nextUnit p = some (c, f, n)) (context : s.media.cam c = some x) {s1 : State} (begun : s1 = if f.begun then s else s.beginFrame c x f) :
    execIspUnitStart p s = .next (s1.setMedia (s1.media.setPipe p { s.media.pipe p with
      run := some { ctx := c, line := f.next, len := n }, held := some c })) := by
  subst begun
  simp [execIspUnitStart, live, outside, idle, on, next, context]

/-- At a unit's end that no slice holds, its lines enter the statistics and the ring forgets the lines above the halo; then the frame is
finished if it is due (R303, R423, R437). -/
theorem execIspUnitEnd_runs {u : IspUnit} {rest : List CamFrame} {s1 : State} (runs : (s.media.pipe p).run = some u)
    (idle : s1 = s.setMedia (s.media.setPipe p { s.media.pipe p with run := none })) (context : s1.media.cam u.ctx = some x)
    (oldest : x.frames = f :: rest) (served : f.inline x = true ∨ s.memHeld (x.lineAt f 0) (rawFrame x.profile) = false) :
    execIspUnitEnd p s = .next ((s1.setCam u.ctx { x with frames := { f with
      next := u.line + u.len, stats := f.stats.addLines (s1.camView x f) u.line u.len
      ring := f.ring.filter (fun e => decide (u.line + u.len ≤ e.1 + 3)) } :: rest }).finishDue u.ctx) := by
  subst idle
  have context : s.media.cam u.ctx = some x := context
  have unheld : (!f.inline x && s.memHeld (x.lineAt f 0) (rawFrame x.profile)) = false := by
    rcases served with inline | free
    · simp [inline]
    · simp [free]
  simp [execIspUnitEnd, live, runs, context, oldest, unheld]

omit live

/-- Settles O43: each clause is the lemma of its command. -/
theorem ispUnits : Obligations.IspUnits := fun _ _ live =>
  ⟨fun _ _ _ _ _ outside idle on next context begun => execIspUnitStart_ready live outside idle on next context begun,
   fun _ _ _ _ _ runs idle context oldest served => execIspUnitEnd_runs live runs idle context oldest served⟩

end Sys2Proof.Machine
end

section
/-!
PROOF. Camera commands (R391, R445 to R449, R453): a descriptor joins its port's queue, and the command at the head runs over its context.
-/
namespace Sys2Proof.Machine

variable {s : State} (live : s.errs.halted = false)

/-! A descriptor is checked and queued (R445). -/

section Queue

variable {n idx : Nat} {d : Desc} {x : CamCtx} (started : s.runningDesc n idx 3 = some d)
  (fresh : s.media.ports.any (fun e => e.2.queue.any (fun q => q.ctx == n && q.idx == idx)) = false)
  (context : s.media.cam (fldBits (slice d.raw 0x20 32) 0 11 8) = some x)

include started fresh context

/-- A command that is unsound, or names a context of another function, is refused (R391, R445). -/
theorem execCamera_refused (unsound : camCmdOk (slice d.raw 0x20 32) = false ∨ x.fn ≠ s.ctxFn n) :
    execCamera n idx s = .next (s.endDesc n idx .eCamConfig) := by
  have refused : (!camCmdOk (slice d.raw 0x20 32) || x.fn != s.ctxFn n) = true := by simpa using unsound
  simp [execCamera, started, fresh, context, refused]

variable (sound : camCmdOk (slice d.raw 0x20 32) = true) (owned : x.fn = s.ctxFn n)

include sound owned

theorem execCamera_queued (room : (s.media.port x.port).queue.length < 16) :
    execCamera n idx s = .next (s.setPort x.port { s.media.port x.port with
      queue := (s.media.port x.port).queue ++ [{ ctx := n, idx := idx, part := (s.ctx n).part, raw := slice d.raw 0x20 32 }] }) := by
  simp [execCamera, started, fresh, context, sound, owned, Nat.not_le.2 room]

theorem execCamera_full (full : 16 ≤ (s.media.port x.port).queue.length) :
    execCamera n idx s = .next (s.endDesc n idx .eCamCmdFull) := by
  simp [execCamera, started, fresh, context, sound, owned, full]

end Queue

/-! The command at the head of a port's queue (R445). -/

@[simp] theorem State.setPort_cam (s : State) (p : Nat) (y : Port) (c : Nat) : (s.setPort p y).media.cam c = s.media.cam c := rfl
@[simp] theorem State.setPort_ctxFn (s : State) (p : Nat) (y : Port) (n : Nat) : (s.setPort p y).ctxFn n = s.ctxFn n := rfl

section Head

variable {p op : Nat} {q : CamCmd} {rest : List CamCmd} {s1 : State} (head : (s.media.port p).queue = q :: rest)
  (popped : s1 = s.setPort p { s.media.port p with queue := rest }) (unheld : s.camCmdHeld q = false)

include live head popped unheld

/-- A command whose context is gone, or has started anew for another function or on another port, ends with E_CAM_CONFIG (log entry 207). -/
theorem State.camRun_gone (code : camOp q.raw = op) (gone : s.media.cam (fldBits q.raw 0 11 8) = none ∨
    ∃ x, s.media.cam (fldBits q.raw 0 11 8) = some x ∧ (x.fn ≠ s.ctxFn q.ctx ∨ x.port ≠ p))
    (k : CamCmd → Nat → CamCtx → State → State) : s.camRun p op k = .next (s1.endDesc q.ctx q.idx .eCamConfig) := by
  subst popped
  rcases gone with none | ⟨x, context, other⟩
  · simp [State.camRun, head, live, code, unheld, none]
  · rw [← State.setPort_ctxFn s p { s.media.port p with queue := rest }] at other
    simp only [State.camRun, head, live, code, unheld, State.setPort_cam, context, bne_self_eq_false, Bool.or_self, Bool.false_eq_true, if_false]
    rw [if_pos other]

variable {x : CamCtx} (context : s.media.cam (fldBits q.raw 0 11 8) = some x) (owned : x.fn = s.ctxFn q.ctx) (here : x.port = p)

include context owned here

/-- A command of a context that still stands runs over it. -/
theorem State.camRun_head (code : camOp q.raw = op) (k : CamCmd → Nat → CamCtx → State → State) :
    s.camRun p op k = .next (k q (fldBits q.raw 0 11 8) x s1) := by
  subst popped
  simp [State.camRun, head, live, code, unheld, context, owned, here]

omit live head unheld context owned here in
/-- The writes a port sends go by its link as it was before the command left the queue (R446, R447). -/
theorem State.sendWrites_popped (prof : List Byte) (ws : List Nat) {acked n : Nat}
    (answered : n = if (s.media.port p).link = 3 then acked else 0) :
    s1.sendWrites p prof ws acked = (s1.uplinkWrites p prof (ws.take (n + 1)), decide (ws.length ≤ n)) := by
  subst popped answered
  rw [State.sendWrites, State.port_setPort_same]

/-- A SENSOR_WRITE ends OK when all its writes were acknowledged (R446, R447). -/
theorem execSensorWrite_head {acked n : Nat} (answered : n = if (s.media.port p).link = 3 then acked else 0) (code : camOp q.raw = 1) :
    execSensorWrite p acked s = .next ((s1.uplinkWrites p x.profile ((camWrites q.raw).take (n + 1))).endDesc q.ctx q.idx
      (if (camWrites q.raw).length ≤ n then .ok else .eSensorNack)) := by
  rw [execSensorWrite, State.camRun_head live head popped unheld context owned here code]
  simp [State.sendWrites_popped popped _ _ answered]

/-- An EXPOSURE of which a write is not acknowledged gets no identifier (R447, R448). -/
theorem execExposure_nack {acked n : Nat} (answered : n = if (s.media.port p).link = 3 then acked else 0) (code : camOp q.raw = 3)
    (few : n < (camWrites q.raw).length) : execExposure p acked s =
      .next ((s1.uplinkWrites p x.profile ((camWrites q.raw).take (n + 1))).endDesc q.ctx q.idx .eSensorNack) := by
  rw [execExposure, State.camRun_head live head popped unheld context owned here code]
  simp [State.sendWrites_popped popped _ _ answered, few]

/-- A completed EXPOSURE gets the next identifier and its target frame (R448, R449). -/
theorem execExposure_completed {acked : Nat} (code : camOp q.raw = 3) (linked : (s.media.port p).link = 3)
    (all : (camWrites q.raw).length ≤ acked) : execExposure p acked s =
      .next (((((s1.uplinkWrites p x.profile (camWrites q.raw)).setCam (fldBits q.raw 0 11 8) { x with
        lastExp := x.lastExp % 65535 + 1,
        reqs := { id := x.lastExp % 65535 + 1, target := x.started + profDelay x.profile - 1, writes := camWrites q.raw } :: x.reqs }).setDesc
          q.ctx q.idx (fun d => { d with
            detail0 := x.lastExp % 65535 + 1, detail1 := (x.started + profDelay x.profile - 1) % 2 ^ 32 })).endDesc q.ctx q.idx .ok)) := by
  have answered : acked = if (s.media.port p).link = 3 then acked else 0 := (if_pos linked).symm
  rw [execExposure, State.camRun_head live head popped unheld context owned here code]
  simp only [State.sendWrites_popped popped _ _ answered, all, List.take_of_length_le (Nat.le_succ_of_le all), decide_true, Bool.not_true,
    Bool.false_eq_true, if_false]

section Read

variable {s2 : State} (asked : s2 = s1.emit (.uplink p
  (toLE 1 (profAddr x.profile) ++ toLE 1 (bits (fld q.raw 4 2) 15 8) ++ toLE 1 (bits (fld q.raw 4 2) 7 0)))) (code : camOp q.raw = 2)

include asked code

/-- A SENSOR_READ that is refused ends with E_SENSOR_NACK (R447). -/
theorem execSensorRead_refused : execSensorRead p .refused s = .next (s2.endDesc q.ctx q.idx .eSensorNack) := by
  subst asked
  rw [execSensorRead, State.camRun_head live head popped unheld context owned here code]

/-- So does one without a link, and one whose answer breaks off (R446, R447). -/
theorem execSensorRead_short {bs : List Byte} (short : (s.media.port p).link ≠ 3 ∨ bs.length < camCount q.raw) :
    execSensorRead p (.data bs) s = .next (s2.endDesc q.ctx q.idx .eSensorNack) := by
  subst asked
  have link : (s1.media.port p).link = (s.media.port p).link := by rw [popped, State.port_setPort_same]
  rw [execSensorRead, State.camRun_head live head popped unheld context owned here code]
  simp only [State.emit_media, link, if_pos short]

/-- A whole answer goes to the command's buffer (R446). -/
theorem execSensorRead_whole {bs : List Byte} {s3 : State} {st : Status} (linked : (s.media.port p).link = 3)
    (whole : camCount q.raw ≤ bs.length) (stored : s2.camStore q (bs.take (camCount q.raw)) = (s3, st)) :
    execSensorRead p (.data bs) s = .next ((s3.setDesc q.ctx q.idx (fun d =>
      { d with detail0 := if st == .ok then camCount q.raw else 0 })).endDesc q.ctx q.idx st) := by
  subst asked
  have answered : ¬((s1.media.port p).link ≠ 3 ∨ bs.length < camCount q.raw) := by
    rw [popped, State.port_setPort_same]
    simp [linked, whole]
  rw [execSensorRead, State.camRun_head live head popped unheld context owned here code]
  simp only [State.emit_media, if_neg answered, stored]

end Read

section Params

/-- A parameter block waits in a context's pending bank under the next sequence number, and its command ends (R453). -/
def State.loadParams (q : CamCmd) (x : CamCtx) (bs : List Byte) (u : State) : State :=
  ((u.setCam (fldBits q.raw 0 11 8) { x with
    lastSeq := x.lastSeq % 65535 + 1, pend := some (bs, x.lastSeq % 65535 + 1, fld q.raw 8 4) }).setDesc q.ctx q.idx
      (fun d => { d with detail0 := x.lastSeq % 65535 + 1 })).endDesc q.ctx q.idx .ok

variable {part : Part} (code : camOp q.raw = 4) (granted : s.part q.part = some part)

include code granted

/-- A block in host memory is read under the function of the command's partition. -/
theorem execIspParams_host (bs : List Byte) (space : fldBits q.raw 0 5 4 ≠ 1) : execIspParams p (.data bs) s =
    .next (((s1.hostRead part.fn (fld q.raw 0x10 8) 6272 3).account (some q.ctx) q.part 3 6272).loadParams q x (slice bs 0 6272)) := by
  have granted : s1.part q.part = some part := popped ▸ granted
  rw [execIspParams, State.camRun_head live head popped unheld context owned here code]
  simp only [if_neg space, granted]
  rfl

/-- A block in stacked memory that the partition may read, and that no poison touches. -/
theorem execIspParams_stacked (host : HostRead) (space : fldBits q.raw 0 5 4 = 1)
    (allowed : s.stackedErr part q.part (s.gen q.part) (fld q.raw 0x10 8) 6272 = none)
    (sound : s.poisoned (fld q.raw 0x10 8) 6272 = false) : execIspParams p host s =
    .next ((s1.accountStacked (some q.ctx) q.part 2 false (fld q.raw 0x10 8) 6272).loadParams q x (s.readMem (fld q.raw 0x10 8) 6272)) := by
  have granted : s1.part q.part = some part := popped ▸ granted
  have allowed : s1.stackedErr part q.part (s1.gen q.part) (fld q.raw 0x10 8) 6272 = none := popped ▸ allowed
  have sound : s1.poisoned (fld q.raw 0x10 8) 6272 = false := popped ▸ sound
  have same : s1.readMem (fld q.raw 0x10 8) 6272 = s.readMem (fld q.raw 0x10 8) 6272 := by rw [popped]; rfl
  rw [execIspParams, State.camRun_head live head popped unheld context owned here code]
  simp only [if_pos space, granted, allowed, sound, same, Bool.false_eq_true, if_false]
  rfl

end Params

end Head

/-- Settles O44: a descriptor is queued or refused, and each kind of command runs from the head of the queue. -/
theorem cameraCommands : Obligations.CameraCommands := by
  intro s live
  refine ⟨?queue, ?gone, ?head⟩
  case queue =>
    rintro n idx d x _ started rfl fresh context
    exact ⟨execCamera_refused started fresh context, execCamera_queued started fresh context, execCamera_full started fresh context⟩
  case gone =>
    intro p q rest r acked host s1 head unheld popped gone kinds code
    simp only [List.mem_cons, List.not_mem_nil, or_false] at kinds
    rcases kinds with rfl | rfl | rfl | rfl
    · exact (State.camRun_gone live head popped unheld code gone _ : execSensorWrite p acked s = _)
    · exact (State.camRun_gone live head popped unheld code gone _ : execSensorRead p host s = _)
    · exact (State.camRun_gone live head popped unheld code gone _ : execExposure p acked s = _)
    · exact (State.camRun_gone live head popped unheld code gone _ : execIspParams p host s = _)
  case head =>
    rintro p q rest x _ s1 head rfl context popped unheld owned here
    refine ⟨fun acked n => execSensorWrite_head live head popped unheld context owned here,
      fun bs s2 s3 st code asked => ⟨?short, ?refused, ?whole⟩,
      fun acked n => execExposure_nack live head popped unheld context owned here,
      fun acked => execExposure_completed live head popped unheld context owned here, ?params⟩
    case short => exact execSensorRead_short live head popped unheld context owned here asked code
    case refused => exact execSensorRead_refused live head popped unheld context owned here asked code
    case whole => exact execSensorRead_whole live head popped unheld context owned here asked code
    case params =>
      rintro part _ code granted rfl
      exact ⟨execIspParams_host live head popped unheld context owned here code granted,
        execIspParams_stacked live head popped unheld context owned here code granted⟩

end Sys2Proof.Machine
end

section
/-!
PROOF. Mutes (R470 to R473, R477, R492): what a mute land that goes low, an unmute and the end of the settling do to their group.
-/
namespace Sys2Proof.Machine

variable {s : State} {g : Nat}

/-! What an event, the end of a session and the end of streams leave of the media. -/

@[simp] theorem State.event_media (s : State) (f : Nat) (code : Status) (pl : List Byte) (keep : Bool) :
    (s.event f code pl keep).media = s.media := by
  obtain ⟨x, r, e⟩ := s.event_rest f code pl keep
  rw [e]

/-- A session that ends, with an event or without one, leaves its group sealed and the media otherwise as they were (R477). -/
@[simp] theorem State.closeSession_media (s : State) (g : Nat) (st : Option Status) :
    (s.closeSession g st).media = s.media.setGroup g { s.media.group g with session := none } := by
  unfold State.closeSession
  dsimp only
  split
  · exact State.event_media ..
  · rfl

/-- Streams that end leave the table of streams, and the media otherwise as they were (R492). -/
@[simp] theorem State.stopStreams_media (s : State) (keep : AudStream → Bool) (st : Status) :
    (s.stopStreams keep st).media = { s.media with streams := s.media.streams.filter keep } :=
  foldl_frame State.media _ (fun _ _ => State.event_media ..) ..

@[simp] theorem Media.group_setGroup_same (m : Media) (g : Nat) (x : AudGroup) : (m.setGroup g x).group g = x := Tbl.get_set_same ..

/-! The commands. -/

/-- A group while its mute land is low: no clock, no power, the indicator lit, and no candidate left (R471, R472). -/
def AudGroup.silenced (x : AudGroup) : AudGroup :=
  { x.mark true false with
    landLow := true, muted := true, settling := false, clock := false, power := false, lit := true, cand := none, onset := none }

/-- With power a mute land that goes low silences its group and ends its session and its streams (R472, R477, R492). -/
theorem execMuteAssert_on (h : s.pwr.aon = true) (g : Nat) :
    execMuteAssert g s = .next (((s.setGroup g (s.media.group g).silenced).closeSession g (some .audMuted)).stopStreams
      (fun y => !(y.group == g)) .audMuted) := by
  simp only [execMuteAssert, h, Bool.not_true, Bool.false_eq_true, if_false, AudGroup.silenced]

/-- Without power only the level of the land is known (R471). -/
theorem execMuteAssert_off (h : s.pwr.aon = false) (g : Nat) :
    execMuteAssert g s = .next (s.setGroup g { s.media.group g with landLow := true }) := by
  simp [execMuteAssert, h]

/-- Before Stage A has completed only the indicator acts (Table 14.1). -/
theorem execUnmute_early (h : s.pwr.aon = true) (early : s.pwr.stageADone = false) (muted : (s.media.group g).muted = true) :
    execUnmute g s = .next (s.setGroup g { s.media.group g with landLow := false, muted := false, lit := false }) := by
  simp [execUnmute, h, early, muted]

/-- After Stage A the group has its clock and its power again and settles (R473). -/
theorem execUnmute_started (h : s.pwr.aon = true) (done : s.pwr.stageADone = true) (muted : (s.media.group g).muted = true) :
    execUnmute g s = .next (s.setGroup g { s.media.group g with
      landLow := false, muted := false, settling := true, clock := true, power := true, lit := false, chains := [] }) := by
  simp [execUnmute, h, done, muted]

/-- A settled group captures again, from the warm-up of its noise floor (R473, R482). -/
theorem execMuteSettleEnd_settling (h : (s.media.group g).settling = true) :
    execMuteSettleEnd g s = .next (s.setGroup g { s.media.group g with settling := false, warm := 50, floor := none, onset := none }) := by
  simp [execMuteSettleEnd, h]

/-- The group after its mute land has gone low. -/
theorem State.muted_group (s : State) (g : Nat) (x : AudGroup) (keep : AudStream → Bool) (a b : Status) :
    (((s.setGroup g x).closeSession g (some a)).stopStreams keep b).media.group g = { x with session := none } := by
  rw [State.stopStreams_media, State.closeSession_media, State.group_setGroup_same]
  exact Media.group_setGroup_same ..

/-- Settles O45: each clause is the lemma of its command. That the land reads high again only at its unmute is log entry 195. -/
theorem mutedGroupStaysDark : Obligations.MutedGroupStaysDark := by
  intro s g
  refine ⟨fun on => ⟨_, execMuteAssert_on on g, ?muted⟩, (execMuteAssert_off · g), execUnmute_early, execUnmute_started,
    execMuteSettleEnd_settling⟩
  rw [State.muted_group]
  refine ⟨rfl, rfl, rfl, rfl, rfl, rfl, rfl, rfl, fun y hy => ?ended⟩
  rw [State.stopStreams_media] at hy
  simpa using (List.mem_filter.mp hy).2

end Sys2Proof.Machine
end

section
/-!
PROOF. The mailbox commands of the root of trust and the recogniser image (R481, R643, R646 to R648, R653, R654, R663, R665, R672): what a
free mailbox makes of a command, and what each command does there.
-/
namespace Sys2Proof.Machine

variable {s : State} {f c : Nat} {a : Option Nat}

/-! A command on a free mailbox. -/

/-- A free mailbox takes the command and holds it while it runs (R646, R648). -/
theorem State.mailGo_free (h : s.mailFree f) (c : Nat) (a : Option Nat) :
    s.mailGo f c a = s.setMbox f { s.mbox f with
      code := c, arg := (a.map (BitVec.ofNat 32)).getD (s.mbox f).arg,
      run := some { code := c, arg := ((a.map (BitVec.ofNat 32)).getD (s.mbox f).arg).toNat, len := (s.mbox f).len.toNat,
                    buffer := (s.mbox f).buffer } } := by
  simp [State.mailGo, h.1]

theorem State.mailGo_setMbox (h : s.mailFree f) (c : Nat) (a : Option Nat) : ∃ m, s.mailGo f c a = s.setMbox f m :=
  ⟨_, State.mailGo_free h c a⟩

/-- The length that a command runs with is the one that the register held at its GO (R646). -/
theorem State.mailCmd_mailGo_len (h : s.mailFree f) (c : Nat) (a : Option Nat) : ((s.mailGo f c a).mailCmd f).len = (s.mbox f).len.toNat := by
  rw [State.mailGo_free h, State.mailCmd, State.mbox_setMbox, if_pos rfl]
  rfl

@[simp] theorem State.setMbox_debugOpen (s : State) (f : Nat) (m : Mbox) : (s.setMbox f m).debugOpen = s.trust.scope.isSome := rfl

/-- What a mailbox command is answered with: the state, the status and the payload. -/
def mailAnswer (f : Nat) (r : State × Status × List Byte) : State := r.1.mailDone f r.2.1 r.2.2

/-- A command that a free mailbox may take from its function runs on the state in which the mailbox holds it (R647). -/
theorem State.mailbox_free (live : s.errs.halted = false) (h : s.mailFree f) {allowed : Bool} (ha : allowed = true)
    (k : State → State × Status × List Byte) : s.mailbox f c a allowed k = .next (mailAnswer f (k (s.mailGo f c a))) := by
  subst ha
  exact State.mailbox_live live h

/-- So does one that reads its buffer, while the link of its function does not retrain (R501). -/
theorem State.mailboxRead_free (link : (s.link (s.linkOf f)).retraining = false) (live : s.errs.halted = false) (h : s.mailFree f)
    {allowed : Bool} (ha : allowed = true) (k : State → State × Status × List Byte) :
    s.mailboxRead f c allowed k = .next (mailAnswer f (k (s.mailGo f c none))) := by
  rw [State.mailboxRead, link, if_neg Bool.false_ne_true, State.mailbox_free live h ha]

section Commands
variable (live : s.errs.halted = false)
include live

/-! Images and fuses (R651, R653, R654). -/

/-- A revocation image is checked and its bits are blown, unless it would revoke its own signer or leave none (R654). -/
theorem execSignerRevoke_data (link : (s.link (s.linkOf 0)).retraining = false) (h : s.mailFree 0) (d : List Byte) :
    let u := (s.mailGo 0 1 none).mailRead 0 (.data d)
    let b := u.mailBytes 0 d
    execSignerRevoke 0 (.data d) s = .next (match u.imageErr 3 b with
      | some e => u.mailDone 0 e []
      | none =>
        if fldBits (imgBody b) 0 31 4 ≠ 0 then u.mailDone 0 .eSecDenied []
        else if bit (fldBits (imgBody b) 0 3 0) (imgSigner b) = true ∨ validSigners (u.trust.revoke ||| fldBits (imgBody b) 0 3 0) = [] then
          u.mailDone 0 .eLastSigner []
        else (u.setTrust { u.trust with revoke := u.trust.revoke ||| fldBits (imgBody b) 0 3 0 }).mailDone 0 .ok []) := by
  intro u b
  rw [execSignerRevoke, State.mailboxRead_free link live h (beq_self_eq_true 0)]
  change Host.Outcome.next (mailAnswer 0 (match u.imageErr 3 b with | some e => _ | none => _)) = _
  cases u.imageErr 3 b with
  | some e => rfl
  | none =>
    dsimp only
    split
    · rfl
    split <;> rfl

/-- The firmware's counter: a running image behind it fails, one that stands there changes nothing, and one ahead of it blows the fuses
(R653). -/
theorem execSvnCommit_firmware (h : s.mailFree 0) :
    let t := s.mailGo 0 2 (some 0)
    execSvnCommit 0 0 s = .next (
      if t.trust.runSvn < t.trust.fwSvn then t.mailDone 0 .eFwRollback []
      else if t.trust.runSvn = t.trust.fwSvn then t.mailDone 0 .ok []
      else (t.setTrust { t.trust with fwFuse := blowPairs t.trust.fwFuse t.trust.runSvn }).mailDone 0 .ok []) := by
  rw [execSvnCommit, State.mailbox_free live h (by decide)]
  dsimp only
  rw [if_pos rfl]
  split
  · rfl
  split <;> rfl

/-- The recogniser's counter likewise (R653). -/
theorem execSvnCommit_recogniser (h : s.mailFree 0) :
    let t := s.mailGo 0 2 (some 1)
    execSvnCommit 0 1 s = .next (
      if t.trust.recogImageSvn < t.trust.recogSvn then t.mailDone 0 .eFwRollback []
      else if t.trust.recogImageSvn = t.trust.recogSvn then t.mailDone 0 .ok []
      else (t.setTrust { t.trust with recogFuse := blowPairs t.trust.recogFuse t.trust.recogImageSvn }).mailDone 0 .ok []) := by
  rw [execSvnCommit, State.mailbox_free live h (by decide)]
  dsimp only
  rw [if_neg Nat.one_ne_zero]
  split
  · rfl
  split <;> rfl

/-! Releases (R663 to R668). -/

/-- A release entry opens while the test port is closed and there is room (R663, R673). -/
theorem execReleaseOpen_owned (h : s.mailFree f) {p : Nat} (own : s.ownsPart f p = true) :
    let t := s.mailGo f 3 (some p)
    let r : Release := { reqId := t.trust.nextReq, fn := f, part := p, gen := t.gen p, rand := slice (Config.freshRandom t.draws) 0 32 }
    execReleaseOpen f p s = .next (
      if t.debugOpen then t.mailDone f .eDebugOpen []
      else if 16 ≤ t.trust.releases.length then t.mailDone f .eSecBusy []
      else (({ t with draws := t.draws + 1 } : State).setTrust { t.trust with
        releases := t.trust.releases ++ [r], nextReq := (t.trust.nextReq + 1) % 2 ^ 32 }).mailDone f .ok r.bytes) := by
  rw [execReleaseOpen, State.mailbox_free live h own]
  dsimp only
  split
  · rfl
  split <;> rfl

/-- A function closes an entry of its own (R663). -/
theorem execReleaseClose_own (h : s.mailFree f) {id : Nat} (own : s.trust.releases.any (fun r => r.reqId == id && r.fn == f) = true) :
    execReleaseClose f id s = .next (((s.mailGo f 5 (some id)).closeRelease id).mailDone f .ok []) := by
  rw [execReleaseClose, State.mailbox_free live h own]
  rfl

/-- A wrapped key of the right length is unwrapped, checked and installed, or the entry that it names closes (R664 to R666). -/
theorem execReleaseKey_data (link : (s.link (s.linkOf f)).retraining = false) (h : s.mailFree f) (len : (s.mbox f).len.toNat = 384)
    (identity : s.trust.identityOk = true) (closed : s.trust.scope = none) (b : List Byte) :
    let u := (s.mailGo f 4 none).mailRead f (.data b)
    execReleaseKey f (.data b) s = .next (match unwrapRelease b with
      | none => u.mailDone f .eRelease []
      | some msg => match u.releaseFor f msg with
        | none => (u.closeRelease (fld msg 0x28 4)).mailDone f .eRelease []
        | some r =>
          if (u.closeRelease r.reqId).decrypting r.part then (u.closeRelease r.reqId).mailDone f .eWeightSlotBusy []
          else (((u.closeRelease r.reqId).installKey r msg).1).mailDone f ((u.closeRelease r.reqId).installKey r msg).2.1
            ((u.closeRelease r.reqId).installKey r msg).2.2) := by
  intro u
  obtain ⟨m, e⟩ := State.mailGo_setMbox h 4 none
  have identity' : (s.mailGo f 4 none).trust.identityOk = true := by rw [e]; exact identity
  have closed' : (s.mailGo f 4 none).debugOpen = false := by rw [e, State.setMbox_debugOpen, closed]; rfl
  rw [execReleaseKey, State.mailboxRead_free link live h rfl]
  dsimp only
  rw [State.mailCmd_mailGo_len h, if_neg (not_not.mpr len), identity', closed', if_neg (by decide), if_neg (by decide)]
  change Host.Outcome.next (mailAnswer f (match unwrapRelease b with
    | none => _
    | some msg => match u.releaseFor f msg with
      | none => _
      | some r => _)) = _
  cases unwrapRelease b with
  | none => rfl
  | some msg =>
    dsimp only
    cases u.releaseFor f msg with
    | none => rfl
    | some r => dsimp only; split <;> rfl

/-- RELEASE_KEY fails before it reads anything where its length is wrong, the identity is lost or the test port is open (R643, R646, R673). -/
theorem execReleaseKey_refused (link : (s.link (s.linkOf f)).retraining = false) (h : s.mailFree f) (host : HostRead) :
    ((s.mbox f).len.toNat ≠ 384 → execReleaseKey f host s = .next ((s.mailGo f 4 none).mailDone f .eSecDenied [])) ∧
    ((s.mbox f).len.toNat = 384 → s.trust.identityOk = false →
      execReleaseKey f host s = .next ((s.mailGo f 4 none).mailDone f .eIdentityLost [])) ∧
    ((s.mbox f).len.toNat = 384 → s.trust.identityOk = true → s.trust.scope ≠ none →
      execReleaseKey f host s = .next ((s.mailGo f 4 none).mailDone f .eDebugOpen [])) := by
  obtain ⟨m, e⟩ := State.mailGo_setMbox h 4 none
  have identity : (s.mailGo f 4 none).trust.identityOk = s.trust.identityOk := by rw [e]; rfl
  have port : (s.mailGo f 4 none).debugOpen = s.trust.scope.isSome := by rw [e, State.setMbox_debugOpen]
  rw [execReleaseKey, State.mailboxRead_free link live h rfl]
  dsimp only
  rw [State.mailCmd_mailGo_len h, identity, port]
  refine ⟨fun len => ?_, fun len lost => ?_, fun len ok open_ => ?_⟩
  · rw [if_pos len]; rfl
  · rw [if_neg (not_not.mpr len), lost]; rfl
  · rw [if_neg (not_not.mpr len), ok, if_neg (by decide), if_pos (Option.isSome_iff_ne_none.mpr open_)]; rfl

/-! Unlocking (R672). -/

/-- A nonce is drawn, kept and sent (R672). -/
theorem execUnlockNonce_free (h : s.mailFree 0) :
    let t := s.mailGo 0 6 none
    let n := slice (Config.freshRandom t.draws) 0 32
    execUnlockNonce 0 s = .next (({ t with draws := t.draws + 1, trust := { t.trust with nonce := some n } } : State).mailDone 0 .ok n) := by
  rw [execUnlockNonce, State.mailbox_free live h (beq_self_eq_true 0)]
  rfl

/-- A sound token that names this module and its nonce waits for the next start (R651, R672). -/
theorem execUnlock_data (link : (s.link (s.linkOf 0)).retraining = false) (h : s.mailFree 0) (d : List Byte) :
    let u := (s.mailGo 0 7 none).mailRead 0 (.data d)
    let b := u.mailBytes 0 d
    execUnlock 0 (.data d) s = .next (match u.imageErr 4 b with
      | some e => u.mailDone 0 e []
      | none =>
        if slice (imgBody b) 0 12 ≠ slice Config.serial 0 12 ∨ some (slice (imgBody b) 16 32) ≠ u.trust.nonce ∨
            8 ≤ fld (imgBody b) 12 4 then u.mailDone 0 .eSecDenied []
        else (u.setTrust { u.trust with token := some (fld (imgBody b) 12 4) }).mailDone 0 .ok []) := by
  intro u b
  rw [execUnlock, State.mailboxRead_free link live h (beq_self_eq_true 0)]
  change Host.Outcome.next (mailAnswer 0 (match u.imageErr 4 b with | some e => _ | none => _)) = _
  cases u.imageErr 4 b with
  | some e => rfl
  | none => dsimp only; split <;> rfl

end Commands

/-! The recogniser image (R481). -/

/-- A recogniser image is read once the link does not retrain; one that the host sends is counted and checked, and a sound one is kept until
it takes effect (R375, R481, R501, R651). -/
theorem execRecogImage_served {tag : Nat} (served : Served s 0 false false) (link : (s.link (s.linkOf 0)).retraining = false) (h : ImageRead) :
    let u := (s.taken 0 0x74 tag).hostRead 0 h.iova.toNat h.len.toNat 6
    let v := u.accountFn 0 3 h.len.toNat
    execRecogImage 0 tag h s = .next (match h.answer with
      | .refused => u.reply 0 0x74 tag .eIovaFault
      | .data b => match v.imageErr 2 b with
        | some e => (v.logError 3 e 184 0).reply 0 0x74 tag .eAudModel
        | none => (v.setMedia { v.media with nextImage := some (imgSvn b, sha256 (b.take (0x400 + imgLength b))) }).reply 0 0x74 tag .ok) := by
  rw [execRecogImage, link, if_neg Bool.false_ne_true]
  exact State.request_served served _ _ rfl

/-- A version compared with its counter has one of three outcomes (R653). -/
theorem svn_compare {α : Type} (run fuse : Nat) (behind same ahead : α) :
    let r := if run < fuse then behind else if run = fuse then same else ahead
    (fuse = run → r = same) ∧ (fuse < run → r = ahead) ∧ (run < fuse → r = behind) := by
  refine ⟨fun h => ?_, fun h => ?_, fun h => if_pos h⟩
  · exact (if_neg (Nat.lt_irrefl _ <| h ▸ ·)).trans (if_pos h.symm)
  · exact (if_neg (Nat.lt_asymm h)).trans (if_neg (Nat.ne_of_gt h))

/-- Settles O53: each clause is the lemma of its command. That a length other than 384 is denied is log entry 116, the order of the refusals
log entry 117. -/
theorem mailboxAndRecogniser : Obligations.MailboxAndRecogniser := by
  intro s live
  refine ⟨?revoke, fun free => ⟨?firmware, ?recogniser⟩, ?opens, ?notOpened, ?close, fun _ => rfl, ?key, ?keyRefused, ?nonce, ?unlock, ?image⟩
  case revoke =>
    rintro d _ _ link free rfl rfl
    exact execSignerRevoke_data live link free d
  case firmware =>
    rintro _ rfl
    obtain ⟨m, e⟩ := State.mailGo_setMbox free 2 (some 0)
    have commit := execSvnCommit_firmware live free
    rw [e] at commit ⊢
    obtain ⟨same, ahead, behind⟩ := svn_compare s.trust.runSvn s.trust.fwSvn ..
    exact ⟨fun h => commit.trans (congrArg _ (same h)), fun h => commit.trans (congrArg _ (ahead h)),
      fun h => commit.trans (congrArg _ (behind h))⟩
  case recogniser =>
    rintro _ rfl
    obtain ⟨m, e⟩ := State.mailGo_setMbox free 2 (some 1)
    have commit := execSvnCommit_recogniser live free
    rw [e] at commit ⊢
    obtain ⟨same, ahead, behind⟩ := svn_compare s.trust.recogImageSvn s.trust.recogSvn ..
    exact ⟨fun h => commit.trans (congrArg _ (same h)), fun h => commit.trans (congrArg _ (ahead h)),
      fun h => commit.trans (congrArg _ (behind h))⟩
  case opens =>
    rintro f p r _ free own closed room rfl rfl
    obtain ⟨m, e⟩ := State.mailGo_setMbox free 3 (some p)
    have opened := execReleaseOpen_owned live free own
    rw [e] at opened ⊢
    exact opened.trans (congrArg _ ((if_neg (by simp [closed])).trans (if_neg (Nat.not_le.mpr room))))
  case notOpened =>
    intro f p free own
    obtain ⟨m, e⟩ := State.mailGo_setMbox free 3 (some p)
    have opened := execReleaseOpen_owned live free own
    rw [e] at opened ⊢
    refine ⟨fun port => ?_, fun closed full => ?_⟩
    · exact opened.trans (congrArg _ (if_pos (Option.isSome_iff_ne_none.mpr port)))
    · exact opened.trans (congrArg _ ((if_neg (by simp [closed])).trans (if_pos full)))
  case close => exact fun f id free own => execReleaseClose_own live free own
  case key =>
    rintro f b _ link free len identity closed rfl
    exact execReleaseKey_data live link free len identity closed b
  case keyRefused => exact fun f host link free => execReleaseKey_refused live link free host
  case nonce =>
    rintro _ _ free rfl rfl
    obtain ⟨m, e⟩ := State.mailGo_setMbox free 6 none
    have drawn := execUnlockNonce_free live free
    rw [e] at drawn ⊢
    exact drawn
  case unlock =>
    rintro d _ _ link free rfl rfl
    exact execUnlock_data live link free d
  case image =>
    rintro tag h _ _ served link rfl rfl
    have image := execRecogImage_served (tag := tag) served link h
    refine ⟨fun b data => ?_, fun refused => ?_⟩
    · rw [data] at image; exact image
    · rw [refused] at image; exact image

end Sys2Proof.Machine
end

section
/-!
PROOF. Audio set-up, copies of sealed blocks, live streams and the wake queue (R467 to R469, R474 to R477, R479, R482, R488, R490, R492,
R616): what each command does to its group, and to streams and records.
-/
namespace Sys2Proof.Machine

variable {s : State} {f g tag : Nat}

/-! A write through the slices and a slot leave the media and the compute side as they were. -/

/-- What an IOD unit writes into stacked memory lands there, or waits in its slices (R303, R425). -/
theorem State.sliceWrite_rest (s : State) (p gen a : Nat) (bs : List Byte) :
    ∃ m w d k, s.sliceWrite p gen a bs = { s with mem := m, work := w, dmem := d, poison := k } := by
  unfold State.sliceWrite
  split
  · exact ⟨_, s.work, s.dmem, s.poison, rfl⟩
  · obtain ⟨t, e⟩ := s.accountStacked_rest none p 2 true a bs.length
    obtain ⟨d, k, e'⟩ := (s.accountStacked none p 2 true a bs.length).writeMem_rest a bs
    exact ⟨s.mem, { s.work with acct := t }, d, k, by rw [e', e]⟩

@[simp] theorem State.sliceWrite_media (s : State) (p gen a : Nat) (bs : List Byte) : (s.sliceWrite p gen a bs).media = s.media := by
  obtain ⟨m, w, d, k, e⟩ := s.sliceWrite_rest p gen a bs
  rw [e]

@[simp] theorem State.sliceWrite_cpu (s : State) (p gen a : Nat) (bs : List Byte) : (s.sliceWrite p gen a bs).cpu = s.cpu := by
  obtain ⟨m, w, d, k, e⟩ := s.sliceWrite_rest p gen a bs
  rw [e]

@[simp] theorem State.putSlot_media (s : State) (p at_ : Nat) (runs : List (Nat × List Byte)) (rec : List Byte) :
    (s.putSlot p at_ runs rec).media = s.media :=
  (State.sliceWrite_media ..).trans (foldl_frame State.media _ (fun _ _ => State.sliceWrite_media ..) ..)

@[simp] theorem State.putSlot_cpu (s : State) (p at_ : Nat) (runs : List (Nat × List Byte)) (rec : List Byte) :
    (s.putSlot p at_ runs rec).cpu = s.cpu :=
  (State.sliceWrite_cpu ..).trans (foldl_frame State.cpu _ (fun _ _ => State.sliceWrite_cpu ..) ..)

@[simp] theorem State.signal_media (s : State) (i add p gen : Nat) : (s.signal i add p gen).media = s.media := by
  obtain ⟨u, e⟩ := s.signal_rest i add p gen
  rw [e]

/-- A signal with an amount enters the flight of signals (R195). -/
theorem State.signal_flight (s : State) (i : Nat) {add : Nat} (h : add ≠ 0) (p gen : Nat) :
    (s.signal i add p gen).cpu.sync.flight = s.cpu.sync.flight ++ [{ sync := i, add := add, part := p, gen := gen }] := by
  rw [State.signal, if_neg h]
  rfl

@[simp] theorem State.reply_media (s : State) (f op tag : Nat) (st : Status) (pl : List Byte) (d : Nat) :
    (s.reply f op tag st pl d).media = s.media := by
  obtain ⟨x, h, c, l, e⟩ := s.reply_rest f op tag st pl d
  rw [e]

/-! PF0's registers and its stored configuration (R466 to R469). -/

/-- A pair that is not refused is written (R468). -/
theorem execAudGroupCfgWrite_ok (h : s.acts) (g value : Nat) (ok : audPairOk (BitVec.ofNat 32 value &&& 0xFFFFFEFF) = true) :
    execAudGroupCfgWrite 0 g value s = .next (s.setGroup g { s.media.group g with cfg := BitVec.ofNat 32 value &&& 0xFFFFFEFF }) := by
  rw [execAudGroupCfgWrite, beq_self_eq_true, State.regWrite_acts h]
  dsimp only
  rw [ok]
  simp only [Bool.not_true, Bool.or_false, if_true]

/-- A refused pair is written too, and stops the stream chain with an event to PF0 (R469). -/
theorem execAudGroupCfgWrite_refused (h : s.acts) (g value : Nat) (bad : audPairOk (BitVec.ofNat 32 value &&& 0xFFFFFEFF) = false) :
    execAudGroupCfgWrite 0 g value s =
      .next ((s.setGroup g { s.media.group g with cfg := BitVec.ofNat 32 value &&& 0xFFFFFEFF, chainOff := true }).event 0 .eAudConfig (toLE 4 g)) := by
  rw [execAudGroupCfgWrite, beq_self_eq_true, State.regWrite_acts h]
  dsimp only
  rw [bad]
  simp only [Bool.not_false, Bool.or_true, Bool.false_eq_true, if_false]

theorem execAudWakeCfgWrite_acts (h : s.acts) (g value : Nat) :
    execAudWakeCfgWrite 0 g value s = .next (s.setGroup g { s.media.group g with wakeCfg := BitVec.ofNat 32 value &&& 0x7FFF001F }) := by
  rw [execAudWakeCfgWrite, beq_self_eq_true, State.regWrite_acts h]

/-- An audio configuration without a reserved bit or a refused pair (R467, R469). -/
structure AudioStoreOk (r : List Byte) : Prop where
  reserved0 : bit (fld r 0 4) 8 = false
  reserved1 : bit (fld r 4 4) 8 = false
  pair0 : audPairOk (BitVec.ofNat 32 (fld r 0 4)) = true
  pair1 : audPairOk (BitVec.ofNat 32 (fld r 4 4)) = true
  wake0 : fld r 8 4 &&& 0x8000FFE0 = 0
  wake1 : fld r 12 4 &&& 0x8000FFE0 = 0
  ind0 : fldBits r 16 31 4 = 0
  ind1 : fldBits r 20 31 4 = 0

/-- PF0 stores a sound configuration for the next start (R467). -/
theorem execAudStore_ok (served : Served s 0 false false) {raw : List Byte} (len : raw.length = 24) (ok : AudioStoreOk raw) :
    execAudStore 0 tag raw s = .next (((s.taken 0 0x75 tag).setMedia { s.media with stored := some raw }).reply 0 0x75 tag .ok) := by
  rw [execAudStore, slice_whole len, len, beq_self_eq_true, State.request_served served _ _ rfl]
  simp [ok.reserved0, ok.reserved1, ok.pair0, ok.pair1, ok.wake0, ok.wake1, ok.ind0, ok.ind1]

/-! A hop (R468, R474, R475, R477, R480 to R484). -/

/-- A group after a hop's samples have been captured and heard: its set-up, its switches, its session and its counter are as before. -/
def AudGroup.Heard (x y : AudGroup) : Prop :=
  ∃ blocks enc chains onset changed window features warm floor cand, y = { x with
    blocks := blocks, enc := enc, chains := chains, onset := onset, onsetChanged := changed, window := window, features := features,
    warm := warm, floor := floor, cand := cand }

/-- Scoring changes the candidate alone (R483, R484). -/
theorem AudGroup.score_rest (x : AudGroup) (g : Nat) (digest : List Byte) (gated : Bool) (scores : List Int) (state : Nat) :
    ∃ c, x.score g digest gated scores state = { x with cand := c } := by
  unfold AudGroup.score
  dsimp only
  repeat' split
  all_goals exact ⟨_, rfl⟩

theorem AudGroup.Heard.scored {x y : AudGroup} (h : x.Heard y) (c : Prop) [Decidable c] (g : Nat) (digest : List Byte) (gated : Bool)
    (scores : List Int) (state : Nat) : x.Heard (if c then y else y.score g digest gated scores state) := by
  split
  · exact h
  · obtain ⟨cand, e⟩ := y.score_rest g digest gated scores state
    obtain ⟨_, _, _, _, _, _, _, _, _, _, rfl⟩ := h
    exact e ▸ ⟨_, _, _, _, _, _, _, _, _, cand, rfl⟩

/-- A set-up that comes into force is the one written; a restart of the capture touches neither switches, session nor counter (R468, R469,
R482). -/
theorem AudGroup.adopt_rest (x : AudGroup) : ∃ enc chains window features warm floor onset, x.adopt = { x with
    live := x.cfg, wake := x.wakeCfg, ind := x.indCfg, chainOff := !audPairOk x.cfg, enc := enc, chains := chains, window := window,
    features := features, warm := warm, floor := floor, onset := onset } := by
  unfold AudGroup.adopt
  dsimp only
  split <;> exact ⟨_, _, _, _, _, _, _, rfl⟩

@[simp] theorem State.adoptGroup_group (s : State) (g : Nat) (x : AudGroup) : (s.adoptGroup g x).media.group g = x.adopt := by
  unfold State.adoptGroup
  dsimp only
  split <;> exact State.group_setGroup_same ..

/-- A hop boundary of a group: a changed OWNER seals it, the samples count, and the set-up written comes into force (R468, R474, R477). -/
def State.endHop (s : State) (g : Nat) (x : AudGroup) : State :=
  let t := if audOwner x.wakeCfg = audOwner x.wake then s.setGroup g x else (s.setGroup g x).closeSession g none
  t.adoptGroup g { t.media.group g with s := x.s + 160, hopState := t.pwr.state }

/-- A recogniser image that waits takes effect while no candidate is open (R481). -/
def State.takeImage (s : State) : State :=
  match s.media.nextImage with
  | some (svn, d) =>
    if s.media.phraseOpen then s
    else { s with media := { s.media with nextImage := none }, trust := { s.trust with recogImageSvn := svn, recogDigest := d } }
  | none => s

@[simp] theorem State.takeImage_groups (s : State) : s.takeImage.media.groups = s.media.groups := by
  unfold State.takeImage
  split
  · split <;> rfl
  · rfl

@[simp] theorem State.takeImage_group (s : State) (g : Nat) : s.takeImage.media.group g = s.media.group g := by
  rw [Media.group, State.takeImage_groups, Media.group]

/-- After Stage A a hop captures and hears its samples, and its boundary follows. -/
theorem execRecogniserHop_started (h : s.pwr.stageADone = true) (g : Nat) (fall rise : List (List Bool)) (energy : Int) :
    ∃ x, (s.media.group g).Heard x ∧ execRecogniserHop g fall rise energy s = .next (s.endHop g x).takeImage := by
  rw [execRecogniserHop, h]
  refine ⟨_, ?heard, rfl⟩
  dsimp only
  split
  · exact ⟨_, _, _, _, _, _, _, _, _, _, rfl⟩
  split
  · exact .scored ⟨_, _, _, _, _, _, _, _, _, _, rfl⟩ ..
  · exact .scored ⟨_, _, _, _, _, _, _, _, _, _, rfl⟩ ..

/-- The group of a hop after its boundary. -/
theorem State.endHop_group (s : State) (g : Nat) (x : AudGroup) :
    (s.endHop g x).media.group g = ({ x with
      s := x.s + 160, hopState := s.pwr.state,
      session := if audOwner x.wakeCfg = audOwner x.wake then x.session else none } : AudGroup).adopt := by
  unfold State.endHop
  dsimp only
  split
  · rw [State.adoptGroup_group, State.group_setGroup_same]; rfl
  · rw [State.closeSession_none, State.adoptGroup_group, State.group_setGroup_same, State.group_setGroup_same]; rfl

/-- What a hop leaves of its group: the samples counted, the written set-up in force, and no session under a changed OWNER. -/
theorem State.endHop_heard {x : AudGroup} (h : (s.media.group g).Heard x) :
    let old := s.media.group g
    let new := (s.endHop g x).media.group g
    new.s = old.s + 160 ∧ new.live = old.cfg ∧ new.wake = old.wakeCfg ∧ new.ind = old.indCfg ∧ new.chainOff = !audPairOk old.cfg ∧
      (audOwner old.wakeCfg ≠ audOwner old.wake → new.session = none) := by
  intro old new
  obtain ⟨_, _, _, _, _, _, _, _, _, _, rfl⟩ := h
  obtain ⟨_, _, _, _, _, _, _, e⟩ := AudGroup.adopt_rest _
  rw [show new = _ from (State.endHop_group ..).trans e]
  exact ⟨rfl, rfl, rfl, rfl, rfl, fun changed => if_neg changed⟩

/-! Copies and sessions (R476, R477, R479). -/

/-- A function owns a group whose OWNER it is (R476). -/
theorem State.audOwns_iff (s : State) (f g : Nat) : s.audOwns f g = true ↔ g < 2 ∧ audOwner (s.media.group g).wake = f := by
  simp [State.audOwns]

/-- What a copy request must name: microphones of the session, whole blocks of this epoch still in the ring, from the unsealing on (R478,
R479). -/
structure CopyOk (s : State) (x : AudGroup) (o : Session) (mask epoch first : Nat) : Prop where
  open_ : x.session = some o
  within : mask &&& o.mask = mask
  some_ : mask ≠ 0
  aligned : first % 256 = 0
  epoch : epoch = s.media.epoch % 65536
  kept : x.s < first + 160000
  unsealed : o.from_ ≤ first

/-- The counts with which a copy is answered: its blocks, and those of them that are marked (R479). -/
def AudGroup.copyCounts (x : AudGroup) (mask first n : Nat) : List Byte :=
  toLE 4 (n * (audMics mask).length) ++
    toLE 4 ((rangeFrom (first / 256) n).flatMap (fun b => (audMics mask).filter (fun i => x.badAt i b))).length

section Copy
variable {o : Session} {mask epoch first : Nat} (served : Served s f false false) (owns : s.audOwns f g = true)
  (ok : CopyOk s (s.media.group g) o mask epoch first)
include served owns ok

/-- A copy that may be made keeps the session open and goes to host memory or to a partition of the function (R479). -/
theorem execAudCopy_ok (count part dest : Nat) (fmt : Fin 2) {space : Nat} (known : inRange space 1 2 = true) :
    let x := s.media.group g
    let n := min count (x.s / 256 - first / 256)
    let bytes := x.copyBytes mask first n fmt
    let t := (s.taken f 0x70 tag).setGroup g { x with session := some { o with last := x.s } }
    let done := x.copyCounts mask first n
    execAudCopy f tag g mask epoch first count fmt space part dest s = .next (
      if space = 2 then ((t.accountFn f 4 bytes.length).hostWrite f dest bytes).reply f 0x70 tag .ok done
      else match s.part part with
        | none => t.reply f 0x70 tag .eAudConfig
        | some y =>
          if y.fn ≠ f ∨ y.clearing = true then t.reply f 0x70 tag .eAudConfig
          else match s.stackedErr y part (s.gen part) dest bytes.length with
            | some e => t.reply f 0x70 tag e
            | none => (t.sliceWrite part (s.gen part) dest bytes).reply f 0x70 tag .ok done) := by
  obtain ⟨open_, within, some_, aligned, era, kept, unsealed⟩ := ok
  have form : (mask &&& o.mask != mask || mask == 0 || first % 256 != 0 || decide (1 < fmt.val) || !inRange space 1 2) = false := by
    have := fmt.isLt
    simp [within, some_, aligned, known]
    omega
  rw [execAudCopy, State.request_served served (.owner (s.audOwns f g)) _ owns]
  dsimp only [State.taken_media]
  rw [open_]
  dsimp only
  rw [form, if_neg Bool.false_ne_true, if_neg, if_neg (Nat.not_lt.mpr unsealed)]
  · rfl
  · exact not_or.mpr ⟨not_not.mpr era, Nat.not_le.mpr kept⟩

end Copy

/-- The owner reseals its group (R477). -/
theorem execAudReseal_owner (served : Served s f false false) (owns : s.audOwns f g = true) :
    execAudReseal f tag g s = .next (((s.taken f 0x71 tag).closeSession g none).reply f 0x71 tag .ok) :=
  State.request_served served (.owner (s.audOwns f g)) _ owns

/-! Live streams (R492). -/

/-- A live stream at its start (R492). -/
def AudStream.fresh (g f part gen base slots slotBytes frameSync releaseSync : Nat) : AudStream :=
  { group := g, fn := f, part := part, gen := gen, base := base, slots := slots, slotBytes := slotBytes, frameSync := frameSync,
    releaseSync := releaseSync, started := 0, written := 0, recorded := 0, chains := [] }

/-- Where a live stream may start: its group captures and its chain runs, in Sprout or above, and its ring and its objects are a partition's
of the function (R469, R492, R493). -/
structure StreamOk (s : State) (f g part base slots slotBytes frameSync releaseSync : Nat) (y : Part) : Prop where
  unmuted : (s.media.group g).muted = false
  settled : (s.media.group g).settling = false
  powered : 2 ≤ s.pwr.state
  chain : (s.media.group g).chainOff = false
  here : s.part part = some y
  fn : y.fn = f
  stays : y.clearing = false
  ring : y.ownsStacked base (slots * slotBytes) = true
  frame : s.ownsSync part (s.gen part) frameSync = true
  release : s.ownsSync part (s.gen part) releaseSync = true
  page : base % 4096 = 0
  slots : inRange slots 1 15 = true
  slotPages : slotBytes % 4096 = 0
  room : audSlotBytes (s.media.group g).live ≤ slotBytes

/-- The owner starts a live stream (R492). -/
theorem execAudStream_ok (served : Served s f false false) (owns : s.audOwns f g = true)
    {part base slots slotBytes frameSync releaseSync : Nat} {y : Part} (ok : StreamOk s f g part base slots slotBytes frameSync releaseSync y) :
    execAudStream f tag g part base slots slotBytes frameSync releaseSync s = .next (((s.taken f 0x72 tag).setMedia { s.media with
      streams := s.media.streams ++ [.fresh g f part (s.gen part) base slots slotBytes frameSync releaseSync] }).reply f 0x72 tag .ok) := by
  rw [execAudStream, State.request_served served (.owner (s.audOwns f g)) _ owns]
  have frame : (s.taken f 0x72 tag).ownsSync part ((s.taken f 0x72 tag).gen part) frameSync = true := ok.frame
  have release : (s.taken f 0x72 tag).ownsSync part ((s.taken f 0x72 tag).gen part) releaseSync = true := ok.release
  refine congrArg _ ((if_neg ?captures).trans ((if_neg ?powered).trans (if_pos ?granted)))
  case captures => simp [ok.unmuted, ok.settled]
  case powered => exact Nat.not_lt.mpr ok.powered
  case granted =>
    rw [show (s.taken f 0x72 tag).part part = some y from ok.here]
    simp [ok.fn, ok.stays, ok.ring, frame, release, ok.chain, ok.page, ok.slots, ok.slotPages, ok.room]

/-- A slot that is free takes 10 ms of its stream, and FRAME_SYNC advances (R421, R492). -/
theorem execAudStreamSlot_free {ix : Nat} {pdm : List (List (Bool × Bool))} {x : AudStream} {y : Part} (live : s.errs.halted = false)
    (powered : 2 ≤ s.pwr.state) (stream : s.media.streams[ix]? = some x) (chain : (s.media.group x.group).chainOff = false)
    (part : s.part x.part = some y) (current : s.stale x.part x.gen = false)
    (reach : s.stackedErr y x.part x.gen (x.base + x.written % x.slots * x.slotBytes) (audSlotBytes (s.media.group x.group).live) = none)
    (free : s.slotFree x.written x.slots x.releaseSync = true) (room : audSlotBytes (s.media.group x.group).live ≤ x.slotBytes) :
    ∃ runs rec,
      let t := (s.putSlot x.part (x.base + x.written % x.slots * x.slotBytes) runs rec).signal x.frameSync 1 x.part x.gen
      execAudStreamSlot ix pdm s = .next (t.setMedia (t.media.setStream ix
        { (x.hear (s.media.group x.group).live pdm).1 with started := x.started + 1, written := x.written + 1, recorded := x.started + 1 })) := by
  have idle : (s.errs.halted || (s.media.group x.group).chainOff || decide (s.pwr.state < 2)) = false := by
    rw [live, chain, decide_eq_false (Nat.not_lt.mpr powered)]
    rfl
  rw [execAudStreamSlot, stream]
  dsimp only [AudStream.hear]
  rw [idle, if_neg Bool.false_ne_true, part]
  refine ⟨_, _, if_neg ?_⟩
  simp [reach, current, free, room]

/-! The wake queue (R488). -/

/-- The wake queue once given records of it have been delivered (R488). -/
def deliverRecords (mine q : List WakeRec) : List WakeRec := q.map (fun r => if mine.contains r then { r with delivered := true } else r)

theorem deliverRecords_raw (mine q : List WakeRec) : (deliverRecords mine q).map (·.raw) = q.map (·.raw) := by
  rw [deliverRecords, List.map_map]
  refine List.map_congr_left fun r _ => ?_
  dsimp only [Function.comp]
  split <;> rfl

theorem mem_deliverRecords {mine q : List WakeRec} {r : WakeRec} (h : r ∈ mine) (hq : r ∈ q) :
    ({ r with delivered := true } : WakeRec) ∈ deliverRecords mine q :=
  List.mem_map.mpr ⟨r, hq, if_pos (List.contains_iff_mem.mpr h)⟩

/-- The function owns one of the two groups. -/
theorem State.audOwns_any (s : State) (f : Nat) : (List.range 2).any (s.audOwns f) = (s.audOwns f 0 || s.audOwns f 1) := by
  simp [List.range_succ]

/-- The records that a read from an index delivers: up to seven of the owner's (R488). -/
def State.ownWakes (s : State) (f first : Nat) : List WakeRec := ((s.media.wakes.filter (fun r => r.owner == f)).drop first).take 7

/-- An owner's read delivers its records and leaves the others (R488). -/
theorem execWakeQueueRead_owner (served : Served s f true false) (owns : (s.audOwns f 0 || s.audOwns f 1) = true) (first : Nat) :
    execWakeQueueRead f tag first s = .next (((s.taken f 0x73 tag).setMedia { s.media with
      wakes := deliverRecords (s.ownWakes f first) s.media.wakes }).reply f 0x73 tag .ok ((s.ownWakes f first).flatMap (·.raw))) :=
  State.request_served served (.owner _) _ ((s.audOwns_any f).trans owns)

/-- A function that owns no group reads no records (R488). -/
theorem execWakeQueueRead_denied (served : Served s f true false) (none_ : (s.audOwns f 0 || s.audOwns f 1) = false) (first : Nat) :
    execWakeQueueRead f tag first s = .next ((s.taken f 0x73 tag).reply f 0x73 tag .eSecDenied) :=
  State.request_denied served (.owner _) _ ((s.audOwns_any f).trans none_)

/-- Settles O47: each clause is the lemma of its command. -/
theorem audioRegistersAndMessages : Obligations.AudioRegistersAndMessages := by
  intro s g tag
  have owned {f : FnId} (owner : audOwner (s.media.group g).wake = f.val) : s.audOwns f g = true := (s.audOwns_iff f g).mpr ⟨g.isLt, owner⟩
  refine ⟨fun value acts ok => execAudGroupCfgWrite_ok acts g value ok, fun value acts bad => execAudGroupCfgWrite_refused acts g value bad,
    fun value acts => execAudWakeCfgWrite_acts acts g value, ?store, ?hop, ?copy, ?reseal, ?stream, ?slot, ?denied, ?read⟩
  case store =>
    intro raw served len reserved0 reserved1 pair0 pair1 wake0 wake1 ind0 ind1
    exact execAudStore_ok served len ⟨reserved0, reserved1, pair0, pair1, wake0, wake1, ind0, ind1⟩
  case hop =>
    intro fall rise energy started
    obtain ⟨x, heard, ends⟩ := execRecogniserHop_started started g fall rise energy
    refine ⟨_, ends, ?_⟩
    rw [State.takeImage_group]
    exact State.endHop_heard heard
  case copy =>
    rintro f gn mask epoch first count fmt part dest o _ _ _ _ _ served same rfl owner open_ within some_ aligned era kept unsealed rfl rfl rfl rfl
    have ok : CopyOk s (s.media.group g) o mask epoch first := ⟨open_, within, some_, aligned, era, kept, unsealed⟩
    refine ⟨?host, fun y here fn stays granted => ?stacked⟩
    case host =>
      change execAudCopy f tag gn mask epoch first count fmt 2 part dest s = _
      rw [same, execAudCopy_ok served (owned owner) ok count part dest fmt (by decide)]
      rfl
    case stacked =>
      change execAudCopy f tag gn mask epoch first count fmt 1 part dest s = _
      rw [same, execAudCopy_ok served (owned owner) ok count part dest fmt (by decide), here]
      dsimp only
      rw [if_neg (by decide), if_neg (by simp [fn, stays]), granted]
      rfl
  case reseal =>
    intro f gn served same owner
    change execAudReseal f tag gn s = _
    rw [same]
    exact execAudReseal_owner served (owned owner)
  case stream =>
    intro f gn part base slots slotBytes frameSync releaseSync y served same owner unmuted settled powered chain here fn stays ring frame
      release page few pages room
    change execAudStream f tag gn part base slots slotBytes frameSync releaseSync s = _
    rw [same]
    exact execAudStream_ok served (owned owner)
      ⟨unmuted, settled, powered, chain, here, fn, stays, ring, frame, release, page, few, pages, room⟩
  case slot =>
    intro ix pdm x y live powered stream chain here current reach free room
    obtain ⟨runs, rec, taken⟩ := execAudStreamSlot_free (pdm := pdm) live powered stream chain here current reach free room
    refine ⟨_, taken, ?written, ?signalled⟩
    case written =>
      rw [State.setMedia_media, State.signal_media, State.putSlot_media]
      exact List.getElem?_set_self (List.getElem?_eq_some_iff.mp stream).1
    case signalled => rw [State.setMedia_cpu, State.signal_flight _ _ Nat.one_ne_zero, State.putSlot_cpu]
  case denied =>
    intro f first served no0 no1
    exact execWakeQueueRead_denied served (by rw [no0, no1]; rfl) first
  case read =>
    intro f first served owns
    refine ⟨_, execWakeQueueRead_owner served (by simpa using owns) first, ?_⟩
    rw [State.reply_media, State.setMedia_media]
    refine ⟨deliverRecords_raw .., fun r hr => mem_deliverRecords hr ?_⟩
    exact (List.mem_filter.mp (List.mem_of_mem_drop (List.mem_of_mem_take hr))).1

end Sys2Proof.Machine
end

section
/-!
PROOF. What the machine's operations leave of the media unit (chapters 9 and 10): each operation below writes other parts of the state, so
cameras, pipes and microphone groups stand as they stood.
-/
namespace Sys2Proof.Machine

/-- A step of a fold leaves a part of the state. -/
def StepsLeave {α π : Type} (part : State → π) (f : State → α → State) : Prop := ∀ s a, part (f s a) = part s

@[simp] theorem stepsLeave_iff {α π : Type} (part : State → π) (f : State → α → State) :
    StepsLeave part f ↔ ∀ s a, part (f s a) = part s := Iff.rfl

@[simp] theorem foldl_media {α : Type} (f : State → α → State) (h : StepsLeave State.media f) (l : List α) (s : State) :
    (l.foldl f s).media = s.media := foldl_frame State.media f h l s

/-! Ops -/

@[simp] theorem State.writeUnit_media (s : State) (g a : Nat) (bs : List Byte) (q : Nat) :
    (s.writeUnit g a bs q).media = s.media := by
  simp [State.writeUnit, apply_ite State.media]

@[simp] theorem State.writeMem_media (s : State) (a : Nat) (bs : List Byte) :
    (s.writeMem a bs).media = s.media := by
  simp [State.writeMem, apply_ite State.media]

@[simp] theorem State.writePoison_media (s : State) (a : Nat) (bs : List Byte) :
    (s.writePoison a bs).media = s.media := rfl

@[simp] theorem State.zeroFill_media (s : State) (a n : Nat) :
    (s.zeroFill a n).media = s.media := rfl

@[simp] theorem State.undefine_media (s : State) (a n : Nat) :
    (s.undefine a n).media = s.media := by
  unfold State.undefine
  split <;> rfl

@[simp] theorem State.padRange_media (s : State) (a n : Nat) (k : Padding) :
    (s.padRange a n k).media = s.media := by
  unfold State.padRange
  split <;> rfl

@[simp] theorem State.markPads_media (s : State) (a : Nat) (pads : List (Option Padding)) :
    (s.markPads a pads).media = s.media := by
  refine foldl_frame State.media _ (fun s e => ?_) ..
  split
  · simp [apply_ite State.media]
  · rfl

@[simp] theorem State.carryPads_media (before : State) (src dst : List Nat) (s : State) :
    (State.carryPads before src dst s).media = s.media := by
  unfold State.carryPads
  split
  · rfl
  · refine foldl_frame State.media _ (fun s e => ?_) ..
    split
    · simp [apply_ite State.media]
    · rfl

@[simp] theorem State.keepRanges_media (s : State) (n : Nat) (rs : List (Nat × Nat)) :
    (s.keepRanges n rs).media = s.media := by
  simp [State.keepRanges]

@[simp] theorem State.coreWrite_media (s : State) (n off : Nat) (bs : List Byte) :
    (s.coreWrite n off bs).media = s.media := by
  simp [State.coreWrite]

@[simp] theorem State.countRefusal_media (s : State) (r : Nat) :
    (s.countRefusal r).media = s.media := rfl

@[simp] theorem State.modeUp_media (s : State) (n : Nat) :
    (s.modeUp n).media = s.media := by
  unfold State.modeUp
  split <;> rfl

@[simp] theorem State.yieldSignal_media (s : State) (p : Nat) :
    (s.yieldSignal p).media = s.media := by
  unfold State.yieldSignal
  split <;> rfl

@[simp] theorem State.yieldOpen_media (s : State) (n : Nat) :
    (s.yieldOpen n).media = s.media := by
  simp [State.yieldOpen]
  repeat' split
  all_goals simp

/-! Operands -/

@[simp] theorem TDesc.setElem_media (s : State) (at_ : Nat) (d : TDesc) (o i v : Nat) :
    (TDesc.setElem s at_ d o i v).media = s.media := by
  simp [TDesc.setElem, apply_ite State.media]

/-! Hops -/

@[simp] theorem State.setHop_media (s : State) (l : Nat) (h : Hop) :
    (s.setHop l h).media = s.media := rfl

@[simp] theorem State.drainFuel_media (l : Nat) (x1 : Nat) (s : State) :
    (State.drainFuel l x1 s).media = s.media := by
  induction x1 generalizing s with
  | zero => rfl
  | succ fuel ih =>
    unfold State.drainFuel
    dsimp only
    split <;> simp [ih]

@[simp] theorem State.drainHop_media (s : State) (l : Nat) :
    (s.drainHop l).media = s.media := by
  simp [State.drainHop]

@[simp] theorem State.toHost_media (s : State) (f cls size : Nat) (o : Out) :
    (s.toHost f cls size o).media = s.media := by
  simp [State.toHost, apply_ite State.media]

/-! Report -/

@[simp] theorem State.sendMsg_media (s : State) (f vec : Nat) :
    (s.sendMsg f vec).media = s.media := by
  simp [State.sendMsg, apply_ite State.media]

@[simp] theorem State.logWrite_media (s : State) (level source fn part : Nat) (code : Status) :
    (s.logWrite level source fn part code).media = s.media := by
  simp [State.logWrite, apply_ite State.media]

@[simp] theorem State.eventBoth_media (s : State) (f : Nat) (code : Status) (payload : List Byte) :
    (s.eventBoth f code payload).media = s.media := by
  simp [State.eventBoth, apply_ite State.media]

@[simp] theorem State.voidDesc_media (s : State) (fn n : Nat) (cond : WcetCond) (d : Desc) :
    (s.voidDesc fn n cond d).media = s.media := by
  simp [State.voidDesc, apply_ite State.media]

@[simp] theorem State.wcetVoid_media (s : State) (cond : WcetCond) (p : Nat) :
    (s.wcetVoid cond p).media = s.media := by
  simp [State.wcetVoid, apply_ite State.media]

@[simp] theorem State.waitsOn_media (s : State) (p : Nat) (trouble : Bool) :
    (s.waitsOn p trouble).media = s.media := by
  simp [State.waitsOn, apply_ite State.media]

@[simp] theorem State.wcetVoidAll_media (s : State) (cond : WcetCond) :
    (s.wcetVoidAll cond).media = s.media := by
  simp [State.wcetVoidAll]

@[simp] theorem State.flushReplies_media (f : Nat) (x1 : List Owed) (s : State) :
    (State.flushReplies f x1 s).media = s.media := by
  obtain ⟨x, h, c, l, e⟩ := State.flushReplies_rest f x1 s
  rw [e]

@[simp] theorem State.answer_media (s : State) (f num : Nat) (st : Status) (payload : List Byte) (detail : Nat) :
    (s.answer f num st payload detail).media = s.media := by
  simp [State.answer]

@[simp] theorem State.logError_media (s : State) (cls : Nat) (code : Status) (island detail : Nat) (prior : Bool) :
    (s.logError cls code island detail prior).media = s.media := by
  simp [State.logError, apply_ite State.media]

@[simp] theorem State.contained_media (s : State) (code : Status) (island detail : Nat) (prior : Bool) :
    (s.contained code island detail prior).media = s.media := by
  simp [State.contained]

@[simp] theorem State.corrected_media (s : State) (code : Status) (island detail : Nat) :
    (s.corrected code island detail).media = s.media := by
  simp [State.corrected]

@[simp] theorem State.spareRecord_media (s : State) (kind cause logical physical spare island : Nat) :
    (s.spareRecord kind cause logical physical spare island).media = s.media := by
  simp [State.spareRecord, apply_ite State.media]

@[simp] theorem State.spareExhausted_media (s : State) (owners : List Nat) (island : Nat) :
    (s.spareExhausted owners island).media = s.media := by
  simp [State.spareExhausted]

/-! Access -/

@[simp] theorem State.account_media (s : State) (ctx : Option Nat) (p i n : Nat) :
    (s.account ctx p i n).media = s.media := by
  unfold State.account
  split <;> rfl

@[simp] theorem State.accountFn_media (s : State) (f i n : Nat) :
    (s.accountFn f i n).media = s.media := rfl

@[simp] theorem State.accountStacked_media (s : State) (ctx : Option Nat) (p die : Nat) (write : Bool) (a n : Nat) :
    (s.accountStacked ctx p die write a n).media = s.media := by
  simp [State.accountStacked]

@[simp] theorem State.hostWriteFuel_media (f : Nat) (poison : Bool) (attr : ReqAttr) (x1 : Nat) (x2 : Nat) (x3 : List Byte) (s : State) :
    (State.hostWriteFuel f poison attr x1 x2 x3 s).media = s.media := by
  obtain ⟨h, l, e⟩ := State.hostWriteFuel_rest f poison attr x1 x2 x3 s
  rw [e]

@[simp] theorem State.hostWrite_media (s : State) (f a : Nat) (bs : List Byte) (poison : Bool) (tc : Nat) (data : Bool) :
    (s.hostWrite f a bs poison tc data).media = s.media := by
  simp [State.hostWrite]

@[simp] theorem State.hostReadFuel_media (f m : Nat) (attr : ReqAttr) (x1 : Nat) (x2 : Nat) (x3 : Nat) (s : State) :
    (State.hostReadFuel f m attr x1 x2 x3 s).media = s.media := by
  obtain ⟨h, l, e⟩ := s.hostReadFuel_rest f m attr x1 x2 x3
  rw [e]

@[simp] theorem State.hostRead_media (s : State) (f a n : Nat) (tc : Nat) :
    (s.hostRead f a n tc).media = s.media := by
  simp [State.hostRead]

@[simp] theorem State.writePiece_media (s : State) (base : Nat) (p : Piece) :
    (s.writePiece base p).media = s.media := by
  simp [State.writePiece, apply_ite State.media]

@[simp] theorem State.padPiece_media (s : State) (base : Nat) (p : Piece) :
    (s.padPiece base p).media = s.media := by
  simp [State.padPiece, apply_ite State.media]

@[simp] theorem State.writePieces_media (s : State) (base : Nat) (ps : List Piece) :
    (s.writePieces base ps).media = s.media := by
  simp [State.writePieces]

@[simp] theorem State.exportFuel_media (f p : Nat) (ps : List Piece) (x1 : Nat) (x2 : Nat) (x3 : Nat) (x4 : List Byte) (s : State) :
    (State.exportFuel f p ps x1 x2 x3 x4 s).media = s.media := by
  obtain ⟨h, l, b, e⟩ := State.exportFuel_rest f p ps x1 x2 x3 x4 s
  rw [e]

@[simp] theorem State.egress_media (s : State) (ctx : Option Nat) (f p a n : Nat) (ps : List Piece) (d2d : Bool) :
    (s.egress ctx f p a n ps d2d).media = s.media := by
  simp [State.egress, apply_ite State.media]

/-! Domains -/

@[simp] theorem State.coreUp_media (s : State) (n : Nat) :
    (s.coreUp n).media = s.media := by
  unfold State.coreUp
  split <;> rfl

@[simp] theorem State.coreOff_media (s : State) (n : Nat) :
    (s.coreOff n).media = s.media := by
  unfold State.coreOff
  split <;> rfl

@[simp] theorem State.driveSafe_media (s : State) (cause : Nat) :
    (s.driveSafe cause).media = s.media := by
  unfold State.driveSafe
  split <;> rfl

@[simp] theorem State.driveFault_media (s : State) (cause : Nat) :
    (s.driveFault cause).media = s.media := by
  unfold State.driveFault
  split <;> rfl

/-! Sync -/

@[simp] theorem State.putSyncValue_media (s : State) (i : Nat) (o : SyncObj) (v : Word) :
    (s.putSyncValue i o v).media = s.media := State.evalWaiters_media ..

@[simp] theorem State.resetSyncValue_media (s : State) (i : Nat) (o : SyncObj) (v : Word) :
    (s.resetSyncValue i o v).media = s.media := by
  simp [State.resetSyncValue]

@[simp] theorem State.dropSignal_media (s : State) (p : Nat) :
    (s.dropSignal p).media = s.media := by
  unfold State.dropSignal
  dsimp only
  split <;> simp

@[simp] theorem State.applySignal_media (s : State) (g : Signal) :
    (s.applySignal g).media = s.media := by
  unfold State.applySignal
  dsimp only
  repeat' split
  all_goals simp

@[simp] theorem State.applyDone_media (s : State) (sync add part gen : Nat) :
    (s.applyDone sync add part gen).media = s.media := by
  simp [State.applyDone, apply_ite State.media]

@[simp] theorem State.allocSyncs_media (s : State) (f p : Nat) (pf0 : Bool) (l : List Nat) :
    (s.allocSyncs f p pf0 l).media = s.media := rfl

/-! Camera -/

@[simp] theorem State.camOutput_media (s : State) (x : CamCtx) (c : Nat) (f : CamFrame) (marked : List Nat) (o : Nat) :
    (s.camOutput x c f marked o).1.media = s.media := by
  unfold State.camOutput
  dsimp only
  repeat' split
  all_goals simp

@[simp] theorem State.writeRef_media (s : State) (x : CamCtx) (f : CamFrame) :
    (s.writeRef x f).media = s.media := by
  simp [State.writeRef, apply_ite State.media]

@[simp] theorem State.frameReads_media (s : State) (x : CamCtx) (f : CamFrame) :
    (s.frameReads x f).media = s.media := by
  simp [State.frameReads, apply_ite State.media]

/-! Flags -/

@[simp] theorem State.undefineBody_media (s : State) (n : Nat) (l : List (Nat × Nat)) :
    (s.undefineBody n l).media = s.media := by
  simp [State.undefineBody]

@[simp] theorem State.dropWaits_media (s : State) (n : Nat) :
    (s.dropWaits n).media = s.media := rfl

@[simp] theorem State.noteStop_media (s : State) (n : Nat) (st : Status) :
    (s.noteStop n st).media = s.media := by
  unfold State.noteStop
  split <;> rfl

@[simp] theorem State.abortTile_media (s : State) (n : Nat) (st : Status) :
    (s.abortTile n st).media = s.media := by
  simp [State.abortTile]

@[simp] theorem State.stopIllegal_media (s : State) (n : Nat) :
    (s.stopIllegal n).media = s.media := by
  simp [State.stopIllegal]

@[simp] theorem State.continueAt_media (s : State) (n : Nat) (c : Core) (pos : Nat) :
    (s.continueAt n c pos).media = s.media := by
  simp [State.continueAt, apply_ite State.media]

@[simp] theorem State.advance_media (s : State) (n : Nat) (c : Core) :
    (s.advance n c).media = s.media := by
  simp [State.advance]

/-! Program -/

@[simp] theorem State.imageReads_media (s : State) (part : Part) (iova : Bool) (addr : Nat) (host : HostRead) :
    (s.imageReads part iova addr host).media = s.media := by
  simp [State.imageReads, apply_ite State.media]

@[simp] theorem State.countImage_media (s : State) (ctx p k : Nat) (iova : Bool) (addr n : Nat) :
    (s.countImage ctx p k iova addr n).media = s.media := by
  simp [State.countImage, apply_ite State.media]

@[simp] theorem State.freeCore_media (s : State) (n : Nat) :
    (s.freeCore n).media = s.media := by
  simp [State.freeCore]

@[simp] theorem State.haltCtx_media (s : State) (n : Nat) (st : Status) :
    (s.haltCtx n st).media = s.media := by
  simp [State.haltCtx]

@[simp] theorem State.failLoad_media (s : State) (ctx idx n : Nat) (st : Status) :
    (s.failLoad ctx idx n st).media = s.media := by
  simp [State.failLoad]

@[simp] theorem State.endUnrun_media (s : State) (ctx idx : Nat) (st : Status) (detail0 : Nat) :
    (s.endUnrun ctx idx st detail0).media = s.media := by
  simp [State.endUnrun]

@[simp] theorem State.startIfLoaded_media (s : State) (ctx idx : Nat) :
    (s.startIfLoaded ctx idx).media = s.media := by
  simp [State.startIfLoaded, apply_ite State.media]

@[simp] theorem State.keepGeoms_media (s : State) (k : Nat) (rs : List (List Byte)) :
    (s.keepGeoms k rs).media = s.media := by
  unfold State.keepGeoms
  split <;> rfl

@[simp] theorem State.noteCompat_media (s : State) (n p : Nat) :
    (s.noteCompat n p).media = s.media := by
  simp [State.noteCompat, apply_ite State.media]

@[simp] theorem State.loadCore_media (s : State) (n : Nat) (host : HostRead) :
    (s.loadCore n host).media = s.media := by
  unfold State.loadCore
  dsimp only
  repeat' split
  all_goals simp

/-! Post -/

@[simp] theorem State.endDesc_media (s : State) (ctx idx : Nat) (st : Status) :
    (s.endDesc ctx idx st).media = s.media := rfl

@[simp] theorem State.endPost_media (s : State) (j : PostJob) (st : Status) :
    (s.endPost j st).media = s.media := rfl

/-! Stall -/

@[simp] theorem State.noteCause_media (s : State) (p c : Nat) :
    (s.noteCause p c).media = s.media := by
  unfold State.noteCause
  split <;> rfl

@[simp] theorem State.noteRetrain_media (s : State) (link : Nat) :
    (s.noteRetrain link).media = s.media := by
  simp [State.noteRetrain, apply_ite State.media]

@[simp] theorem State.voidTroubled_media (s : State) :
    s.voidTroubled.media = s.media := by
  simp [State.voidTroubled, apply_ite State.media]

@[simp] theorem State.addStall_media (s : State) (p c n : Nat) :
    (s.addStall p c n).media = s.media := rfl

@[simp] theorem State.stallUpdate_media (before : State) (p : Nat) (s : State) :
    (State.stallUpdate before p s).media = s.media := by
  unfold State.stallUpdate
  dsimp only
  repeat' split
  all_goals simp

@[simp] theorem stallOf_media (n : Nat) (before s : State) :
    (stallOf n before s).media = s.media := by
  unfold stallOf
  split <;> simp

@[simp] theorem State.stallAll_media (before s : State) :
    (State.stallAll before s).media = s.media := by
  simp [State.stallAll]

/-! Memory -/

@[simp] theorem State.granule_media (s : State) (st : Status) (data : List Byte) (poison : Bool) :
    (s.granule st data poison).media = s.media := rfl

@[simp] theorem State.countStale_media (s : State) (p : Nat) (write : Bool) :
    (s.countStale p write).media = s.media := by
  unfold State.countStale
  split <;> rfl

@[simp] theorem State.readLine_media (p ecc : Nat) (s : State) (a : Nat) :
    (State.readLine p ecc s a).media = s.media := by
  simp [State.readLine, apply_ite State.media]

@[simp] theorem State.readLines_media (s : State) (p a n ecc : Nat) :
    (s.readLines p a n ecc).media = s.media := by
  simp [State.readLines, apply_ite State.media]

@[simp] theorem State.serveRead_media (s : State) (p a n ecc : Nat) (bar : Option Nat) :
    (s.serveRead p a n ecc bar).media = s.media := by
  unfold State.serveRead
  split <;> simp

@[simp] theorem State.serveWrite_media (s : State) (p a n : Nat) (data : List Byte) (ecc : Nat) :
    (s.serveWrite p a n data ecc).media = s.media := by
  simp [State.serveWrite, apply_ite State.media]

@[simp] theorem State.serveGranule_media (s : State) (q : GranuleReq) :
    (s.serveGranule q).media = s.media := by
  simp [State.serveGranule, apply_ite State.media]

@[simp] theorem State.lookupGranule_media (s : State) (q : GranuleReq) :
    (s.lookupGranule q).media = s.media := by
  simp [State.lookupGranule]
  repeat' split
  all_goals simp

@[simp] theorem State.serveHeld_media (key : Nat) (x1 : Nat) (x2 : Tbl Nat) (x3 : Option Nat) (s : State) :
    (State.serveHeld key x1 x2 x3 s).media = s.media := by
  induction x1 generalizing x2 x3 s with
  | zero => rfl
  | succ fuel ih =>
    unfold State.serveHeld
    split <;> simp [ih]

@[simp] theorem State.releaseHeld_media (s : State) :
    s.releaseHeld.media = s.media := by
  simp [State.releaseHeld, apply_ite State.media]

@[simp] theorem State.noteRefresh_media (s : State) (key : Nat) :
    (s.noteRefresh key).media = s.media := by
  simp [State.noteRefresh, apply_ite State.media]

@[simp] theorem State.clearStall_media (s : State) (p : Nat) :
    (s.clearStall p).media = s.media := rfl

@[simp] theorem State.setGroupMode_media (s : State) (g : Nat) (sliced : Bool) :
    (s.setGroupMode g sliced).media = s.media := by
  unfold State.setGroupMode
  split <;> rfl

/-! Records -/

@[simp] theorem State.writeRecord_media (s : State) (n : Nat) (r : Rec) (irqNow : Bool) :
    (s.writeRecord n r irqNow).media = s.media := by
  simp [State.writeRecord, apply_ite State.media]

/-! Ledger -/

@[simp] theorem State.creditKey_media (s : State) (key n : Nat) :
    (s.creditKey key n).media = s.media := rfl

@[simp] theorem State.credit_media (s : State) (ctx : Option Nat) (p n : Nat) :
    (s.credit ctx p n).media = s.media := by
  unfold State.credit
  dsimp only
  repeat' split
  all_goals simp

@[simp] theorem State.debitDesc_media (s : State) (ctx idx n : Nat) :
    (s.debitDesc ctx idx n).media = s.media := by
  unfold State.debitDesc
  split <;> simp

@[simp] theorem State.debitPart_media (s : State) (p n : Nat) :
    (s.debitPart p n).media = s.media := by
  simp [State.debitPart]

@[simp] theorem State.debitNone_media (s : State) (n : Nat) :
    (s.debitNone n).media = s.media := rfl

@[simp] theorem State.debitGone_media (s : State) (p f n : Nat) :
    (s.debitGone p f n).media = s.media := by
  simp [State.debitGone]

@[simp] theorem State.debitShared_media (s : State) (n : Nat) :
    (s.debitShared n).media = s.media := by
  simp [State.debitShared, apply_ite State.media]

@[simp] theorem State.settleShared_media (s : State) :
    s.settleShared.media = s.media := by
  simp [State.settleShared]

@[simp] theorem State.keepMoved_media (s : State) (p : Nat) :
    (s.keepMoved p).media = s.media := by
  simp [State.keepMoved, apply_ite State.media]

@[simp] theorem State.debit_media (s : State) (d : Debit) :
    (s.debit d).media = s.media := by
  unfold State.debit
  dsimp only
  repeat' split
  all_goals simp

@[simp] theorem State.debits_media (s : State) (l : List Debit) :
    (s.debits l).media = s.media := by
  simp [State.debits]

@[simp] theorem State.closeReservation_media (s : State) (ctx idx : Nat) :
    (s.closeReservation ctx idx).media = s.media := by
  unfold State.closeReservation
  dsimp only
  repeat' split
  all_goals simp

@[simp] theorem State.reserve_media (s : State) (ctx idx f e : Nat) :
    (s.reserve ctx idx f e).media = s.media := rfl

/-! Power -/

@[simp] theorem State.countHolders_media (s : State) (r : StateReq) :
    (s.countHolders r).1.media = s.media := by
  simp [State.countHolders]

@[simp] theorem State.checkPending_media (s : State) :
    s.checkPending.media = s.media := by
  unfold State.checkPending
  dsimp only
  repeat' split
  all_goals simp

@[simp] theorem State.answerReq_media (s : State) (r : StateReq) (st : Status) (detail : Nat) :
    (s.answerReq r st detail).media = s.media := by
  simp [State.answerReq]

@[simp] theorem State.answerOpt_media (s : State) (r : Option StateReq) (st : Status) (detail : Nat) :
    (s.answerOpt r st detail).media = s.media := by
  unfold State.answerOpt
  split <;> simp

/-! Serving -/

@[simp] theorem State.partWrite_media (s : State) (p a : Nat) (bs : List Byte) :
    (s.partWrite p a bs).media = s.media := by
  simp [State.partWrite, apply_ite State.media]

@[simp] theorem State.partRead_media (s : State) (p a n : Nat) :
    (s.partRead p a n).media = s.media := by
  simp [State.partRead]

@[simp] theorem State.freeListAppend_media (s : State) (a : AttnReg) (ids : List Nat) :
    (s.freeListAppend a ids).media = s.media := by
  simp [State.freeListAppend]

@[simp] theorem State.returnPages_media (s : State) (r : List Byte) :
    (s.returnPages r).media = s.media := by
  unfold State.returnPages
  dsimp only
  repeat' split
  all_goals simp

@[simp] theorem State.applySeq_media (s : State) (i : Nat) (r : List Byte) :
    (s.applySeq i r).media = s.media := by
  simp [State.applySeq, apply_ite State.media]

@[simp] theorem State.holdOut_media (s : State) (p i : Nat) (st : Status) :
    (s.holdOut p i st).media = s.media := by
  simp [State.holdOut, apply_ite State.media]

@[simp] theorem State.allocPages_media (s : State) (part : Part) (p : Nat) (x : Pick) :
    (s.allocPages part p x).1.media = s.media := by
  unfold State.allocPages
  dsimp only
  repeat' split
  all_goals simp

@[simp] theorem State.admitSeq_media (part : Part) (p : Nat) (acc : State × List Pick) (x : Pick) :
    (State.admitSeq part p acc x).1.media = acc.1.media := by
  unfold State.admitSeq
  dsimp only
  split
  · simp
  · have pages := acc.1.allocPages_media part p x
    split <;> rename_i e <;> rw [e] at pages <;> simpa using pages

@[simp] theorem State.releaseSlots_media (s : State) (l : List Pick) :
    (s.releaseSlots l).media = s.media := by
  simp [State.releaseSlots]

@[simp] theorem State.writeList_media (part : Part) (p : Nat) (r : List Byte) (acc : State × Nat) (e : Nat × Nat × List Pick) :
    (State.writeList part p r acc e).1.media = acc.1.media := by
  unfold State.writeList
  dsimp only
  repeat' split
  all_goals simp

@[simp] theorem State.applyPending_media (s : State) (p : Nat) :
    (s.applyPending p).media = s.media := by
  simp [State.applyPending]

@[simp] theorem State.formStep_media (s : State) (p : Nat) (part : Part) (r : List Byte) :
    (s.formStep p part r).media = s.media := by
  unfold State.formStep
  split
  · rfl
  dsimp only
  refine (foldl_frame (fun a : State × Nat => a.1.media) _ (fun _ _ => State.writeList_media ..) ..).trans ?_
  refine (foldl_frame (fun a : State × List Pick => a.1.media) _ (fun _ _ => State.admitSeq_media ..) ..).trans ?_
  simp

@[simp] theorem State.markListDone_media (s : State) (ctx idx : Nat) (st : Status) :
    (s.markListDone ctx idx st).media = s.media := by
  simp [State.markListDone, apply_ite State.media]

@[simp] theorem State.seqRecord_media (s : State) (i : Nat) (st : Status) :
    (s.seqRecord i st).media = s.media := by
  simp [State.seqRecord]

@[simp] theorem State.updateSeq_media (s : State) (p : Nat) (part : Part) (res : Nat) (x : LenEntry) :
    (s.updateSeq p part res x).media = s.media := by
  simp [State.updateSeq, apply_ite State.media]

@[simp] theorem State.releaseSlot_media (s : State) (i : Nat) :
    (s.releaseSlot i).media = s.media := rfl

@[simp] theorem State.endSeq_media (p : Nat) (part : Part) (l : WorkList) (st : Status) (s : State) (e : LenEntry × Nat) :
    (State.endSeq p part l st s e).media = s.media := by
  simp [State.endSeq, apply_ite State.media]

@[simp] theorem State.endList_media (p : Nat) (part : Part) (s : State) (l : WorkList) :
    (State.endList p part s l).media = s.media := by
  simp [State.endList, apply_ite State.media]

@[simp] theorem State.endStep_media (s : State) (p : Nat) (part : Part) :
    (s.endStep p part).media = s.media := by
  simp [State.endStep]

@[simp] theorem State.resumeAfterTile_media (s : State) (n : Nat) :
    (s.resumeAfterTile n).media = s.media := by
  simp [State.resumeAfterTile]

@[simp] theorem State.zeroItem_media (s : State) (p out len : Nat) :
    (s.zeroItem p out len).media = s.media := by
  simp [State.zeroItem, apply_ite State.media]

@[simp] theorem State.markFaulted_media (s : State) (seq : Nat) :
    (s.markFaulted seq).media = s.media := rfl

@[simp] theorem State.forgiveSkew_media (s : State) (n : Nat) (w : CoreWork) :
    (s.forgiveSkew n w).media = s.media := rfl

/-! Mover -/

@[simp] theorem State.moveStore_media (s : State) (part : Part) (ctx : Option Nat) (p gen k : Nat) (m : MoveDesc) (n : Nat)
    (ps : List Piece) : (s.moveStore part ctx p gen k m n ps).media = s.media := by
  simp [State.moveStore, apply_ite State.media]

@[simp] theorem State.moveAsks_media (s : State) (part : Part) (m : MoveDesc) (named : List (Nat × Nat)) :
    (s.moveAsks part m named).media = s.media := by
  simp [State.moveAsks]

@[simp] theorem State.moveReads_media (s : State) (part : Part) (ctx : Option Nat) (p k : Nat) (m : MoveDesc) (named : List (Nat × Nat)) :
    (s.moveReads part ctx p k m named).media = s.media := by
  simp [State.moveReads, apply_ite State.media]

@[simp] theorem State.runMove_media (s : State) (part : Part) (ctx : Option Nat) (p gen k : Nat) (m : MoveDesc) (host : HostRead) :
    (s.runMove part ctx p gen k m host).1.media = s.media := by
  unfold State.runMove
  dsimp only
  repeat' split
  all_goals simp

@[simp] theorem State.noteFault_media (s : State) (core ctx idx tileId : Nat) (st : Status) :
    (s.noteFault core ctx idx tileId st).media = s.media := rfl

@[simp] theorem State.faultDesc_media (s : State) (core ctx idx tileId : Nat) (st : Status) :
    (s.faultDesc core ctx idx tileId st).media = s.media := rfl

@[simp] theorem State.dropFills_media (s : State) (part k : Nat) :
    (s.dropFills part k).media = s.media := rfl

@[simp] theorem State.haltStream_media (s : State) (w : WStream) :
    (s.haltStream w).media = s.media := by
  simp [State.haltStream]

@[simp] theorem State.postFill_media (s : State) (w : WStream) (seg : Nat) (raw : List Byte) :
    (s.postFill w seg raw).media = s.media := rfl

/-- The variables `find`, `prt`, `descs`, `n` and `v` stand for what the matches look at, so that the kernel compares the branches and does
not evaluate them. -/
@[simp] theorem State.failStream_media (s : State) (part k : Nat) (st : Status) :
    (s.failStream part k st).media = s.media := by
  suffices h : ∀ t, s.failStream part k st = t → t.media = s.media from h _ rfl
  intro t h
  obtain ⟨f, hf⟩ : ∃ f, f = @State.failStream := ⟨_, rfl⟩
  obtain ⟨find, hfind⟩ : ∃ f, f = @Tbl.find := ⟨_, rfl⟩
  obtain ⟨prt, hprt⟩ : ∃ f, f = @State.part := ⟨_, rfl⟩
  obtain ⟨descs, hdescs⟩ : ∃ f, f = @State.clusterDescs := ⟨_, rfl⟩
  rw [← hf] at h
  delta State.failStream at hf
  rw [← hfind, ← hprt, ← hdescs] at hf
  obtain ⟨n, hn⟩ : ∃ n, n = part + st.num * 2 ^ 16 := ⟨_, rfl⟩
  rw [hf] at h
  beta_reduce at h
  rw [← hn] at h
  cases e : find s.work.streams (16 * part + k) <;> rw [e] at h <;> dsimp only at h
  case' none =>
    have hu := s.dropFills_media part k
    generalize s.dropFills part k = u at h hu
  case' some w =>
    have hu := s.haltStream_media w
    generalize s.haltStream w = u at h hu
  all_goals
    rw [← hu]
    clear hu
    cases hp : prt u part <;> rw [hp] at h <;> dsimp only at h
    case none => exact congrArg State.media h.symm
    case some x =>
      obtain ⟨v, hv⟩ : ∃ v, v = u.event x.fn .partitionFault (toLE 4 n) := ⟨_, rfl⟩
      rw [← u.event_media x.fn .partitionFault (toLE 4 n), ← hv, ← h, ← hv]
      rcases descs v part k with _ | ⟨d, ds⟩ <;> rcases x.reserve[0]? with _ | i <;> dsimp only
      case nil.some => rw [State.signal_media]
      case nil.none => rw [List.foldl_nil]
      all_goals rw [foldl_frame State.media _ (fun s e => State.faultDesc_media ..)]

@[simp] theorem State.failMove_media (s : State) (k : Nat) (m : MoveSlot) (st : Status) :
    (s.failMove k m st).media = s.media := by
  unfold State.failMove
  dsimp only
  repeat' split
  all_goals simp

@[simp] theorem State.streamMoveDone_media (s : State) (k part seg : Nat) :
    (s.streamMoveDone k part seg).media = s.media := by
  simp [State.streamMoveDone]
  repeat' split
  all_goals simp

@[simp] theorem State.lateMove_media (s : State) (k slot : Nat) (refused : Bool) :
    (s.lateMove k slot refused).media = s.media := by
  unfold State.lateMove
  dsimp only
  repeat' split
  all_goals simp

/-! Stem -/

@[simp] theorem State.failStem_media (s : State) (k ctx idx : Nat) (st : Status) :
    (s.failStem k ctx idx st).media = s.media := by
  unfold State.failStem
  split <;> rfl

@[simp] theorem State.emptyStem_media (s : State) (ctx idx p gen : Nat) (r : List Byte) :
    (s.emptyStem ctx idx p gen r).media = s.media := by
  simp [State.emptyStem]

/-! Sched -/

@[simp] theorem State.pairStop_media (s : State) (i : Nat) (st : Status) (detail : List Byte) :
    (s.pairStop i st detail).media = s.media := by
  unfold State.pairStop
  split <;> simp

@[simp] theorem State.pairsFail_media (s : State) (p : Nat) (st : Status) :
    (s.pairsFail p st).media = s.media := by
  refine foldl_frame State.media _ (fun s i => ?_) ..
  split
  · simp [apply_ite State.media]
  · rfl

@[simp] theorem State.takeTurn_media (s : State) (p n : Nat) :
    (s.takeTurn p n).media = s.media := by
  simp [State.takeTurn, apply_ite State.media]

@[simp] theorem State.startDesc_media (s : State) (n : Nat) (d : Desc) :
    (s.startDesc n d).media = s.media := by
  unfold State.startDesc
  dsimp only
  repeat' split
  all_goals simp

@[simp] theorem State.seeDesc_media (s : State) (n idx : Nat) (raw : List Byte) :
    (s.seeDesc n idx raw).media = s.media := rfl

@[simp] theorem State.ledgerTest_media (s : State) (n idx : Nat) :
    (s.ledgerTest n idx).media = s.media := by
  unfold State.ledgerTest
  dsimp only
  repeat' split
  all_goals simp

@[simp] theorem State.settleCtx_media (s : State) (n : Nat) :
    (s.settleCtx n).media = s.media := by
  simp [State.settleCtx, apply_ite State.media]

@[simp] theorem State.releaseCores_media (s : State) (n idx : Nat) :
    (s.releaseCores n idx).media = s.media := by
  simp [State.releaseCores]

@[simp] theorem State.finishDesc_media (s : State) (n : Nat) (d : Desc) (st : Status) (energy : Nat) :
    (s.finishDesc n d st energy).media = s.media := by
  simp [State.finishDesc, apply_ite State.media]

@[simp] theorem State.dropCore_media (s : State) (n : Nat) :
    (s.dropCore n).media = s.media := by
  simp [State.dropCore]

@[simp] theorem State.dropResume_media (s : State) (n : Nat) :
    (s.dropResume n).media = s.media := rfl

@[simp] theorem State.cancelMoves_media (s : State) (n idx : Nat) :
    (s.cancelMoves n idx).media = s.media := by
  simp [State.cancelMoves]

@[simp] theorem State.handleFault_media (s : State) (n idx : Nat) :
    (s.handleFault n idx).media = s.media := by
  unfold State.handleFault
  dsimp only
  repeat' split
  all_goals simp

/-! Cascade -/

@[simp] theorem State.supersede_media (s : State) :
    s.supersede.media = s.media := by
  unfold State.supersede
  split <;> simp

@[simp] theorem State.takeRequest_media (s : State) (r : StateReq) :
    (s.takeRequest r).media = s.media := by
  simp [State.takeRequest, apply_ite State.media]

@[simp] theorem State.takeWaiting_media  (x1 : List StateReq) (s : State) :
    (State.takeWaiting x1 s).media = s.media := by
  induction x1 generalizing s with
  | nil => rfl
  | cons r rs ih =>
    unfold State.takeWaiting
    split <;> simp [ih]

@[simp] theorem State.goEscal_media (s : State) (e : Escal) :
    (s.goEscal e).media = s.media := by
  unfold State.goEscal
  dsimp only
  repeat' split
  all_goals simp

@[simp] theorem State.advance'_media (s : State) :
    s.advance'.media = s.media := by
  unfold State.advance'
  dsimp only
  repeat' split
  all_goals simp

@[simp] theorem State.testEscal_media (s : State) (e : Escal) :
    (s.testEscal e).1.media = s.media := by
  unfold State.testEscal
  dsimp only
  repeat' split
  all_goals simp

@[simp] theorem State.retestEscals_media  (x1 : List Escal) (s : State) :
    (State.retestEscals x1 s).media = s.media := by
  induction x1 generalizing s with
  | nil => rfl
  | cons e es ih =>
    unfold State.retestEscals
    dsimp only
    split
    · simp [ih]
    split
    · split <;> simp [ih]
    · simp [ih]

@[simp] theorem State.newWindow_media (s : State) :
    s.newWindow.media = s.media := rfl

@[simp] theorem State.lapse_media (s : State) :
    s.lapse.media = s.media := by
  simp [State.lapse]

@[simp] theorem State.raiseEscal_media (s : State) (t owner : Nat) :
    (s.raiseEscal t owner).media = s.media := by
  simp [State.raiseEscal, apply_ite State.media]

@[simp] theorem State.rustle_media (s : State) (owner : Nat) :
    (s.rustle owner).media = s.media := by
  simp [State.rustle, apply_ite State.media]

/-! Minuet -/

@[simp] theorem State.areaWriteFuel_media (k : Nat) (area : List Nat) (x1 : Nat) (x2 : Nat) (x3 : List Byte) (s : State) :
    (State.areaWriteFuel k area x1 x2 x3 s).media = s.media := by
  induction x1 generalizing x2 x3 s with
  | zero => rfl
  | succ fuel ih =>
    unfold State.areaWriteFuel
    split <;> simp [ih]

@[simp] theorem State.restoreRanges_media (n : Nat) (x1 : List (Nat × Nat)) (x2 : List Byte) (s : State) :
    (State.restoreRanges n x1 x2 s).media = s.media := by
  induction x1 generalizing x2 s with
  | nil => rfl
  | cons r rs ih => simp [State.restoreRanges, ih]

/-! Rings -/

@[simp] theorem State.dbBad_media (s : State) (n : Nat) :
    (s.dbBad n).media = s.media := rfl

@[simp] theorem State.takeBell_media (s : State) (n : Nat) (b : HeldBell) :
    (s.takeBell n b).media = s.media := by
  simp [State.takeBell, apply_ite State.media]

@[simp] theorem State.ringBell_media (s : State) (n : Nat) (head : Bool) (v : Nat) :
    (s.ringBell n head v).media = s.media := by
  simp [State.ringBell, apply_ite State.media]

@[simp] theorem State.countBell_media (s : State) (n : Nat) :
    (s.countBell n).media = s.media := rfl

@[simp] theorem State.clearAcct_media (s : State) (base : Nat) :
    (s.clearAcct base).media = s.media := rfl

@[simp] theorem State.fetchRefused_media (s : State) (n : Nat) (st : Status) :
    (s.fetchRefused n st).media = s.media := by
  simp [State.fetchRefused]

@[simp] theorem State.arrive_media (s : State) (n : Nat) (d : Desc) (part : Part) (raw : List Byte) :
    (s.arrive n d part raw).media = s.media := by
  unfold State.arrive
  dsimp only
  split <;> simp

@[simp] theorem State.lateFetch_media (s : State) (n : Nat) (refused : Bool) :
    (s.lateFetch n refused).media = s.media := by
  unfold State.lateFetch
  dsimp only
  repeat' split
  all_goals simp

@[simp] theorem State.runCopy_media (s : State) (n : Nat) (part : Part) (r : List Byte) (host : HostRead) :
    (s.runCopy n part r host).1.media = s.media := by
  unfold State.runCopy
  dsimp only
  repeat' split
  all_goals simp

/-! Stream -/

/-- As above, with variables for what the matches look at. -/
@[simp] theorem State.startFill_media (s : State) (w : WStream) :
    (s.startFill w).media = s.media := by
  suffices h : ∀ t, s.startFill w = t → t.media = s.media from h _ rfl
  intro t h
  obtain ⟨f, hf⟩ : ∃ f, f = @State.startFill := ⟨_, rfl⟩
  obtain ⟨bad, hbad⟩ : ∃ f, f = @State.unreadable := ⟨_, rfl⟩
  obtain ⟨fills, hfills⟩ : ∃ f, f = @fillMoves := ⟨_, rfl⟩
  rw [← hf] at h
  delta State.startFill at hf
  rw [← hbad, ← hfills] at hf
  rw [hf] at h
  beta_reduce at h
  generalize streamHalf w.raw * 0x100000 = n at h
  dsimp only at h
  have hu : ((s.partRead w.part w.nextEntry 16).undefine (streamHalfBase w.raw w.cluster w.next) n).media = s.media := by
    rw [State.undefine_media, State.partRead_media]
  generalize (s.partRead w.part w.nextEntry 16).undefine (streamHalfBase w.raw w.cluster w.next) n = u at h hu
  rw [← hu]
  cases e : bad u w.nextEntry 16 <;> rw [e] at h <;> dsimp only at h
  case some st => rw [← h, State.failStream_media, State.setStream_media]
  case none =>
    generalize (fills w.raw (u.readMem w.nextEntry 16) w.cluster w.next).reverse = moves at h
    rcases moves with _ | ⟨m, _ | ⟨m', ms⟩⟩ <;> dsimp only at h <;> rw [← h]
    · rw [State.signal_media, State.setStream_media]
    · rw [State.postFill_media, State.setStream_media]
    · rw [foldl_frame State.media (fun s m => s.postFill w w.next m) (fun s m => s.postFill_media ..), State.setStream_media]

@[simp] theorem State.fillNext_media (s : State) (p k n : Nat) :
    (s.fillNext p k n).media = s.media := by
  simp [State.fillNext]
  repeat' split
  all_goals simp

/-! CameraCtl -/

@[simp] theorem State.uplinkWrites_media (s : State) (p : Nat) (prof : List Byte) (ws : List Nat) :
    (s.uplinkWrites p prof ws).media = s.media := by
  simp [State.uplinkWrites]

@[simp] theorem State.sendWrites_media (s : State) (p : Nat) (prof : List Byte) (ws : List Nat) (acked : Nat) :
    (s.sendWrites p prof ws acked).1.media = s.media := by
  simp [State.sendWrites]

@[simp] theorem State.camStore_media (s : State) (q : CamCmd) (bs : List Byte) :
    (s.camStore q bs).1.media = s.media := by
  unfold State.camStore
  dsimp only
  repeat' split
  all_goals simp

/-! CoreEvents -/

@[simp] theorem State.logCore_media (s : State) (n level : Nat) (code : Status) :
    (s.logCore n level code).media = s.media := by
  simp [State.logCore]

@[simp] theorem State.swapEngine_media (n : Nat) (s : State) (engine : Nat) :
    (State.swapEngine n s engine).media = s.media := by
  simp [State.swapEngine, apply_ite State.media]

@[simp] theorem State.resetCore_media (s : State) (n : Nat) :
    (s.resetCore n).media = s.media := by
  simp [State.resetCore]

/-! Engine -/

@[simp] theorem mmaRun_media (n : Nat) (c : Core) (w : Nat) (s : State) :
    (mmaRun n c w s).media = s.media := by
  unfold mmaRun
  dsimp only
  repeat' split
  all_goals simp

@[simp] theorem writeCells_media (n : Nat) (d : TDesc) (m0 n0 : Nat) (cells : List (Nat × Nat)) (val : Nat → Nat → Nat) (s : State) :
    (writeCells n d m0 n0 cells val s).media = s.media := foldl_frame State.media _ (fun _ _ => TDesc.setElem_media ..) ..

@[simp] theorem drainRun_media (n : Nat) (c : Core) (w : Nat) (s : State) :
    (drainRun n c w s).media = s.media := by
  unfold drainRun
  dsimp only
  repeat' split
  all_goals simp

@[simp] theorem requantRun_media (n : Nat) (c : Core) (w : Nat) (s : State) :
    (requantRun n c w s).media = s.media := by
  unfold requantRun
  dsimp only
  repeat' split
  all_goals simp

/-! Keys -/

@[simp] theorem State.loadMemKeys_media (s : State) (die : Nat) :
    (s.loadMemKeys die).media = s.media := by
  simp [State.loadMemKeys]

@[simp] theorem State.loadD2dKeys_media (s : State) (dom : Nat) :
    (s.loadD2dKeys dom).media = s.media := rfl

@[simp] theorem State.loadWeightKey_media (s : State) (k p : Nat) :
    (s.loadWeightKey k p).media = s.media := rfl

@[simp] theorem State.loadClKeys_media (s : State) (k : Nat) :
    (s.loadClKeys k).media = s.media := by
  simp [State.loadClKeys]

@[simp] theorem State.spreadWeightKey_media (s : State) (p : Nat) :
    (s.spreadWeightKey p).media = s.media := by
  simp [State.spreadWeightKey]

@[simp] theorem State.powerDomain_media (s : State) (i : Nat) (v : Bool) :
    (s.powerDomain i v).media = s.media := by
  simp [State.powerDomain, apply_ite State.media]

/-! Partition -/

@[simp] theorem State.grantPages_media (s : State) (p : Nat) (x : Part) :
    (s.grantPages p x).media = s.media := by
  simp [State.grantPages, apply_ite State.media]

@[simp] theorem State.secureSlot_media (s : State) (k : Nat) :
    (s.secureSlot k).media = s.media := by
  simp [State.secureSlot, apply_ite State.media]

@[simp] theorem State.forgetMoved_media (s : State) (p : Nat) :
    (s.forgetMoved p).media = s.media := rfl

@[simp] theorem State.triggerClearing_media (s : State) (p trigger : Nat) :
    (s.triggerClearing p trigger).media = s.media := by
  unfold State.triggerClearing
  split <;> rfl

@[simp] theorem State.clearCore_media (s : State) (n : Nat) :
    (s.clearCore n).media = s.media := by
  simp [State.clearCore]

@[simp] theorem State.clearCluster_media (s : State) (p k : Nat) :
    (s.clearCluster p k).media = s.media := by
  simp [State.clearCluster]

@[simp] theorem State.clearSlices_media (s : State) (p : Nat) :
    (s.clearSlices p).media = s.media := by
  simp [State.clearSlices]

@[simp] theorem State.clearPost_media (s : State) (p : Nat) :
    (s.clearPost p).media = s.media := rfl

@[simp] theorem State.clearSignals_media (s : State) (p : Nat) :
    (s.clearSignals p).media = s.media := by
  simp [State.clearSignals]

@[simp] theorem State.clearCtx_media (s : State) (p : Nat) (records : Bool) (n : Nat) :
    (s.clearCtx p records n).media = s.media := by
  simp [State.clearCtx, apply_ite State.media]

@[simp] theorem State.sendReport_media (s : State) (p : Nat) (final : Bool) :
    (s.sendReport p final).media = s.media := by
  unfold State.sendReport
  dsimp only
  repeat' split
  all_goals simp

@[simp] theorem State.settleFlr_media (s : State) (f : Nat) :
    (s.settleFlr f).media = s.media := by
  unfold State.settleFlr
  split <;> rfl

@[simp] theorem State.clearApt_media (s : State) (x : Part) :
    (s.clearApt x).media = s.media := by
  simp [State.clearApt]

@[simp] theorem State.clearPackets_media (s : State) (p : Nat) (x : Part) :
    (s.clearPackets p x).media = s.media := by
  simp [State.clearPackets, apply_ite State.media]

@[simp] theorem State.reserveSignal_media (s : State) (x : Part) (i : Nat) :
    (s.reserveSignal x i).media = s.media := by
  unfold State.reserveSignal
  split <;> rfl

@[simp] theorem State.settleReserve_media (s : State) (x : Part) :
    (s.settleReserve x).media = s.media := by
  simp [State.settleReserve]

@[simp] theorem State.clearScrub_media (s : State) (p : Nat) (x : Part) :
    (s.clearScrub p x).media = s.media := by
  simp [State.clearScrub]

@[simp] theorem State.clearFinish_media (s : State) (p : Nat) :
    (s.clearFinish p).media = s.media := by
  unfold State.clearFinish
  dsimp only
  repeat' split
  all_goals simp

/-! Trust -/

@[simp] theorem State.mailGo_media (s : State) (f code : Nat) (arg : Option Nat) :
    (s.mailGo f code arg).media = s.media := by
  unfold State.mailGo
  dsimp only
  split <;> simp

@[simp] theorem State.mailRead_media (s : State) (f : Nat) (host : HostRead) :
    (s.mailRead f host).media = s.media := by
  unfold State.mailRead
  split <;> simp

@[simp] theorem State.mailDone_media (s : State) (f : Nat) (st : Status) (payload : List Byte) :
    (s.mailDone f st payload).media = s.media := by
  simp [State.mailDone, apply_ite State.media]

@[simp] theorem State.closeRelease_media (s : State) (id : Nat) :
    (s.closeRelease id).media = s.media := rfl

@[simp] theorem State.installKey_media (s : State) (r : Release) (msg : List Byte) :
    (s.installKey r msg).1.media = s.media := by
  unfold State.installKey
  dsimp only
  repeat' split
  all_goals simp

/-! Links -/

@[simp] theorem State.changeLink_media (s : State) (l : Nat) (x : Link) :
    (s.changeLink l x).media = s.media := by
  simp [State.changeLink, apply_ite State.media]

@[simp] theorem State.deliver_media (s : State) (f : Nat) :
    (s.deliver f).media = s.media := by
  unfold State.deliver
  dsimp only
  repeat' split
  all_goals simp

@[simp] theorem State.putControl_media (s : State) (f i v : Nat) :
    (s.putControl f i v).media = s.media := by
  unfold State.putControl
  dsimp only
  repeat' split
  all_goals simp

@[simp] theorem State.areaWrite_media (s : State) (f off : Nat) (data : List Byte) :
    (s.areaWrite f off data).media = s.media := by
  simp [State.areaWrite, apply_ite State.media]

@[simp] theorem State.aptRead_media (s : State) (f p a n : Nat) :
    (s.aptRead f p a n).media = s.media := by
  simp [State.aptRead, apply_ite State.media]

@[simp] theorem State.bar2Access_media (s : State) (f off n : Nat) (write : Bool) (data : List Byte) :
    (s.bar2Access f off n write data).media = s.media := by
  unfold State.bar2Access
  dsimp only
  repeat' split
  all_goals simp

@[simp] theorem State.resetCtx_media (s : State) (n : Nat) :
    (s.resetCtx n).media = s.media := by
  simp [State.resetCtx, apply_ite State.media]

@[simp] theorem State.emptyRings_media (s : State) (f : Nat) :
    (s.emptyRings f).media = s.media := by
  unfold State.emptyRings
  split <;> rfl

@[simp] theorem State.warmFn_media (s : State) (f : Nat) :
    (s.warmFn f).media = s.media := rfl

@[simp] theorem State.resetFn_media (s : State) (trigger f : Nat) :
    (s.resetFn trigger f).media = s.media := by
  simp [State.resetFn]

@[simp] theorem State.resetLink_media (s : State) (l : Nat) :
    (s.resetLink l).media = s.media := by
  simp [State.resetLink, apply_ite State.media]

@[simp] theorem State.tallyRecord_media (s : State) (pool part : Nat) (device : Bool) (diff : Int) :
    (s.tallyRecord pool part device diff).media = s.media := by
  simp [State.tallyRecord, apply_ite State.media]

@[simp] theorem State.retirePart_media (s : State) (p : Nat) :
    (s.retirePart p).media = s.media := by
  unfold State.retirePart
  split <;> rfl

@[simp] theorem State.tallyPart_media (s : State) (pool p : Nat) (diff : Int) :
    (s.tallyPart pool p diff).media = s.media := by
  simp [State.tallyPart, apply_ite State.media]

/-! Spares -/

@[simp] theorem State.smbusSend_media (s : State) (bytes : List Byte) :
    (s.smbusSend bytes).media = s.media := by
  simp [State.smbusSend]

@[simp] theorem State.disarm_media (s : State) :
    s.disarm.media = s.media := by
  simp [State.disarm, apply_ite State.media]

@[simp] theorem State.fatal_media (s : State) (code : Status) (island detail : Nat) (prior : Bool) :
    (s.fatal code island detail prior).media = s.media := by
  simp [State.fatal]

@[simp] theorem State.endAudit_media (s : State) (pool : Nat) :
    (s.endAudit pool).media = s.media := rfl

@[simp] theorem State.capIsland_media (s : State) (i : Nat) :
    (s.capIsland i).media = s.media := by
  simp [State.capIsland, apply_ite State.media]

@[simp] theorem State.openSwap_media (s : State) (key : Nat) (row : Option (Nat × Nat)) :
    (s.openSwap key row).media = s.media := rfl

@[simp] theorem State.wornSlice_media (s : State) (i : Nat) :
    (s.wornSlice i).media = s.media := by
  simp [State.wornSlice, apply_ite State.media]

@[simp] theorem State.renameCore_media (s : State) (n : Nat) :
    (s.renameCore n).media = s.media := rfl

@[simp] theorem State.rowError_media (s : State) (cluster : Bool) (unit bank row : Nat) (uncorrectable : Bool) :
    (s.rowError cluster unit bank row uncorrectable).media = s.media := by
  simp [State.rowError, apply_ite State.media]

@[simp] theorem State.retirePage_media (s : State) (pg : Nat) :
    (s.retirePage pg).media = s.media := rfl

/-! PowerStates -/

@[simp] theorem State.clusterUp_media (s : State) (k : Nat) :
    (s.clusterUp k).media = s.media := by
  simp [State.clusterUp, apply_ite State.media]

@[simp] theorem State.clusterOff_media (s : State) (k : Nat) :
    (s.clusterOff k).media = s.media := by
  unfold State.clusterOff
  split
  · refine foldl_frame State.media _ (fun s i => ?_) ..
    split
    · simp [apply_ite State.media]
    · rfl
  · rfl

@[simp] theorem State.powerTo_media (s : State) (t : Nat) :
    (s.powerTo t).media = s.media := by
  simp [State.powerTo, apply_ite State.media]

@[simp] theorem State.deliverAll_media (s : State) (f : Nat) :
    (s.deliverAll f).media = s.media := by
  simp [State.deliverAll]

@[simp] theorem State.downNotice_media (s : State) (t : Nat) :
    (s.downNotice t).media = s.media := by
  simp [State.downNotice, apply_ite State.media]

@[simp] theorem State.removeLink_media (s : State) (l : Nat) :
    (s.removeLink l).media = s.media := by
  simp [State.removeLink, apply_ite State.media]

@[simp] theorem State.fwLose_media (s : State) :
    s.fwLose.media = s.media := by
  unfold State.fwLose
  dsimp only
  rw [State.setPwr_media, State.setTrust_media]
  exact foldl_frame State.media _ (fun _ _ => State.setCluster_media ..) ..

@[simp] theorem State.writeRetention_media (s : State) :
    s.writeRetention.media = s.media := by
  simp [State.writeRetention]

@[simp] theorem State.wakeLinks_media (s : State) :
    s.wakeLinks.media = s.media := by
  unfold State.wakeLinks
  split <;> rfl

@[simp] theorem State.stepDown_media (s : State) :
    s.stepDown.media = s.media := by
  simp [State.stepDown]

@[simp] theorem State.toMinClock_media (s : State) :
    s.toMinClock.media = s.media := by
  refine foldl_frame State.media _ (fun s n => ?_) ..
  split <;> rfl

@[simp] theorem State.toFloor_media (s : State) (dies : List Nat) :
    (s.toFloor dies).media = s.media := by
  refine (foldl_frame State.media _ (fun s p => ?_) ..).trans (foldl_frame State.media _ (fun s n => ?_) ..)
  · split
    · simp [apply_ite State.media]
    · rfl
  · split <;> rfl

@[simp] theorem State.inSprout_media (s : State) :
    s.inSprout.media = s.media := by
  unfold State.inSprout
  dsimp only
  repeat' split
  all_goals simp

/-! Registers -/

@[simp] theorem State.useLatch_media (s : State) (f addr : Nat) :
    (s.useLatch f addr).media = s.media := by
  unfold State.useLatch
  split <;> rfl

@[simp] theorem State.writeCtx_media (s : State) (n off value : Nat) :
    (s.writeCtx n off value).media = s.media := by
  unfold State.writeCtx
  dsimp only
  repeat' split
  all_goals simp

@[simp] theorem State.writeGo_media (s : State) (f code : Nat) :
    (s.writeGo f code).media = s.media := by
  simp [State.writeGo, apply_ite State.media]

@[simp] theorem State.writeMbox_media (s : State) (f off value : Nat) :
    (s.writeMbox f off value).media = s.media := by
  unfold State.writeMbox
  dsimp only
  repeat' split
  all_goals simp

@[simp] theorem State.writeTrc_media (s : State) (off value : Nat) :
    (s.writeTrc off value).media = s.media := by
  simp [State.writeTrc, apply_ite State.media]

@[simp] theorem State.writeMsix_media (s : State) (f addr value : Nat) :
    (s.writeMsix f addr value).media = s.media := by
  simp [State.writeMsix, apply_ite State.media]

/-! Sequencer -/

@[simp] theorem releaseEntry_media (n : Nat) (work : CoreWork) (tileId : Nat) (s : State) (x1 : CommitEntry) :
    (releaseEntry n work tileId s x1).media = s.media := by
  unfold releaseEntry
  split <;> simp

@[simp] theorem State.modeOff_media (s : State) (n : Nat) (c : Core) :
    (s.modeOff n c).media = s.media := rfl

@[simp] theorem State.voidSlow_media (s : State) (n p : Nat) :
    (s.voidSlow n p).media = s.media := by
  simp [State.voidSlow]
  repeat' split
  all_goals simp

/-! Start -/

@[simp] theorem State.rearm_media (s : State) :
    s.rearm.media = s.media := by
  simp [State.rearm, apply_ite State.media]

@[simp] theorem State.measureBank_media (s : State) (failed b cap esr : Nat) :
    (s.measureBank failed b cap esr).media = s.media := by
  simp [State.measureBank, apply_ite State.media]

@[simp] theorem State.applyHardware_media (s : State) (x : Image) :
    (s.applyHardware x).media = s.media := rfl

@[simp] theorem State.freshStacks_media (s : State) :
    s.freshStacks.media = s.media := rfl

@[simp] theorem State.takeSections_media (s : State) (x : Image) :
    (s.takeSections x).media = s.media := by
  simp [State.takeSections, apply_ite State.media]

@[simp] theorem State.finishClearings_media (s : State) :
    s.finishClearings.media = s.media := by
  refine foldl_frame State.media _ (fun s p => ?_) ..
  split <;> simp

@[simp] theorem State.restoreImage_media (s : State) (takes : Bool) :
    (s.restoreImage takes).media = s.media := by
  unfold State.restoreImage
  dsimp only
  repeat' split
  all_goals simp

@[simp] theorem State.fwFail_media (s : State) (st : Status) :
    (s.fwFail st).media = s.media := rfl

@[simp] theorem State.storeImage_media (s : State) (b : List Byte) :
    (s.storeImage b).media = s.media := by
  simp [State.storeImage]

@[simp] theorem State.fwRun_media (s : State) (b : List Byte) (takes : Bool) :
    (s.fwRun b takes).media = s.media := by
  simp [State.fwRun, apply_ite State.media]

@[simp] theorem State.stageC_media (s : State) (r : List Byte) (host : HostRead) (takes : Bool) :
    (s.stageC r host takes).1.media = s.media := by
  unfold State.stageC
  dsimp only
  repeat' split
  all_goals simp

@[simp] theorem State.setEarly_media (s : State) (e : Option EarlyLoad) :
    (s.setEarly e).media = s.media := rfl

@[simp] theorem State.runEarly_media (s : State) :
    s.runEarly.media = s.media := by
  unfold State.runEarly
  dsimp only
  repeat' split
  all_goals simp

@[simp] theorem State.startFault_media (s : State) :
    s.startFault.media = s.media := by
  simp [State.startFault]

@[simp] theorem State.leaveDormant_media (s : State) :
    s.leaveDormant.media = s.media := by
  simp [State.leaveDormant]

end Sys2Proof.Machine
end

section
/-!
PROOF. What the camera operations and the ends of partitions leave of the microphone groups: they write other tables of the media unit.
-/
namespace Sys2Proof.Machine

/-- A fold of steps that leave the groups leaves them. -/
@[simp] theorem foldl_groups {α : Type} (f : State → α → State) (h : StepsLeave (fun t : State => t.media.groups) f) (l : List α)
    (s : State) : (l.foldl f s).media.groups = s.media.groups := foldl_frame (fun t : State => t.media.groups) f h l s

@[simp] theorem Media.freePipes_groups (m : Media) : m.freePipes.groups = m.groups := by
  refine foldl_frame Media.groups _ (fun m p => ?_) ..
  dsimp only
  split
  · split <;> rfl
  · rfl

@[simp] theorem Media.clearPart_groups (m : Media) (p : Nat) : (m.clearPart p).groups = m.groups := Media.freePipes_groups _
@[simp] theorem Media.delCam_groups (m : Media) (c : Nat) : (m.delCam c).groups = m.groups := rfl
@[simp] theorem Media.setPipe_groups (m : Media) (p : Nat) (x : Pipe) : (m.setPipe p x).groups = m.groups := rfl
@[simp] theorem Media.setCam_groups (m : Media) (c : Nat) (x : CamCtx) : (m.setCam c x).groups = m.groups := rfl
@[simp] theorem Media.setStream_groups (m : Media) (i : Nat) (x : AudStream) : (m.setStream i x).groups = m.groups := rfl

/-! Camera -/

@[simp] theorem State.camSettle_media_groups (s : State) (c : Nat) :
    (s.camSettle c).media.groups = s.media.groups := by
  unfold State.camSettle
  repeat' split
  all_goals simp

@[simp] theorem State.finishFrame_media_groups (s : State) (c : Nat) :
    (s.finishFrame c).media.groups = s.media.groups := by
  unfold State.finishFrame
  split
  · rfl
  next x _ =>
  split
  · rfl
  next f rest _ =>
  extract_lets motion marked moving m s1 x1 x2 go s2 r s3 x3
  have h1 : s1.media.groups = s.media.groups := by
    simp only [s1]
    split <;> rfl
  split
  · rw [State.camSettle_media_groups, State.setCam_media_groups, h1]
  · split
    · rw [State.camSettle_media_groups, State.setCam_media_groups, h1]
    · have hr : r.1.media = s2.media := by
        refine foldl_frame (fun a : State × CamCtx => a.1.media) _ (fun a o => ?_) ..
        exact State.camOutput_media ..
      simp [s3, hr, s2, h1]

@[simp] theorem State.finishDue_media_groups (s : State) (c : Nat) :
    (s.finishDue c).media.groups = s.media.groups := by
  unfold State.finishDue
  repeat' split
  all_goals simp

@[simp] theorem State.unmatchedPacket_media_groups (s : State) (port : Nat) :
    (s.unmatchedPacket port).media.groups = s.media.groups := rfl

@[simp] theorem State.closeFrame_media_groups (s : State) (c : Nat) (early : Bool) :
    (s.closeFrame c early).media.groups = s.media.groups := by
  unfold State.closeFrame
  dsimp only
  repeat' split
  all_goals simp

@[simp] theorem State.closePort_media_groups (s : State) (p : Nat) :
    (s.closePort p).media.groups = s.media.groups := by
  refine foldl_frame (fun t : State => t.media.groups) _ (fun s e => ?_) ..
  repeat' split
  all_goals simp

@[simp] theorem State.landLine_media_groups (s : State) (c : Nat) (x : CamCtx) (f : CamFrame) (px : List Nat) (crcOk : Bool) :
    (s.landLine c x f px crcOk).media.groups = s.media.groups := by
  unfold State.landLine
  dsimp only
  repeat' split
  all_goals simp

@[simp] theorem State.beginFrame_media_groups (s : State) (c : Nat) (x : CamCtx) (f : CamFrame) :
    (s.beginFrame c x f).media.groups = s.media.groups := rfl

@[simp] theorem State.writeLoad_media_groups (s : State) (p : Nat) :
    (s.writeLoad p).media.groups = s.media.groups := rfl

/-! Audio -/

@[simp] theorem State.deliverWake_media_groups (s : State) (t : Trigger) :
    (s.deliverWake t).media.groups = s.media.groups := by
  unfold State.deliverWake
  dsimp only
  repeat' split
  all_goals simp

@[simp] theorem State.deliverWakes_media_groups (s : State) :
    s.deliverWakes.media.groups = s.media.groups := by
  unfold State.deliverWakes
  dsimp only
  simp [apply_ite State.media, apply_ite Media.groups]

/-! CameraCtl -/

@[simp] theorem State.openSwitch_media_groups (s : State) (p st : Nat) :
    (s.openSwitch p st).media.groups = s.media.groups := by
  simp [State.openSwitch]

@[simp] theorem State.groupUp_media_groups (s : State) (g : Nat) :
    (s.groupUp g).media.groups = s.media.groups := by
  simp [State.groupUp]

@[simp] theorem State.writePoc_media_groups (s : State) (n value : Nat) :
    (s.writePoc n value).media.groups = s.media.groups := rfl

@[simp] theorem State.defaultExp_media_groups (s : State) (c : Nat) :
    (s.defaultExp c).media.groups = s.media.groups := by
  unfold State.defaultExp
  repeat' split
  all_goals simp

@[simp] theorem State.dueExps_media_groups (s : State) (p : Nat) :
    (s.dueExps p).media.groups = s.media.groups := by
  refine foldl_frame (fun t : State => t.media.groups) _ (fun s e => ?_) ..
  repeat' split
  all_goals simp

@[simp] theorem State.startDefault_media_groups (s : State) (p : Nat) (prof : List Byte) :
    (s.startDefault p prof).media.groups = s.media.groups := by
  rw [State.startDefault, State.defaultExp_media_groups, State.setCam_media_groups]

@[simp] theorem State.camSuspend_media_groups (s : State) (watch : Option (Nat × Nat)) :
    (s.camSuspend watch).media.groups = s.media.groups := by
  unfold State.camSuspend
  refine (foldl_frame (fun t : State => t.media.groups) _ (fun s p => ?_) ..).trans
    ((foldl_frame (fun t : State => t.media.groups) _ (fun s p => ?_) ..).trans
      (foldl_frame (fun t : State => t.media.groups) _ (fun s c => ?_) ..))
  · split <;> simp
  · rfl
  · dsimp only
    repeat' split
    all_goals simp

@[simp] theorem State.camResume_media_groups (s : State) :
    s.camResume.media.groups = s.media.groups := by
  unfold State.camResume
  extract_lets back s1 s2 m s3
  have h1 : s1.media.groups = s.media.groups := by
    refine foldl_frame (fun t : State => t.media.groups) _ (fun s c => ?_) ..
    split <;> simp
  clear_value s1
  have h2 : s2.media.groups = s1.media.groups := by
    refine foldl_frame (fun t : State => t.media.groups) _ (fun s g => ?_) ..
    split <;> simp
  clear_value s2
  have h3 : s3.media.groups = s2.media.groups := rfl
  clear_value s3
  rw [foldl_groups _ State.defaultExp_media_groups, h3, h2, h1]

/-! Partition -/

@[simp] theorem State.stopMedia_media_groups (s : State) (p : Nat) :
    (s.stopMedia p).media.groups = s.media.groups := by
  simp [State.stopMedia]

/-- One stage after another: a variable stands for the state that a stage starts from, so that no later stage evaluates it. -/
@[simp] theorem State.clearEarly_media_groups (s : State) (p : Nat) (x : Part) (j : ClearingJob) :
    (s.clearEarly p x j).media.groups = s.media.groups := by
  unfold State.clearEarly
  extract_lets +onlyGivenNames s1
  have h1 : s1.media.groups = s.media.groups := by rw [State.pairsFail_media, State.clearPackets_media]
  obtain ⟨t1, e⟩ : ∃ t, t = s1 := ⟨_, rfl⟩
  rw [← e] at h1 ⊢
  extract_lets +onlyGivenNames w s2 cores s3 s4
  have h3 : s3.media.groups = t1.media.groups := foldl_groups _ (fun s n => congrArg Media.groups (State.undefineBody_media ..)) ..
  have h4 : s4.media.groups = s3.media.groups := foldl_groups _ (fun s k => congrArg Media.groups (State.clearCluster_media ..)) ..
  obtain ⟨t4, e⟩ : ∃ t, t = s4 := ⟨_, rfl⟩
  rw [← e] at h4 ⊢
  extract_lets +onlyGivenNames s5 s6
  have h5 : s5.media.groups = t4.media.groups := by
    rw [State.clearSlices_media, State.clearSignals_media, State.clearPost_media]
  obtain ⟨t6, e, h6⟩ : ∃ t, t = s6 ∧ t.media.groups = s5.media.groups := by
    refine ⟨_, rfl, foldl_groups _ (fun s k => ?_) ..⟩
    dsimp only
    split
    · split
      · rw [State.haltStream_media]
      · rfl
    · rfl
  rw [← e]
  extract_lets +onlyGivenNames s7 v s8
  obtain ⟨t8, e, h8⟩ : ∃ t, t = s8 ∧ t.media.groups = t6.media.groups :=
    ⟨_, rfl, by rw [State.setServing_media, State.clearApt_media, State.stopMedia_media_groups]⟩
  rw [← e]
  extract_lets +onlyGivenNames w' s9 s10 s11
  have h10 : s10.media.groups = t8.media.groups := foldl_groups _ (fun s n => congrArg Media.groups (State.clearCtx_media ..)) ..
  have h11 : s11.media.groups = s10.media.groups :=
    foldl_groups _ (fun s n => congrArg Media.groups ((State.setCore_media ..).trans (State.modeUp_media ..))) ..
  obtain ⟨t11, e⟩ : ∃ t, t = s11 := ⟨_, rfl⟩
  rw [← e] at h11 ⊢
  rw [State.settleFlr_media, State.sendReport_media, State.setJob_media, h11, h10, h8, h6, h5, h4, h3, h1]

/-! Spares -/

@[simp] theorem State.violatePart_media_groups (s : State) (pool p : Nat) (diff : Int) :
    (s.violatePart pool p diff).media.groups = s.media.groups := by
  unfold State.violatePart
  dsimp only
  split
  · split <;> simp
  · simp

/-! PowerStates -/

@[simp] theorem State.endAll_media_groups (s : State) :
    s.endAll.media.groups = s.media.groups := by
  unfold State.endAll
  extract_lets +onlyGivenNames ps s1 s2
  have h1 : s1.media.groups = s.media.groups := foldl_groups _ (fun s p => by simp) ..
  have h2 : s2.media.groups = s1.media.groups := foldl_groups _ (fun s f => by simp) ..
  obtain ⟨t, e⟩ : ∃ t, t = s2 := ⟨_, rfl⟩
  rw [← e] at h2 ⊢
  exact h2.trans h1

@[simp] theorem State.retain_media_groups (s : State) (t : Nat) :
    (s.retain t).media.groups = s.media.groups := by
  unfold State.retain
  extract_lets pw s1 pw1 ended s2 pw' fw
  have h1 : s1.media = s.media := by
    simp only [s1]
    split <;> simp
  have h2 : s2.media.groups = s.media.groups := by simp [s2]
  split
  · rw [State.setPwr_media, h1]
  · split
    · rw [State.setPwr_media, h2]
    · rfl

@[simp] theorem State.checkRetained_media_groups (s : State) (read : Bool) :
    (s.checkRetained read).media.groups = s.media.groups := by
  unfold State.checkRetained
  extract_lets pw s1 pw'
  have h1 : s1.media.groups = s.media.groups := by simp [s1]
  split
  · rw [State.setPwr_media]
  · rw [State.setPwr_media, h1]

@[simp] theorem State.rampUp_media_groups (s : State) (t : Nat) (digestOk : Bool) :
    (s.rampUp t digestOk).media.groups = s.media.groups := by
  unfold State.rampUp
  split <;> simp

/-! Registers -/

@[simp] theorem State.clearRead_media_groups (s : State) (f addr : Nat) :
    (s.clearRead f addr).media.groups = s.media.groups := by
  unfold State.clearRead
  dsimp only
  repeat' split
  all_goals simp

/-! Start -/

@[simp] theorem State.portsUp_media_groups (s : State) :
    s.portsUp.media.groups = s.media.groups := by
  unfold State.portsUp
  dsimp only
  simp [apply_ite State.media, apply_ite Media.groups]

@[simp] theorem State.rejectImage_media_groups (s : State) (restore : Nat) :
    (s.rejectImage restore).media.groups = s.media.groups := by
  simp [State.rejectImage]

@[simp] theorem State.checkImage_media_groups (s : State) (lost : Nat) :
    (s.checkImage lost).media.groups = s.media.groups := by
  unfold State.checkImage
  repeat' split
  all_goals simp

end Sys2Proof.Machine
end

section
/-!
PROOF. The switches of the microphone groups (R471): what a mute sets, and what the state changes leave as it stands.
-/
namespace Sys2Proof.Machine

/-- The four parts of a group that its mute commands: muted, clock, microphone power and indicator (R471). -/
def AudGroup.switches (x : AudGroup) : Bool × Bool × Bool × Bool := (x.muted, x.clock, x.power, x.lit)

/-- Two groups agree in them. -/
def AudGroup.SwitchedAs (x y : AudGroup) : Prop := x.switches = y.switches

@[simp] theorem AudGroup.switchedAs_iff (x y : AudGroup) :
    x.SwitchedAs y ↔ x.muted = y.muted ∧ x.clock = y.clock ∧ x.power = y.power ∧ x.lit = y.lit := by
  simp [AudGroup.SwitchedAs, AudGroup.switches]

/-- The switches of every group of a table. -/
def switches (t : Tbl AudGroup) (g : Nat) : Bool × Bool × Bool × Bool := (Tbl.get AudGroup.reset t g).switches

/-- A group written with its own switches leaves those of all. -/
@[simp] theorem Media.setGroup_switches (m : Media) (g : Nat) (x : AudGroup) (h : x.SwitchedAs (m.group g)) :
    switches (m.setGroup g x).groups = switches m.groups := by
  funext n
  change ((m.setGroup g x).group n).switches = (m.group n).switches
  rw [Media.group, Media.setGroup, Tbl.get_set]
  split
  next e => rw [h, e]
  · rfl

@[simp] theorem State.setGroup_switches (s : State) (g : Nat) (x : AudGroup) (h : x.SwitchedAs (s.media.group g)) :
    switches (s.setGroup g x).media.groups = switches s.media.groups := s.media.setGroup_switches g x h

theorem foldl_switches {α : Type} (f : State → α → State) (h : ∀ s a, switches (f s a).media.groups = switches s.media.groups)
    (l : List α) (s : State) : switches (l.foldl f s).media.groups = switches s.media.groups :=
  foldl_frame (fun t : State => switches t.media.groups) f h l s

@[simp] theorem State.adoptGroup_switches (s : State) (g : Nat) (x : AudGroup) (h : x.SwitchedAs (s.media.group g)) :
    switches (s.adoptGroup g x).media.groups = switches s.media.groups := by
  obtain ⟨enc, chains, window, features, warm, floor, onset, e⟩ := x.adopt_rest
  have set : switches (s.setGroup g x.adopt).media.groups = switches s.media.groups := s.setGroup_switches g _ (by rw [e]; exact h)
  unfold State.adoptGroup
  dsimp only
  split <;> exact set

@[simp] theorem State.audStateChanged_switches (s : State) : switches s.audStateChanged.media.groups = switches s.media.groups := by
  unfold State.audStateChanged
  refine foldl_switches _ (fun s g => ?_) ..
  exact s.setGroup_switches g _ rfl

@[simp] theorem State.enter_switches (s : State) (t : Nat) : switches (s.enter t).media.groups = switches s.media.groups := by
  unfold State.enter
  rw [State.audStateChanged_switches, State.setPwr_media, State.powerTo_media, State.retain_media_groups]
  simp [apply_ite State.media, apply_ite Media.groups]

@[simp] theorem State.endRise_switches (s : State) (x : Transit) : switches (s.endRise x).media.groups = switches s.media.groups := by
  simp [State.endRise, apply_ite State.media, apply_ite Media.groups]

@[simp] theorem State.meltdown_switches (s : State) : switches s.meltdown.media.groups = switches s.media.groups := by
  unfold State.meltdown
  extract_lets +onlyGivenNames s0 off cores held s1 s2 s3 s4
  have h0 : s0.media = s.media := State.driveFault_media ..
  have h1 : s1.media = s0.media := foldl_media _ (fun s n => State.abortTile_media ..) ..
  have h2 : s2.media = s1.media := by
    refine foldl_media _ (fun s n => ?_) ..
    split
    · exact State.faultDesc_media ..
    · rfl
  have h3 : s3.media = s2.media := foldl_media _ (fun s n => foldl_media _ (fun s i => State.handleFault_media ..) ..) ..
  obtain ⟨t3, e3⟩ : ∃ t, t = s3 := ⟨_, rfl⟩
  have h4 : s4.media = t3.media := by
    simp only [s4, ← e3]
    split
    · split
      · rw [State.answerOpt_media, State.setPwr_media]
        split
        · rw [State.powerTo_media]
        · rfl
      · rfl
    · rfl
  have h : s4.media = s.media := by rw [h4, e3, h3, h2, h1, h0]
  split
  · rw [State.inSprout_media, State.enter_switches, h]
  · rw [h]

@[simp] theorem State.thermalAct_switches (s : State) (stage : Nat) (entered4 fresh1 : Bool) :
    switches (s.thermalAct stage entered4 fresh1).media.groups = switches s.media.groups := by
  unfold State.thermalAct
  dsimp only
  split <;> simp [apply_ite State.media]

@[simp] theorem State.enterSprout_switches (s : State) : switches s.enterSprout.media.groups = switches s.media.groups := by
  unfold State.enterSprout
  dsimp only
  split
  · split <;> simp
  · simp

/-! Results -/

/-- A command's result leaves the switches: the state it answers has those of `s`. -/
def LeavesSwitches (s : State) : Res → Prop
  | .next t => switches t.media.groups = switches s.media.groups
  | _ => True

section Results

variable {s : State} {k : State → State}

@[simp] theorem leavesSwitches_next (t : State) :
    LeavesSwitches s (.next t) ↔ switches t.media.groups = switches s.media.groups := Iff.rfl

/-- A step that leaves the switches of whatever state it is given. -/
abbrev KeepsSwitches (k : State → State) : Prop := ∀ t, switches (k t).media.groups = switches t.media.groups

/-- A request answers, or runs its work on the state in which it is taken. -/
theorem State.request_switches (hk : KeepsSwitches k) (f op tag : Nat) (early readOnly : Bool) (who : Issuer) (ok : Bool) :
    LeavesSwitches s (s.request f op tag early readOnly who ok k) := by
  unfold State.request
  dsimp only
  repeat' split
  all_goals simp [hk _]

theorem State.regWrite_switches (hk : KeepsSwitches k) (allowed : Bool) : LeavesSwitches s (s.regWrite allowed k) := by
  unfold State.regWrite
  split <;> simp [hk _]

theorem State.doorbell_switches (hk : KeepsSwitches k) (f n : Nat) : LeavesSwitches s (s.doorbell f n k) := by
  unfold State.doorbell
  dsimp only
  repeat' split
  all_goals simp [hk _]

theorem State.bar4Write_switches (s : State) (f off size v : Nat) : LeavesSwitches s (s.bar4Write f off size v) := by
  unfold State.bar4Write
  split
  · simp
  · refine State.doorbell_switches (fun s => ?_) ..
    repeat' split
    all_goals simp

/-- A mailbox command's work leaves the switches. -/
abbrev MailKeepsSwitches (k : State → State × Status × List Byte) : Prop :=
  ∀ t, switches (k t).1.media.groups = switches t.media.groups

theorem State.mailbox_switches {k : State → State × Status × List Byte} (hk : MailKeepsSwitches k) (f code : Nat) (arg : Option Nat)
    (allowed : Bool) : LeavesSwitches s (s.mailbox f code arg allowed k) := by
  have inside (c : MboxCmd) : switches (s.mailInside f c allowed k).media.groups = switches s.media.groups := by
    unfold State.mailInside
    dsimp only
    split <;> simp [hk _]
  have run (t : State) : switches (if allowed then k t else (t, Status.eSecDenied, [])).1.media.groups = switches t.media.groups := by
    split
    · exact hk t
    · rfl
  unfold State.mailbox
  dsimp only
  repeat' split
  all_goals simp_all

theorem State.mailboxRead_switches {k : State → State × Status × List Byte} (hk : MailKeepsSwitches k) (f code : Nat)
    (allowed : Bool) : LeavesSwitches s (s.mailboxRead f code allowed k) := by
  unfold State.mailboxRead
  split
  · simp
  · exact State.mailbox_switches hk ..

@[simp] theorem State.spdmAnswer_switches (s : State) (f code : Nat) (req content : List Byte) :
    LeavesSwitches s (s.spdmAnswer f code req content) := by
  unfold State.spdmAnswer
  split <;> simp

theorem State.spdmIdentity_switches {k : State → Res} (hk : LeavesSwitches s (k s)) (f : Nat) :
    LeavesSwitches s (s.spdmIdentity f k) := by
  unfold State.spdmIdentity
  repeat' split
  · simp
  · simp
  · exact hk

theorem State.smbus_switches (hk : KeepsSwitches k) : LeavesSwitches s (s.smbus k) := by
  unfold State.smbus
  split <;> simp [hk _]

theorem State.closeSwap_switches (hk : KeepsSwitches k) (key : Nat) (row : Option (Nat × Nat)) :
    switches (s.closeSwap key row k).media.groups = switches s.media.groups := by
  simp [State.closeSwap, hk _]

theorem State.camRun_switches {p op : Nat} {k : CamCmd → Nat → CamCtx → State → State}
    (hk : ∀ q c x, KeepsSwitches (k q c x)) : LeavesSwitches s (s.camRun p op k) := by
  unfold State.camRun
  dsimp only
  repeat' split
  all_goals simp [hk _ _ _ _]

theorem State.longPacket_switches {k : Nat → CamCtx → State → State} (hk : ∀ c x, KeepsSwitches (k c x)) (port vc : Nat)
    (dt : Option Nat) (hdr : Nat) (crcOk : Bool) : LeavesSwitches s (s.longPacket port vc dt hdr crcOk k) := by
  unfold State.longPacket
  dsimp only
  repeat' split
  all_goals simp [hk _ _ _]

theorem State.inTile_media {f : Core → State} (hf : ∀ c, (f c).media = s.media) (n : Nat) (c : Core) :
    (s.inTile n c f).media = s.media := by
  unfold State.inTile
  repeat' split
  all_goals simp [hf _]

theorem State.inBody_media {f : Core → State} (hf : ∀ c, (f c).media = s.media) (n : Nat) (c : Core) :
    (s.inBody n c f).media = s.media := by
  unfold State.inBody
  repeat' split
  · rfl
  · exact State.inTile_media hf ..
  · exact State.inTile_media hf ..

theorem State.anyPlace_media {f : Core → State} (hf : ∀ c, (f c).media = s.media) (n : Nat) (c : Core) :
    (s.anyPlace n c f).media = s.media := by
  unfold State.anyPlace
  split
  · exact hf c
  · exact State.inBody_media hf ..

theorem State.issue_switches {n op : Nat} {f : Core → Nat → State} (hf : ∀ c w, (f c w).media = s.media) :
    LeavesSwitches s (s.issue n op f) := by
  unfold State.issue
  dsimp only
  repeat' split
  all_goals simp [hf _ _]

end Results

end Sys2Proof.Machine
end

section
/-!
PROOF. Each command but those of mute and start leaves the switches of every microphone group (R471).
-/
namespace Sys2Proof.Machine

theorem AudGroup.Heard.switchedAs {x y : AudGroup} (h : x.Heard y) : y.SwitchedAs x := by
  obtain ⟨blocks, enc, chains, onset, changed, window, features, warm, floor, cand, rfl⟩ := h
  rfl

/-- What ends a hop leaves the switches, as what it heard did. -/
theorem State.endHop_switches (s : State) (g : Nat) {x : AudGroup} (h : x.SwitchedAs (s.media.group g)) :
    switches (s.endHop g x).media.groups = switches s.media.groups := by
  unfold State.endHop
  extract_lets t
  have ht : switches t.media.groups = switches s.media.groups := by
    simp only [t]
    split
    · exact s.setGroup_switches g x h
    · rw [State.closeSession_media, Media.setGroup_switches _ _ _ (by rfl)]
      exact s.setGroup_switches g x h
  rw [State.adoptGroup_switches _ _ _ (by rfl), ht]

/-! Sync -/

theorem execSyncSignalApply_switches (i : Nat) (s : State) :
    LeavesSwitches s (execSyncSignalApply i s) := by
  unfold execSyncSignalApply
  dsimp only
  repeat' split
  all_goals simp

theorem execSyncAlloc_switches (f tag count p : Nat) (s : State) :
    LeavesSwitches s (execSyncAlloc f tag count p s) := by
  refine State.request_switches (fun s => ?_) ..
  split <;> simp

theorem execSyncFree_switches (f tag : Nat) (objs : List Nat) (s : State) :
    LeavesSwitches s (execSyncFree f tag objs s) := by
  refine State.request_switches (fun s => ?_) ..
  simp

theorem execSyncSet_switches (f tag i value : Nat) (s : State) :
    LeavesSwitches s (execSyncSet f tag i value s) := by
  refine State.request_switches (fun s => ?_) ..
  split <;> simp

/-! Camera -/

theorem execFrameStartPacket_switches (port vc csiNo : Nat) (s : State) :
    LeavesSwitches s (execFrameStartPacket port vc csiNo s) := by
  unfold execFrameStartPacket
  dsimp only
  repeat' split
  all_goals simp

theorem execLinePacket_switches (port vc dt hdr : Nat) (px : List Nat) (crcOk : Bool) (s : State) :
    LeavesSwitches s (execLinePacket port vc dt hdr px crcOk s) := by
  refine State.longPacket_switches (fun c x s => ?_) ..
  repeat' split
  all_goals simp

theorem execEmbeddedDataLine_switches (port vc : Nat) (e : EmbLine) (s : State) :
    LeavesSwitches s (execEmbeddedDataLine port vc e s) := by
  refine State.longPacket_switches (fun c x s => ?_) ..
  simp

theorem execFrameEndPacket_switches (port vc : Nat) (s : State) :
    LeavesSwitches s (execFrameEndPacket port vc s) := by
  unfold execFrameEndPacket
  repeat' split
  all_goals simp

theorem execIspUnitStart_switches (p : Nat) (s : State) :
    LeavesSwitches s (execIspUnitStart p s) := by
  unfold execIspUnitStart
  dsimp only
  repeat' split
  all_goals simp

theorem execIspUnitEnd_switches (p : Nat) (s : State) :
    LeavesSwitches s (execIspUnitEnd p s) := by
  unfold execIspUnitEnd
  dsimp only
  split
  · simp
  · split
    · refine foldl_switches _ (fun s c => ?_) ..
      split
      · split <;> simp
      · rfl
    · repeat' split
      all_goals simp

/-! Program -/

theorem execProgramLoad_switches (n : Nat) (host : HostRead) (s : State) :
    LeavesSwitches s (execProgramLoad n host s) := by
  unfold execProgramLoad
  split <;> simp

theorem execOverlayLoad_switches (n : Nat) (host : HostRead) (s : State) :
    LeavesSwitches s (execOverlayLoad n host s) := by
  unfold execOverlayLoad
  dsimp only
  repeat' split
  all_goals simp

/-! Post -/

theorem execPostDescriptorQueue_switches (s : State) :
    LeavesSwitches s (execPostDescriptorQueue s) := by
  unfold execPostDescriptorQueue
  dsimp only
  repeat' split
  all_goals simp

theorem execPostDescriptorStart_switches (s : State) :
    LeavesSwitches s (execPostDescriptorStart s) := by
  unfold execPostDescriptorStart
  dsimp only
  repeat' split
  all_goals simp

theorem execPostDescriptorComplete_switches (s : State) :
    LeavesSwitches s (execPostDescriptorComplete s) := by
  unfold execPostDescriptorComplete
  dsimp only
  repeat' split
  all_goals simp

/-! Memory -/

theorem execSliceRequest_switches (p gen : Nat) (write : Bool) (a n : Nat) (data : List Byte) (ecc : Nat) (s : State) :
    LeavesSwitches s (execSliceRequest p gen write a n data ecc s) := by
  unfold execSliceRequest
  split <;> simp

theorem execRefreshDue_switches (stack ch : Nat) (postpone : Bool) (s : State) :
    LeavesSwitches s (execRefreshDue stack ch postpone s) := by
  unfold execRefreshDue
  dsimp only
  repeat' split
  all_goals simp

theorem execStackTemperatureReport_switches (stack : Nat) (temp : Int) (s : State) :
    LeavesSwitches s (execStackTemperatureReport stack temp s) := by
  unfold execStackTemperatureReport
  split <;> simp

theorem execMemStallClearAll_switches (f : Nat) (s : State) :
    LeavesSwitches s (execMemStallClearAll f s) := by
  refine State.regWrite_switches (fun s => ?_) ..
  simp

theorem execMemStallClearPart_switches (f p : Nat) (s : State) :
    LeavesSwitches s (execMemStallClearPart f p s) := by
  refine State.regWrite_switches (fun s => ?_) ..
  simp

theorem execGroupMode_switches (f tag g : Nat) (sliced : Bool) (s : State) :
    LeavesSwitches s (execGroupMode f tag g sliced s) := by
  refine State.request_switches (fun s => ?_) ..
  split <;> simp

/-! Serving -/

theorem execAttnRegister_switches (f tag p : Nat) (raw : List Byte) (s : State) :
    LeavesSwitches s (execAttnRegister f tag p raw s) := by
  refine State.request_switches (fun s => ?_) ..
  dsimp only
  repeat' split
  all_goals simp

theorem execKvPages_switches (f tag p slot first count : Nat) (s : State) :
    LeavesSwitches s (execKvPages f tag p slot first count s) := by
  refine State.request_switches (fun s => ?_) ..
  repeat' split
  all_goals simp

theorem execServeRegister_switches (f tag p : Nat) (raw : List Byte) (s : State) :
    LeavesSwitches s (execServeRegister f tag p raw s) := by
  refine State.request_switches (fun s => ?_) ..
  dsimp only
  repeat' split
  all_goals simp

theorem execModelSlot_switches (f tag p slot : Nat) (raw : List Byte) (s : State) :
    LeavesSwitches s (execModelSlot f tag p slot raw s) := by
  refine State.request_switches (fun s => ?_) ..
  dsimp only
  repeat' split
  all_goals simp

theorem execSeqWrite_switches (f tag i : Nat) (raw : List Byte) (s : State) :
    LeavesSwitches s (execSeqWrite f tag i raw s) := by
  unfold execSeqWrite
  dsimp only
  split
  · simp
  · refine State.request_switches (fun s => ?_) ..
    repeat' split
    all_goals simp

theorem execStepStart_switches (p : Nat) (s : State) :
    LeavesSwitches s (execStepStart p s) := by
  unfold execStepStart
  repeat' split
  all_goals simp

theorem execStep_switches (f tag p : Nat) (s : State) :
    LeavesSwitches s (execStep f tag p s) := by
  unfold execStep
  split
  · simp
  · refine State.request_switches (fun s => ?_) ..
    dsimp only
    repeat' split
    all_goals simp

theorem execWorkListComplete_switches (p : Nat) (s : State) :
    LeavesSwitches s (execWorkListComplete p s) := by
  unfold execWorkListComplete
  dsimp only
  repeat' split
  all_goals simp

theorem execCacheTagMismatch_switches (n seq out len : Nat) (signals : List (Nat × Nat)) (weight : Bool) (s : State) :
    LeavesSwitches s (execCacheTagMismatch n seq out len signals weight s) := by
  unfold execCacheTagMismatch
  dsimp only
  repeat' split
  all_goals simp [apply_ite State.media]

/-! Mover -/

theorem execMoveDescriptorAccept_switches (k : Nat) (s : State) :
    LeavesSwitches s (execMoveDescriptorAccept k s) := by
  unfold execMoveDescriptorAccept
  dsimp only
  repeat' split
  all_goals simp

theorem execMoveComplete_switches (k slot : Nat) (host : HostRead) (s : State) :
    LeavesSwitches s (execMoveComplete k slot host s) := by
  unfold execMoveComplete
  split
  · simp
  · dsimp only
    split
    · simp
    · split
      · simp
      · split
        · simp
        · split
          next hr =>
            have moved := (congrArg (fun r : State × Status => r.1.media) hr).symm.trans (State.runMove_media ..)
            split <;> simp_all
          next hr =>
            have moved := (congrArg (fun r : State × Status => r.1.media) hr).symm.trans (State.runMove_media ..)
            simp_all

/-! Stem -/

theorem execStemDescriptor_switches (k ctx idx : Nat) (raw : List Byte) (s : State) :
    LeavesSwitches s (execStemDescriptor k ctx idx raw s) := by
  unfold execStemDescriptor
  dsimp only
  repeat' split
  all_goals simp

theorem execStemComplete_switches (k : Nat) (s : State) :
    LeavesSwitches s (execStemComplete k s) := by
  unfold execStemComplete
  dsimp only
  repeat' split
  all_goals simp

/-! Sched -/

theorem execDescriptorDispatch_switches (p : Nat) (s : State) :
    LeavesSwitches s (execDescriptorDispatch p s) := by
  unfold execDescriptorDispatch
  dsimp only
  repeat' split
  all_goals simp

theorem execDescriptorComplete_switches (n idx energy : Nat) (s : State) :
    LeavesSwitches s (execDescriptorComplete n idx energy s) := by
  unfold execDescriptorComplete
  repeat' split
  all_goals simp

theorem execPartitionFaultHandling_switches (n idx : Nat) (s : State) :
    LeavesSwitches s (execPartitionFaultHandling n idx s) := by
  simp [execPartitionFaultHandling]

/-! Cascade -/

theorem execStateRequest_switches (f tag target timeout : Nat) (s : State) :
    LeavesSwitches s (execStateRequest f tag target timeout s) := by
  unfold execStateRequest
  refine State.request_switches (fun s => ?_) ..
  dsimp only
  repeat' split
  all_goals simp

theorem execStateRequestTimeout_switches (s : State) :
    LeavesSwitches s (execStateRequestTimeout s) := by
  unfold execStateRequestTimeout
  dsimp only
  repeat' split
  all_goals simp

theorem execRefuserRelease_switches (s : State) :
    LeavesSwitches s (execRefuserRelease s) := by
  unfold execRefuserRelease
  split <;> simp

theorem execLedgerWindowStart_switches (debits : List Debit) (s : State) :
    LeavesSwitches s (execLedgerWindowStart debits s) := by
  unfold execLedgerWindowStart
  dsimp only
  repeat' split
  all_goals simp [apply_ite State.media]

theorem execLedgerHold_switches (debits : List Debit) (s : State) :
    LeavesSwitches s (execLedgerHold debits s) := by
  unfold execLedgerHold
  dsimp only
  repeat' split
  all_goals simp

theorem execPwrLedgerCfgWrite_switches (f value : Nat) (s : State) :
    LeavesSwitches s (execPwrLedgerCfgWrite f value s) := by
  refine State.regWrite_switches (fun s => ?_) ..
  simp

theorem execPwrAllowanceWrite_switches (f value : Nat) (s : State) :
    LeavesSwitches s (execPwrAllowanceWrite f value s) := by
  refine State.regWrite_switches (fun s => ?_) ..
  simp

theorem execTierRegister_switches (f tag t : Nat) (raw : List Byte) (s : State) :
    LeavesSwitches s (execTierRegister f tag t raw s) := by
  unfold execTierRegister
  refine State.request_switches (fun s => ?_) ..
  dsimp only
  repeat' split
  all_goals simp

theorem execEscalationRequest_switches (t : Nat) (s : State) :
    LeavesSwitches s (execEscalationRequest t s) := by
  unfold execEscalationRequest
  dsimp only
  repeat' split
  all_goals simp

/-! Audio -/

theorem execMuteSettleEnd_switches (g : Nat) (s : State) :
    LeavesSwitches s (execMuteSettleEnd g s) := by
  unfold execMuteSettleEnd
  dsimp only
  repeat' split
  all_goals simp

theorem execAudGroupCfgWrite_switches (f g value : Nat) (s : State) :
    LeavesSwitches s (execAudGroupCfgWrite f g value s) := by
  refine State.regWrite_switches (fun s => ?_) ..
  dsimp only
  repeat' split
  all_goals simp

theorem execAudWakeCfgWrite_switches (f g value : Nat) (s : State) :
    LeavesSwitches s (execAudWakeCfgWrite f g value s) := by
  refine State.regWrite_switches (fun s => ?_) ..
  simp

theorem execAudStore_switches (f tag : Nat) (raw : List Byte) (s : State) :
    LeavesSwitches s (execAudStore f tag raw s) := by
  unfold execAudStore
  refine State.request_switches (fun s => ?_) ..
  dsimp only
  repeat' split
  all_goals simp

theorem execRecogniserHop_switches (g : Nat) (fall rise : List (List Bool)) (energy : Int) (s : State) :
    LeavesSwitches s (execRecogniserHop g fall rise energy s) := by
  cases h : s.pwr.stageADone with
  | false => simp [execRecogniserHop, h]
  | true =>
    obtain ⟨x, hx, e⟩ := execRecogniserHop_started h g fall rise energy
    rw [e, leavesSwitches_next, State.takeImage_groups]
    exact s.endHop_switches g hx.switchedAs

theorem execWakeMatch_switches (g : Nat) (s : State) :
    LeavesSwitches s (execWakeMatch g s) := by
  unfold execWakeMatch
  dsimp only
  repeat' split
  all_goals simp

theorem execRustleTrigger_switches (s : State) :
    LeavesSwitches s (execRustleTrigger s) := by
  unfold execRustleTrigger
  split <;> simp

theorem execSessionTimeout_switches (g : Nat) (s : State) :
    LeavesSwitches s (execSessionTimeout g s) := by
  unfold execSessionTimeout
  dsimp only
  repeat' split
  all_goals simp

theorem execAudCopy_switches (f tag g mask epoch first count fmt space part dest : Nat) (s : State) :
    LeavesSwitches s (execAudCopy f tag g mask epoch first count fmt space part dest s) := by
  refine State.request_switches (fun s => ?_) ..
  dsimp only
  repeat' split
  all_goals simp

theorem execAudReseal_switches (f tag g : Nat) (s : State) :
    LeavesSwitches s (execAudReseal f tag g s) := by
  refine State.request_switches (fun s => ?_) ..
  simp

theorem execAudStream_switches (f tag g part base slots slotBytes frameSync releaseSync : Nat) (s : State) :
    LeavesSwitches s (execAudStream f tag g part base slots slotBytes frameSync releaseSync s) := by
  refine State.request_switches (fun s => ?_) ..
  dsimp only
  repeat' split
  all_goals simp

theorem execAudStreamSlot_switches (i : Nat) (pdm : List (List (Bool × Bool))) (s : State) :
    LeavesSwitches s (execAudStreamSlot i pdm s) := by
  unfold execAudStreamSlot
  dsimp only
  repeat' split
  all_goals simp

theorem execWakeQueueRead_switches (f tag first : Nat) (s : State) :
    LeavesSwitches s (execWakeQueueRead f tag first s) := by
  refine State.request_switches (fun s => ?_) ..
  simp

/-! Minuet -/

theorem execMinuetRequest_switches (n : Nat) (migrate : Bool) (s : State) :
    LeavesSwitches s (execMinuetRequest n migrate s) := by
  unfold execMinuetRequest
  dsimp only
  repeat' split
  all_goals simp

theorem execMinuetSave_switches (n : Nat) (s : State) :
    LeavesSwitches s (execMinuetSave n s) := by
  unfold execMinuetSave
  dsimp only
  repeat' split
  all_goals simp

theorem execMinuetRestore_switches (n : Nat) (host : HostRead) (s : State) :
    LeavesSwitches s (execMinuetRestore n host s) := by
  unfold execMinuetRestore
  dsimp only
  repeat' split
  all_goals simp

theorem execCtxPause_switches (f tag n : Nat) (s : State) :
    LeavesSwitches s (execCtxPause f tag n s) := by
  refine State.request_switches (fun s => ?_) ..
  simp

theorem execPairCreate_switches (f tag : Nat) (raw : List Byte) (s : State) :
    LeavesSwitches s (execPairCreate f tag raw s) := by
  unfold execPairCreate
  refine State.request_switches (fun s => ?_) ..
  dsimp only
  repeat' split
  all_goals simp

theorem execPairArm_switches (f tag i : Nat) (arm : Bool) (s : State) :
    LeavesSwitches s (execPairArm f tag i arm s) := by
  refine State.request_switches (fun s => ?_) ..
  split <;> simp

theorem execPairRoundCompare_switches (i : Nat) (s : State) :
    LeavesSwitches s (execPairRoundCompare i s) := by
  unfold execPairRoundCompare
  dsimp only
  repeat' split
  all_goals simp

theorem execPairTimeout_switches (i : Nat) (s : State) :
    LeavesSwitches s (execPairTimeout i s) := by
  unfold execPairTimeout
  dsimp only
  repeat' split
  all_goals simp

/-! Rings -/

theorem execSqTailDoorbell_switches (f n v : Nat) (s : State) :
    LeavesSwitches s (execSqTailDoorbell f n v s) := State.bar4Write_switches ..

theorem execCqHeadDoorbell_switches (f n v : Nat) (s : State) :
    LeavesSwitches s (execCqHeadDoorbell f n v s) := State.bar4Write_switches ..

theorem execCtxRestart_switches (f tag n : Nat) (s : State) :
    LeavesSwitches s (execCtxRestart f tag n s) := by
  refine State.request_switches (fun s => ?_) ..
  simp

theorem execCtxEnable_switches (f n value : Nat) (s : State) :
    LeavesSwitches s (execCtxEnable f n value s) := by
  refine State.regWrite_switches (fun s => ?_) ..
  dsimp only
  repeat' split
  all_goals simp

theorem execCtxDisable_switches (f n : Nat) (s : State) :
    LeavesSwitches s (execCtxDisable f n s) := by
  refine State.regWrite_switches (fun s => ?_) ..
  dsimp only
  repeat' split
  all_goals simp

theorem execDescriptorFetch_switches (n : Nat) (s : State) :
    LeavesSwitches s (execDescriptorFetch n s) := by
  unfold execDescriptorFetch
  dsimp only
  repeat' split
  all_goals simp

theorem execDescriptorArrive_switches (n : Nat) (host : HostRead) (s : State) :
    LeavesSwitches s (execDescriptorArrive n host s) := by
  unfold execDescriptorArrive
  dsimp only
  repeat' split
  all_goals simp

theorem execNop_switches (n idx : Nat) (s : State) :
    LeavesSwitches s (execNop n idx s) := by
  unfold execNop
  split <;> simp

theorem execCompute_switches (n idx : Nat) (host : HostRead) (s : State) :
    LeavesSwitches s (execCompute n idx host s) := by
  unfold execCompute
  split <;> simp

theorem execCopy_switches (n idx : Nat) (host : HostRead) (s : State) :
    LeavesSwitches s (execCopy n idx host s) := by
  unfold execCopy
  dsimp only
  repeat' split
  all_goals simp

theorem execPost_switches (n idx : Nat) (s : State) :
    LeavesSwitches s (execPost n idx s) := by
  unfold execPost
  dsimp only
  repeat' split
  all_goals simp

theorem execIrqModerationTimer_switches (n : Nat) (s : State) :
    LeavesSwitches s (execIrqModerationTimer n s) := by
  unfold execIrqModerationTimer
  dsimp only
  repeat' split
  all_goals simp

theorem execVectorUnmask_switches (f v : Nat) (s : State) :
    LeavesSwitches s (execVectorUnmask f v s) := by
  unfold execVectorUnmask
  dsimp only
  repeat' split
  all_goals simp

/-! Stream -/

theorem execStreamRegister_switches (f tag p k : Nat) (raw : List Byte) (s : State) :
    LeavesSwitches s (execStreamRegister f tag p k raw s) := by
  unfold execStreamRegister
  split
  · simp
  · refine State.request_switches (fun s => ?_) ..
    split
    · rw [State.reply_media]
    · extract_lets +onlyGivenNames r s0 s1 s2
      have h1 : s1.media = s.media := by
        simp only [s1]
        split
        · split
          · rw [State.haltStream_media]
          · rfl
        · rfl
      have h2 : s2.media = s1.media := by rw [State.zeroSync_media, State.zeroSync_media]
      obtain ⟨t, e⟩ : ∃ t, t = s2 := ⟨_, rfl⟩
      rw [← e] at h2 ⊢
      extract_lets w s3
      have h3 : s3.media = t.media := by
        simp only [s3]
        split
        · rw [State.fillNext_media, State.startFill_media]
        · rw [State.setStream_media]
      split
      · rw [State.reply_media]
      · rw [State.reply_media, State.stallAll_media, h3, h2, h1]

theorem execStreamFillStart_switches (p k : Nat) (s : State) :
    LeavesSwitches s (execStreamFillStart p k s) := by
  unfold execStreamFillStart
  dsimp only
  repeat' split
  all_goals simp

theorem execStreamStop_switches (f tag p k : Nat) (s : State) :
    LeavesSwitches s (execStreamStop f tag p k s) := by
  refine State.request_switches (fun s => ?_) ..
  split <;> simp

theorem execStreamStopAtBoundary_switches (p k : Nat) (s : State) :
    LeavesSwitches s (execStreamStopAtBoundary p k s) := by
  unfold execStreamStopAtBoundary
  repeat' split
  all_goals simp

/-! CameraCtl -/

theorem execCamPocEnWrite_switches (f n value : Nat) (s : State) :
    LeavesSwitches s (execCamPocEnWrite f n value s) := by
  refine State.regWrite_switches (fun s => ?_) ..
  dsimp only
  repeat' split
  all_goals simp

theorem execPocOvercurrent_switches (n : Nat) (s : State) :
    LeavesSwitches s (execPocOvercurrent n s) := by
  unfold execPocOvercurrent
  dsimp only
  repeat' split
  all_goals simp

theorem execPocOpenDetect_switches (n current : Nat) (s : State) :
    LeavesSwitches s (execPocOpenDetect n current s) := by
  unfold execPocOpenDetect
  dsimp only
  repeat' split
  all_goals simp

theorem execPortBringUp_switches (n fails : Nat) (s : State) :
    LeavesSwitches s (execPortBringUp n fails s) := by
  unfold execPortBringUp
  dsimp only
  repeat' split
  all_goals simp

theorem execAphyLinkLoss_switches (n : Nat) (s : State) :
    LeavesSwitches s (execAphyLinkLoss n s) := by
  unfold execAphyLinkLoss
  dsimp only
  repeat' split
  all_goals simp

theorem execCamPortOwnerWrite_switches (f n value : Nat) (s : State) :
    LeavesSwitches s (execCamPortOwnerWrite f n value s) := by
  refine State.regWrite_switches (fun s => ?_) ..
  dsimp only
  repeat' split
  all_goals simp

theorem execCamPortMap_switches (f tag : Nat) (raw : List Byte) (s : State) :
    LeavesSwitches s (execCamPortMap f tag raw s) := by
  unfold execCamPortMap
  refine State.request_switches (fun s => ?_) ..
  dsimp only
  repeat' split
  all_goals simp

theorem execCamProfile_switches (f tag slot index : Nat) (data : List Byte) (s : State) :
    LeavesSwitches s (execCamProfile f tag slot index data s) := by
  unfold execCamProfile
  refine State.request_switches (fun s => ?_) ..
  dsimp only
  repeat' split
  all_goals simp

theorem execCamFsyncCtrlWrite_switches (f g value : Nat) (s : State) :
    LeavesSwitches s (execCamFsyncCtrlWrite f g value s) := by
  refine State.regWrite_switches (fun s => ?_) ..
  simp

theorem execCamFsyncPeriodWrite_switches (f g value : Nat) (s : State) :
    LeavesSwitches s (execCamFsyncPeriodWrite f g value s) := by
  refine State.regWrite_switches (fun s => ?_) ..
  simp

theorem execFsyncGeneratorEdge_switches (g : Nat) (s : State) :
    LeavesSwitches s (execFsyncGeneratorEdge g s) := by
  unfold execFsyncGeneratorEdge
  dsimp only
  repeat' split
  all_goals simp

theorem execFsyncEdge_switches (g : Nat) (s : State) :
    LeavesSwitches s (execFsyncEdge g s) := by
  unfold execFsyncEdge
  dsimp only
  repeat' split
  all_goals simp

theorem execCamCtxStart_switches (f tag : Nat) (raw : List Byte) (s : State) :
    LeavesSwitches s (execCamCtxStart f tag raw s) := by
  unfold execCamCtxStart
  extract_lets r port pipe p
  refine State.request_switches (fun s => ?_) ..
  extract_lets dark
  split
  · split
    · simp
    · extract_lets x m l s1 y s2 s3 s4 s5
      have h1 : s1.media.groups = s.media.groups := foldl_groups _ (fun s i => congrArg Media.groups (s.zeroSync_media i)) ..
      have h3 : s3.media.groups = s1.media.groups := by
        rw [State.defaultExp_media_groups]
        split
        · rw [State.groupUp_media_groups, State.setPort_media_groups]
        · rw [State.setPort_media_groups]
      have h5 : s5.media.groups = s3.media.groups := by
        simp only [s5]
        split
        · rw [State.camSettle_media_groups, State.setCam_media_groups]; rfl
        · rfl
      split
      · simp
      · rw [State.reply_media, State.writeLoad_media_groups, h5, h3, h1]
  · simp

theorem execCamCtxStop_switches (f tag c : Nat) (s : State) :
    LeavesSwitches s (execCamCtxStop f tag c s) := by
  unfold execCamCtxStop
  dsimp only
  refine State.request_switches (fun s => ?_) ..
  split <;> simp

theorem execCamDefaultStats_switches (f tag port index : Nat) (s : State) :
    LeavesSwitches s (execCamDefaultStats f tag port index s) := by
  refine State.request_switches (fun s => ?_) ..
  simp

theorem execCamera_switches (n idx : Nat) (s : State) :
    LeavesSwitches s (execCamera n idx s) := by
  unfold execCamera
  dsimp only
  repeat' split
  all_goals simp

theorem execSensorWrite_switches (p acked : Nat) (s : State) :
    LeavesSwitches s (execSensorWrite p acked s) := by
  refine State.camRun_switches (fun q c x s => ?_) ..
  simp

theorem execSensorRead_switches (p : Nat) (answer : HostRead) (s : State) :
    LeavesSwitches s (execSensorRead p answer s) := by
  refine State.camRun_switches (fun q c x s => ?_) ..
  dsimp only
  repeat' split
  all_goals simp

theorem execExposure_switches (p acked : Nat) (s : State) :
    LeavesSwitches s (execExposure p acked s) := by
  refine State.camRun_switches (fun q c x s => ?_) ..
  dsimp only
  repeat' split
  all_goals simp

theorem execIspParams_switches (p : Nat) (host : HostRead) (s : State) :
    LeavesSwitches s (execIspParams p host s) := by
  refine State.camRun_switches (fun q c x s => ?_) ..
  dsimp only
  repeat' split
  all_goals simp

/-! CoreEvents -/

theorem execLinkParityFailure_switches (n engine link : Nat) (resendFails : Bool) (s : State) :
    LeavesSwitches s (execLinkParityFailure n engine link resendFails s) := by
  unfold execLinkParityFailure
  dsimp only
  repeat' split
  all_goals simp

theorem execCoreReset_switches (n : Nat) (s : State) :
    LeavesSwitches s (execCoreReset n s) := by
  unfold execCoreReset
  dsimp only
  repeat' split
  all_goals simp

/-! Engine -/

theorem execMma_switches (n : Nat) (s : State) :
    LeavesSwitches s (execMma n s) := by
  refine State.issue_switches (fun c w => ?_)
  refine State.inBody_media (fun c => ?_) ..
  split <;> simp

theorem execDrain_switches (n : Nat) (s : State) :
    LeavesSwitches s (execDrain n s) := by
  refine State.issue_switches (fun c w => ?_)
  refine State.inBody_media (fun c => ?_) ..
  split <;> simp

theorem execRequant_switches (n : Nat) (s : State) :
    LeavesSwitches s (execRequant n s) := by
  refine State.issue_switches (fun c w => ?_)
  refine State.inBody_media (fun c => ?_) ..
  split <;> simp

/-! Partition -/

theorem execPartCreate_switches (f tag : Nat) (raw : List Byte) (s : State) :
    LeavesSwitches s (execPartCreate f tag raw s) := by
  unfold execPartCreate
  refine State.request_switches (fun s => ?_) ..
  dsimp only
  repeat' split
  all_goals simp

theorem execPartDestroy_switches (f tag p : Nat) (s : State) :
    LeavesSwitches s (execPartDestroy f tag p s) := by
  unfold execPartDestroy
  dsimp only
  refine State.request_switches (fun s => ?_) ..
  split <;> simp

theorem execClearing_switches (p : Nat) (home : Bool) (s : State) :
    LeavesSwitches s (execClearing p home s) := by
  unfold execClearing
  dsimp only
  repeat' split
  all_goals simp

/-! Trust -/

theorem execSignerRevoke_switches (f : Nat) (host : HostRead) (s : State) :
    LeavesSwitches s (execSignerRevoke f host s) := by
  refine State.mailboxRead_switches (fun s => ?_) ..
  dsimp only
  repeat' split
  all_goals simp

theorem execSvnCommit_switches (f arg : Nat) (s : State) :
    LeavesSwitches s (execSvnCommit f arg s) := by
  refine State.mailbox_switches (fun s => ?_) ..
  dsimp only
  repeat' split
  all_goals simp

theorem execReleaseOpen_switches (f p : Nat) (s : State) :
    LeavesSwitches s (execReleaseOpen f p s) := by
  refine State.mailbox_switches (fun s => ?_) ..
  dsimp only
  repeat' split
  all_goals simp

theorem execReleaseKey_switches (f : Nat) (host : HostRead) (s : State) :
    LeavesSwitches s (execReleaseKey f host s) := by
  refine State.mailboxRead_switches (fun s => ?_) ..
  dsimp only
  repeat' split
  all_goals simp

theorem execReleaseClose_switches (f id : Nat) (s : State) :
    LeavesSwitches s (execReleaseClose f id s) := by
  refine State.mailbox_switches (fun s => ?_) ..
  simp

theorem execReleaseEntryTimeout_switches (id : Nat) (s : State) :
    LeavesSwitches s (execReleaseEntryTimeout id s) := by
  simp [execReleaseEntryTimeout]

theorem execUnlockNonce_switches (f : Nat) (s : State) :
    LeavesSwitches s (execUnlockNonce f s) := by
  refine State.mailbox_switches (fun s => ?_) ..
  simp

theorem execUnlock_switches (f : Nat) (host : HostRead) (s : State) :
    LeavesSwitches s (execUnlock f host s) := by
  refine State.mailboxRead_switches (fun s => ?_) ..
  dsimp only
  repeat' split
  all_goals simp

theorem execRecogImage_switches (f tag : Nat) (host : ImageRead) (s : State) :
    LeavesSwitches s (execRecogImage f tag host s) := by
  unfold execRecogImage
  split
  · simp
  · refine State.request_switches (fun s => ?_) ..
    dsimp only
    repeat' split
    all_goals simp

theorem execGetVersion_switches (f : Nat) (req : List Byte) (s : State) :
    LeavesSwitches s (execGetVersion f req s) := by
  simp [execGetVersion]

theorem execGetCapabilities_switches (f : Nat) (req : List Byte) (s : State) :
    LeavesSwitches s (execGetCapabilities f req s) := by
  simp [execGetCapabilities]

theorem execNegotiateAlgorithms_switches (f : Nat) (req : List Byte) (s : State) :
    LeavesSwitches s (execNegotiateAlgorithms f req s) := by
  simp [execNegotiateAlgorithms]

theorem execGetDigests_switches (f : Nat) (req : List Byte) (s : State) :
    LeavesSwitches s (execGetDigests f req s) := by
  refine State.spdmIdentity_switches ?_ ..
  simp

theorem execGetCertificate_switches (f slot off len : Nat) (req : List Byte) (s : State) :
    LeavesSwitches s (execGetCertificate f slot off len req s) := by
  refine State.spdmIdentity_switches ?_ ..
  split <;> simp

theorem execChallenge_switches (f : Nat) (req : List Byte) (s : State) :
    LeavesSwitches s (execChallenge f req s) := by
  refine State.spdmIdentity_switches ?_ ..
  simp

theorem execGetMeasurements_switches (f index : Nat) (req : List Byte) (s : State) :
    LeavesSwitches s (execGetMeasurements f index req s) := by
  refine State.spdmIdentity_switches ?_ ..
  dsimp only
  repeat' split
  all_goals simp

theorem execSpdmUnsupportedRequest_switches (f : Nat) (s : State) :
    LeavesSwitches s (execSpdmUnsupportedRequest f s) := by
  refine State.spdmIdentity_switches ?_ ..
  simp

/-! Links -/

theorem execMgmtEventDeliver_switches (f : Nat) (s : State) :
    LeavesSwitches s (execMgmtEventDeliver f s) := by
  simp [execMgmtEventDeliver]

theorem execUnknownOpcodeRequest_switches (f op tag : Nat) (s : State) :
    LeavesSwitches s (execUnknownOpcodeRequest f op tag s) := by
  refine State.request_switches (fun s => ?_) ..
  simp

theorem execMemAptWrite_switches (f j value : Nat) (s : State) :
    LeavesSwitches s (execMemAptWrite f j value s) := by
  refine State.regWrite_switches (fun s => ?_) ..
  simp

theorem execApertureAccess_switches (f off n : Nat) (write : Bool) (data : List Byte) (s : State) :
    LeavesSwitches s (execApertureAccess f off n write data s) := by
  unfold execApertureAccess
  split <;> simp

theorem execPerstAssert_switches (l : Nat) (s : State) :
    LeavesSwitches s (execPerstAssert l s) := by
  unfold execPerstAssert
  dsimp only
  repeat' split
  all_goals simp

theorem execPerstRelease_switches (l : Nat) (s : State) :
    LeavesSwitches s (execPerstRelease l s) := by
  unfold execPerstRelease
  dsimp only
  repeat' split
  all_goals simp

theorem execDlDown_switches (l : Nat) (s : State) :
    LeavesSwitches s (execDlDown l s) := by
  unfold execDlDown
  dsimp only
  repeat' split
  all_goals simp

theorem execVfDisable_switches (l : Nat) (s : State) :
    LeavesSwitches s (execVfDisable l s) := by
  unfold execVfDisable
  split <;> simp

theorem execFlr_switches (f : Nat) (s : State) :
    LeavesSwitches s (execFlr f s) := by
  unfold execFlr
  split <;> simp

theorem execLinkUp_switches (l speed width : Nat) (s : State) :
    LeavesSwitches s (execLinkUp l speed width s) := by
  unfold execLinkUp
  dsimp only
  repeat' split
  all_goals simp

theorem execLinkRecord_switches (f tag : Nat) (raw : List Byte) (s : State) :
    LeavesSwitches s (execLinkRecord f tag raw s) := by
  unfold execLinkRecord
  refine State.request_switches (fun s => ?_) ..
  dsimp only
  simp

theorem execPtmDialogue_switches (l hostTime : Nat) (s : State) :
    LeavesSwitches s (execPtmDialogue l hostTime s) := by
  unfold execPtmDialogue
  dsimp only
  repeat' split
  all_goals simp

theorem execPtmSyncTimeout_switches (l : Nat) (s : State) :
    LeavesSwitches s (execPtmSyncTimeout l s) := by
  unfold execPtmSyncTimeout
  dsimp only
  repeat' split
  all_goals simp

theorem execStampAlign_switches (i : Nat) (s : State) :
    LeavesSwitches s (execStampAlign i s) := by
  simp [execStampAlign]

theorem execFnLimitWrite_switches (f t value : Nat) (s : State) :
    LeavesSwitches s (execFnLimitWrite f t value s) := by
  refine State.regWrite_switches (fun s => ?_) ..
  dsimp only
  repeat' split
  all_goals simp

theorem execFnQosWrite_switches (f t value : Nat) (s : State) :
    LeavesSwitches s (execFnQosWrite f t value s) := by
  refine State.regWrite_switches (fun s => ?_) ..
  dsimp only
  repeat' split
  all_goals simp

theorem execFnGroupOwnerWrite_switches (f g value : Nat) (s : State) :
    LeavesSwitches s (execFnGroupOwnerWrite f g value s) := by
  refine State.regWrite_switches (fun s => ?_) ..
  dsimp only
  repeat' split
  all_goals simp

theorem execTallyClearingTimeout_switches (p pool : Nat) (diff : Int) (s : State) :
    LeavesSwitches s (execTallyClearingTimeout p pool diff s) := by
  unfold execTallyClearingTimeout
  repeat' split
  all_goals simp

/-! Spares -/

theorem execErrlogRead_switches (f tag seq : Nat) (s : State) :
    LeavesSwitches s (execErrlogRead f tag seq s) := by
  refine State.request_switches (fun s => ?_) ..
  simp

theorem execSpareRead_switches (f tag i : Nat) (s : State) :
    LeavesSwitches s (execSpareRead f tag i s) := by
  refine State.request_switches (fun s => ?_) ..
  simp

theorem execSmbusMctpControl_switches (code : Nat) (body : List Byte) (s : State) :
    LeavesSwitches s (execSmbusMctpControl code body s) := by
  refine State.smbus_switches (fun s => ?_) ..
  simp

theorem execSmbusPldmSensorRead_switches (i meter : Nat) (s : State) :
    LeavesSwitches s (execSmbusPldmSensorRead i meter s) := by
  refine State.smbus_switches (fun s => ?_) ..
  simp

theorem execSmbusErrlogSummary_switches (s : State) :
    LeavesSwitches s (execSmbusErrlogSummary s) := by
  refine State.smbus_switches (fun s => ?_) ..
  simp

theorem execSmbusErrlogEntry_switches (seq : Nat) (s : State) :
    LeavesSwitches s (execSmbusErrlogEntry seq s) := by
  refine State.smbus_switches (fun s => ?_) ..
  simp

theorem execSmbusSpareSummary_switches (s : State) :
    LeavesSwitches s (execSmbusSpareSummary s) := by
  refine State.smbus_switches (fun s => ?_) ..
  simp

theorem execSmbusSpareRecord_switches (i : Nat) (s : State) :
    LeavesSwitches s (execSmbusSpareRecord i s) := by
  refine State.smbus_switches (fun s => ?_) ..
  simp

theorem execFatalHalt_switches (island detail : Nat) (s : State) :
    LeavesSwitches s (execFatalHalt island detail s) := by
  unfold execFatalHalt
  split <;> simp

theorem execTallyAudit_switches (pool : Nat) (holder : Option Nat) (c : AuditCounts) (s : State) :
    LeavesSwitches s (execTallyAudit pool holder c s) := by
  unfold execTallyAudit
  dsimp only
  repeat' split
  all_goals simp

theorem execD2dPacketTagFail_switches (link dir : Nat) (fresh : Bool) (s : State) :
    LeavesSwitches s (execD2dPacketTagFail link dir fresh s) := by
  unfold execD2dPacketTagFail
  dsimp only
  repeat' split
  all_goals simp

theorem execAgeingMonitorRead_switches (i slack : Nat) (s : State) :
    LeavesSwitches s (execAgeingMonitorRead i slack s) := by
  unfold execAgeingMonitorRead
  dsimp only
  repeat' split
  all_goals simp

theorem execCoreMigration_switches (n : Nat) (selfTest : Bool) (s : State) :
    LeavesSwitches s (execCoreMigration n selfTest s) := by
  unfold execCoreMigration
  dsimp only
  repeat' split
  all_goals simp

theorem execSramRowSwap_switches (cluster : Bool) (unit bank row : Nat) (uncorrectable : Bool) (s : State) :
    LeavesSwitches s (execSramRowSwap cluster unit bank row uncorrectable s) := by
  unfold execSramRowSwap
  dsimp only
  repeat' split
  all_goals simp

theorem execStackRowRepair_switches (stack ch row pg : Nat) (uncorrectable ppr ended : Bool) (s : State) :
    LeavesSwitches s (execStackRowRepair stack ch row pg uncorrectable ppr ended s) := by
  unfold execStackRowRepair
  dsimp only
  split
  · simp
  · split
    · simp
    · split
      · simp
      · refine State.closeSwap_switches (fun s => ?_) ..
        repeat' split
        all_goals simp

theorem execPseudoChannelSwap_switches (stack ch cause : Nat) (ended : Bool) (s : State) :
    LeavesSwitches s (execPseudoChannelSwap stack ch cause ended s) := by
  unfold execPseudoChannelSwap
  dsimp only
  split
  · simp
  · split
    · simp
    · split
      · simp
      · refine State.closeSwap_switches (fun s => ?_) ..
        split <;> simp

theorem execUcieLaneRepair_switches (link dir lane : Nat) (training : Bool) (s : State) :
    LeavesSwitches s (execUcieLaneRepair link dir lane training s) := by
  unfold execUcieLaneRepair
  dsimp only
  repeat' split
  all_goals simp

/-! PowerStates -/

theorem execPwrCfgWrite_switches (f value : Nat) (s : State) :
    LeavesSwitches s (execPwrCfgWrite f value s) := by
  refine State.regWrite_switches (fun s => ?_) ..
  extract_lets old new die place
  split <;> rw [State.setPwr_media]

theorem execStateEntry_switches (late : Option Nat) (s : State) :
    LeavesSwitches s (execStateEntry late s) := by
  unfold execStateEntry
  dsimp only
  repeat' split
  all_goals simp

theorem execStateRise_switches (digestOk : Bool) (s : State) :
    LeavesSwitches s (execStateRise digestOk s) := by
  unfold execStateRise
  dsimp only
  repeat' split
  all_goals simp

theorem execThermalGuardSample_switches (junction : Int) (s : State) :
    LeavesSwitches s (execThermalGuardSample junction s) := by
  unfold execThermalGuardSample
  dsimp only
  repeat' split
  all_goals simp

theorem execThermalRecoveryStep_switches (s : State) :
    LeavesSwitches s (execThermalRecoveryStep s) := by
  unfold execThermalRecoveryStep
  dsimp only
  repeat' split
  all_goals simp

/-! Registers -/

theorem execBar0MisalignedAccess_switches (f : Nat) (write : Bool) (s : State) :
    LeavesSwitches s (execBar0MisalignedAccess f write s) := by
  unfold execBar0MisalignedAccess
  dsimp only
  repeat' split
  all_goals simp

theorem execCounterLoRead_switches (f addr : Nat) (s : State) :
    LeavesSwitches s (execCounterLoRead f addr s) := by
  unfold execCounterLoRead
  dsimp only
  repeat' split
  all_goals simp

theorem execRcRegisterRead_switches (f addr : Nat) (s : State) :
    LeavesSwitches s (execRcRegisterRead f addr s) := by
  unfold execRcRegisterRead
  split <;> simp

theorem execRegisterWrite_switches (f addr value : Nat) (s : State) :
    LeavesSwitches s (execRegisterWrite f addr value s) := by
  refine State.regWrite_switches (fun s => ?_) ..
  dsimp only
  repeat' split
  all_goals simp

theorem execGlbSafeClear_switches (f : Nat) (cause : Bool) (s : State) :
    LeavesSwitches s (execGlbSafeClear f cause s) := by
  refine State.regWrite_switches (fun s => ?_) ..
  split <;> simp

theorem execGlbFaultClear_switches (f : Nat) (s : State) :
    LeavesSwitches s (execGlbFaultClear f s) := by
  refine State.regWrite_switches (fun s => ?_) ..
  split <;> simp

theorem execTraceRecordEmit_switches (point island fn part : Nat) (args : List Word) (blocked : Bool) (s : State) :
    LeavesSwitches s (execTraceRecordEmit point island fn part args blocked s) := by
  unfold execTraceRecordEmit
  dsimp only
  repeat' split
  all_goals simp

theorem execTrcCtrlWrite_switches (f value : Nat) (s : State) :
    LeavesSwitches s (execTrcCtrlWrite f value s) := by
  refine State.regWrite_switches (fun s => ?_) ..
  dsimp only
  repeat' split
  all_goals simp

/-! Sequencer -/

theorem execTile_switches (n : Nat) (s : State) :
    LeavesSwitches s (execTile n s) := by
  refine State.issue_switches (fun c w => ?_) ..
  dsimp only
  repeat' split
  all_goals simp

theorem execCommit_switches (n : Nat) (s : State) :
    LeavesSwitches s (execCommit n s) := by
  refine State.issue_switches (fun c w => ?_)
  split
  · simp
  · refine State.inTile_media (fun c => ?_) ..
    split
    next work t _ _ =>
      have released : (c.commitQ.foldl (releaseEntry n work t.id) s).media = s.media :=
        foldl_media _ (fun s e => releaseEntry_media ..) ..
      dsimp only
      split
      · simp
      · simp [released]
    · simp


theorem execWait_switches (n : Nat) (s : State) :
    LeavesSwitches s (execWait n s) := by
  refine State.issue_switches (fun c w => ?_) ..
  dsimp only
  repeat' split
  all_goals simp

theorem execWaitResume_switches (n : Nat) (s : State) :
    LeavesSwitches s (execWaitResume n s) := by
  unfold execWaitResume
  dsimp only
  repeat' split
  all_goals simp

theorem execSignal_switches (n : Nat) (s : State) :
    LeavesSwitches s (execSignal n s) := by
  refine State.issue_switches (fun c w => ?_)
  refine State.inBody_media (fun c => ?_) ..
  dsimp only
  repeat' split
  all_goals simp

theorem execMove_switches (n : Nat) (s : State) :
    LeavesSwitches s (execMove n s) := by
  refine State.issue_switches (fun c w => ?_)
  refine State.inBody_media (fun c => ?_) ..
  dsimp only
  repeat' split
  all_goals simp

theorem execTdload_switches (n : Nat) (s : State) :
    LeavesSwitches s (execTdload n s) := by
  refine State.issue_switches (fun c w => ?_)
  refine State.anyPlace_media (fun c => ?_) ..
  dsimp only
  repeat' split
  all_goals simp

theorem execWaitset_switches (n : Nat) (s : State) :
    LeavesSwitches s (execWaitset n s) := by
  refine State.issue_switches (fun c w => ?_) ..
  dsimp only
  repeat' split
  all_goals simp

theorem execWaitsetProxySignal_switches (k i : Nat) (s : State) :
    LeavesSwitches s (execWaitsetProxySignal k i s) := by
  unfold execWaitsetProxySignal
  dsimp only
  repeat' split
  all_goals simp

theorem execWaitsetTimeout_switches (k i : Nat) (s : State) :
    LeavesSwitches s (execWaitsetTimeout k i s) := by
  unfold execWaitsetTimeout
  repeat' split
  all_goals simp

theorem execLoop_switches (n : Nat) (s : State) :
    LeavesSwitches s (execLoop n s) := by
  refine State.issue_switches (fun c w => ?_)
  refine State.anyPlace_media (fun c => ?_) ..
  dsimp only
  repeat' split
  all_goals simp

theorem execBranch_switches (n : Nat) (s : State) :
    LeavesSwitches s (execBranch n s) := by
  refine State.issue_switches (fun c w => ?_)
  refine State.anyPlace_media (fun c => ?_) ..
  dsimp only
  repeat' split
  all_goals simp

theorem execSalu_switches (n : Nat) (s : State) :
    LeavesSwitches s (execSalu n s) := by
  refine State.issue_switches (fun c w => ?_)
  refine State.anyPlace_media (fun c => ?_) ..
  dsimp only
  repeat' split
  all_goals simp

theorem execSldst_switches (n : Nat) (s : State) :
    LeavesSwitches s (execSldst n s) := by
  refine State.issue_switches (fun c w => ?_)
  refine State.anyPlace_media (fun c => ?_) ..
  dsimp only
  repeat' split
  all_goals simp

theorem execAalu_switches (n : Nat) (s : State) :
    LeavesSwitches s (execAalu n s) := by
  refine State.issue_switches (fun c w => ?_)
  refine State.anyPlace_media (fun c => ?_) ..
  dsimp only
  simp

theorem execTileWatchdogExpiry_switches (n : Nat) (s : State) :
    LeavesSwitches s (execTileWatchdogExpiry n s) := by
  unfold execTileWatchdogExpiry
  dsimp only
  repeat' split
  all_goals simp

theorem execUndefinedInstructionEncoding_switches (n : Nat) (s : State) :
    LeavesSwitches s (execUndefinedInstructionEncoding n s) := by
  unfold execUndefinedInstructionEncoding
  dsimp only
  repeat' split
  all_goals simp

/-! Start -/

theorem execWindfallArmingChange_switches (v : Nat) (s : State) :
    LeavesSwitches s (execWindfallArmingChange v s) := by
  unfold execWindfallArmingChange
  split <;> simp

theorem execBankRetest_switches (b cap esr : Nat) (s : State) :
    LeavesSwitches s (execBankRetest b cap esr s) := by
  unfold execBankRetest
  split <;> simp

theorem execFwLoad_switches (f tag : Nat) (raw : List Byte) (host : HostRead) (takes : Bool) (s : State) :
    LeavesSwitches s (execFwLoad f tag raw host takes s) := by
  unfold execFwLoad
  split
  · simp
  · refine State.request_switches (fun s => ?_) ..
    dsimp only
    repeat' split
    all_goals simp

theorem execLinkRetrain_switches (l : Nat) (ended : Bool) (speed width : Nat) (s : State) :
    LeavesSwitches s (execLinkRetrain l ended speed width s) := by
  unfold execLinkRetrain
  dsimp only
  repeat' split
  all_goals simp

theorem execStageB_switches (check : Nat) (stacksOk : Bool) (s : State) :
    LeavesSwitches s (execStageB check stacksOk s) := by
  unfold execStageB
  split
  · simp
  · split
    · split <;> simp
    · extract_lets fresh s1 e s2 s3 s4 s5
      have h1 : s1.media = s.media := foldl_media _ (fun s i => State.powerDomain_media ..) ..
      have h5 : s5.media.groups = s.media.groups := by
        rw [State.freshStacks_media]
        simp only [s4]
        split
        · rw [State.checkImage_media_groups, State.portsUp_media_groups, ← h1]
        · rw [State.leaveDormant_media, State.portsUp_media_groups, ← h1]
      split
      · rw [leavesSwitches_next, State.startFault_media, h5]
      · split
        · rw [leavesSwitches_next, State.enterSprout_switches, h5]
        · rw [leavesSwitches_next, State.setPwr_media, h5]

theorem execStartStatus_switches (f tag : Nat) (s : State) :
    LeavesSwitches s (execStartStatus f tag s) := by
  refine State.request_switches (fun s => ?_) ..
  simp

theorem execFwRegionDeclare_switches (off len version : Nat) (s : State) :
    LeavesSwitches s (execFwRegionDeclare off len version s) := by
  unfold execFwRegionDeclare
  dsimp only
  repeat' split
  all_goals simp

/-! Vector -/

theorem execVop_switches (n : Nat) (s : State) :
    LeavesSwitches s (execVop n s) := by
  refine State.issue_switches (fun c w => ?_)
  refine State.inBody_media (fun c => ?_) ..
  dsimp only
  repeat' split
  all_goals simp

theorem execVldst_switches (n : Nat) (s : State) :
    LeavesSwitches s (execVldst n s) := by
  refine State.issue_switches (fun c w => ?_)
  refine State.inBody_media (fun c => ?_) ..
  dsimp only
  repeat' split
  all_goals simp

end Sys2Proof.Machine
end

section
/-!
PROOF. Only an unmute, a power-on, a restart or a save changes the switches of a muted group (R471).
-/
namespace Sys2Proof.Machine

/-- The commands that write switches: the mutes and unmutes, and those that start the module or save it. -/
def WritesSwitches : Instr → Prop
  | .muteAssert _ | .unmute _ | .powerOn .. | .restartAfterSave .. | .windfallSave _ => True
  | _ => False

theorem exec_switches (c : Instr) (s : State) (h : ¬ WritesSwitches c) : LeavesSwitches s (exec c s) := by
  cases c with
  | powerOn _ _ _ _ _ => exact absurd trivial h
  | stageB _ _ => exact execStageB_switches ..
  | restartAfterSave _ _ _ _ _ => exact absurd trivial h
  | windfallSave _ => exact absurd trivial h
  | fwRegionDeclare _ _ _ => exact execFwRegionDeclare_switches ..
  | bankRetest _ _ _ => exact execBankRetest_switches ..
  | windfallArmingChange _ => exact execWindfallArmingChange_switches ..
  | fwLoad _ _ _ _ _ => exact execFwLoad_switches ..
  | startStatus _ _ => exact execStartStatus_switches ..
  | mma _ => exact execMma_switches ..
  | drain _ => exact execDrain_switches ..
  | requant _ => exact execRequant_switches ..
  | vop _ => exact execVop_switches ..
  | vldst _ => exact execVldst_switches ..
  | tile _ => exact execTile_switches ..
  | commit _ => exact execCommit_switches ..
  | wait _ => exact execWait_switches ..
  | waitResume _ => exact execWaitResume_switches ..
  | signal _ => exact execSignal_switches ..
  | move _ => exact execMove_switches ..
  | tdload _ => exact execTdload_switches ..
  | waitset _ => exact execWaitset_switches ..
  | waitsetProxySignal _ _ => exact execWaitsetProxySignal_switches ..
  | waitsetTimeout _ _ => exact execWaitsetTimeout_switches ..
  | loop _ => exact execLoop_switches ..
  | branch _ => exact execBranch_switches ..
  | salu _ => exact execSalu_switches ..
  | sldst _ => exact execSldst_switches ..
  | aalu _ => exact execAalu_switches ..
  | tileWatchdogExpiry _ => exact execTileWatchdogExpiry_switches ..
  | linkParityFailure _ _ _ _ => exact execLinkParityFailure_switches ..
  | coreReset _ => exact execCoreReset_switches ..
  | moveDescriptorAccept _ => exact execMoveDescriptorAccept_switches ..
  | moveComplete _ _ _ => exact execMoveComplete_switches ..
  | stemDescriptor _ _ _ _ => exact execStemDescriptor_switches ..
  | stemComplete _ => exact execStemComplete_switches ..
  | programLoad _ _ => exact execProgramLoad_switches ..
  | overlayLoad _ _ => exact execOverlayLoad_switches ..
  | syncSignalApply _ => exact execSyncSignalApply_switches ..
  | syncAlloc _ _ _ _ => exact execSyncAlloc_switches ..
  | syncFree _ _ _ => exact execSyncFree_switches ..
  | syncSet _ _ _ _ => exact execSyncSet_switches ..
  | postDescriptorQueue => exact execPostDescriptorQueue_switches ..
  | postDescriptorStart => exact execPostDescriptorStart_switches ..
  | postDescriptorComplete => exact execPostDescriptorComplete_switches ..
  | attnRegister _ _ _ _ => exact execAttnRegister_switches ..
  | kvPages _ _ _ _ _ _ => exact execKvPages_switches ..
  | stepStart _ => exact execStepStart_switches ..
  | workListComplete _ => exact execWorkListComplete_switches ..
  | cacheTagMismatch _ _ _ _ _ _ => exact execCacheTagMismatch_switches ..
  | serveRegister _ _ _ _ => exact execServeRegister_switches ..
  | modelSlot _ _ _ _ _ => exact execModelSlot_switches ..
  | seqWrite _ _ _ _ => exact execSeqWrite_switches ..
  | step _ _ _ => exact execStep_switches ..
  | sliceRequest _ _ _ _ _ _ _ => exact execSliceRequest_switches ..
  | refreshDue _ _ _ => exact execRefreshDue_switches ..
  | stackTemperatureReport _ _ => exact execStackTemperatureReport_switches ..
  | memStallClearAll _ => exact execMemStallClearAll_switches ..
  | memStallClearPart _ _ => exact execMemStallClearPart_switches ..
  | groupMode _ _ _ _ => exact execGroupMode_switches ..
  | streamRegister _ _ _ _ _ => exact execStreamRegister_switches ..
  | streamFillStart _ _ => exact execStreamFillStart_switches ..
  | streamStop _ _ _ _ => exact execStreamStop_switches ..
  | streamStopAtBoundary _ _ => exact execStreamStopAtBoundary_switches ..
  | partCreate _ _ _ => exact execPartCreate_switches ..
  | partDestroy _ _ _ => exact execPartDestroy_switches ..
  | descriptorDispatch _ => exact execDescriptorDispatch_switches ..
  | descriptorComplete _ _ _ => exact execDescriptorComplete_switches ..
  | minuetRequest _ _ => exact execMinuetRequest_switches ..
  | minuetSave _ => exact execMinuetSave_switches ..
  | minuetRestore _ _ => exact execMinuetRestore_switches ..
  | ctxPause _ _ _ => exact execCtxPause_switches ..
  | ctxRestart _ _ _ => exact execCtxRestart_switches ..
  | partitionFaultHandling _ _ => exact execPartitionFaultHandling_switches ..
  | pairCreate _ _ _ => exact execPairCreate_switches ..
  | pairArm _ _ _ _ => exact execPairArm_switches ..
  | pairRoundCompare _ => exact execPairRoundCompare_switches ..
  | pairTimeout _ => exact execPairTimeout_switches ..
  | camPocEnWrite _ _ _ => exact execCamPocEnWrite_switches ..
  | pocOvercurrent _ => exact execPocOvercurrent_switches ..
  | pocOpenDetect _ _ => exact execPocOpenDetect_switches ..
  | portBringUp _ _ => exact execPortBringUp_switches ..
  | aphyLinkLoss _ => exact execAphyLinkLoss_switches ..
  | camPortMap _ _ _ => exact execCamPortMap_switches ..
  | camProfile _ _ _ _ _ => exact execCamProfile_switches ..
  | camCtxStart _ _ _ => exact execCamCtxStart_switches ..
  | camCtxStop _ _ _ => exact execCamCtxStop_switches ..
  | camDefaultStats _ _ _ _ => exact execCamDefaultStats_switches ..
  | camPortOwnerWrite _ _ _ => exact execCamPortOwnerWrite_switches ..
  | camFsyncCtrlWrite _ _ _ => exact execCamFsyncCtrlWrite_switches ..
  | camFsyncPeriodWrite _ _ _ => exact execCamFsyncPeriodWrite_switches ..
  | fsyncGeneratorEdge _ => exact execFsyncGeneratorEdge_switches ..
  | fsyncEdge _ => exact execFsyncEdge_switches ..
  | frameStartPacket _ _ _ => exact execFrameStartPacket_switches ..
  | linePacket _ _ _ _ _ _ => exact execLinePacket_switches ..
  | embeddedDataLine _ _ _ => exact execEmbeddedDataLine_switches ..
  | frameEndPacket _ _ => exact execFrameEndPacket_switches ..
  | ispUnitStart _ => exact execIspUnitStart_switches ..
  | ispUnitEnd _ => exact execIspUnitEnd_switches ..
  | camera _ _ => exact execCamera_switches ..
  | sensorWrite _ _ => exact execSensorWrite_switches ..
  | sensorRead _ _ => exact execSensorRead_switches ..
  | exposure _ _ => exact execExposure_switches ..
  | ispParams _ _ => exact execIspParams_switches ..
  | muteAssert _ => exact absurd trivial h
  | unmute _ => exact absurd trivial h
  | muteSettleEnd _ => exact execMuteSettleEnd_switches ..
  | audGroupCfgWrite _ _ _ => exact execAudGroupCfgWrite_switches ..
  | audWakeCfgWrite _ _ _ => exact execAudWakeCfgWrite_switches ..
  | audStore _ _ _ => exact execAudStore_switches ..
  | recogniserHop _ _ _ _ => exact execRecogniserHop_switches ..
  | wakeMatch _ => exact execWakeMatch_switches ..
  | sessionTimeout _ => exact execSessionTimeout_switches ..
  | audCopy _ _ _ _ _ _ _ _ _ _ _ => exact execAudCopy_switches ..
  | audReseal _ _ _ => exact execAudReseal_switches ..
  | audStream _ _ _ _ _ _ _ _ _ => exact execAudStream_switches ..
  | audStreamSlot _ _ => exact execAudStreamSlot_switches ..
  | wakeQueueRead _ _ _ => exact execWakeQueueRead_switches ..
  | recogImage _ _ _ => exact execRecogImage_switches ..
  | rustleTrigger => exact execRustleTrigger_switches ..
  | perstAssert _ => exact execPerstAssert_switches ..
  | perstRelease _ => exact execPerstRelease_switches ..
  | dlDown _ => exact execDlDown_switches ..
  | linkUp _ _ _ => exact execLinkUp_switches ..
  | linkRetrain _ _ _ _ => exact execLinkRetrain_switches ..
  | linkRecord _ _ _ => exact execLinkRecord_switches ..
  | memAptWrite _ _ _ => exact execMemAptWrite_switches ..
  | apertureAccess _ _ _ _ _ => exact execApertureAccess_switches ..
  | sqTailDoorbell _ _ _ => exact execSqTailDoorbell_switches ..
  | cqHeadDoorbell _ _ _ => exact execCqHeadDoorbell_switches ..
  | ctxEnable _ _ _ => exact execCtxEnable_switches ..
  | ctxDisable _ _ => exact execCtxDisable_switches ..
  | descriptorFetch _ => exact execDescriptorFetch_switches ..
  | descriptorArrive _ _ => exact execDescriptorArrive_switches ..
  | nop _ _ => exact execNop_switches ..
  | compute _ _ _ => exact execCompute_switches ..
  | copy _ _ _ => exact execCopy_switches ..
  | post _ _ => exact execPost_switches ..
  | irqModerationTimer _ => exact execIrqModerationTimer_switches ..
  | vectorUnmask _ _ => exact execVectorUnmask_switches ..
  | ptmDialogue _ _ => exact execPtmDialogue_switches ..
  | ptmSyncTimeout _ => exact execPtmSyncTimeout_switches ..
  | stampAlign _ => exact execStampAlign_switches ..
  | smbusMctpControl _ _ => exact execSmbusMctpControl_switches ..
  | smbusPldmSensorRead _ _ => exact execSmbusPldmSensorRead_switches ..
  | smbusErrlogSummary => exact execSmbusErrlogSummary_switches ..
  | smbusErrlogEntry _ => exact execSmbusErrlogEntry_switches ..
  | smbusSpareSummary => exact execSmbusSpareSummary_switches ..
  | smbusSpareRecord _ => exact execSmbusSpareRecord_switches ..
  | fnLimitWrite _ _ _ => exact execFnLimitWrite_switches ..
  | fnQosWrite _ _ _ => exact execFnQosWrite_switches ..
  | fnGroupOwnerWrite _ _ _ => exact execFnGroupOwnerWrite_switches ..
  | flr _ => exact execFlr_switches ..
  | vfDisable _ => exact execVfDisable_switches ..
  | clearing _ _ => exact execClearing_switches ..
  | tallyClearingTimeout _ _ _ => exact execTallyClearingTimeout_switches ..
  | pwrCfgWrite _ _ => exact execPwrCfgWrite_switches ..
  | stateRequest _ _ _ _ => exact execStateRequest_switches ..
  | stateRequestTimeout => exact execStateRequestTimeout_switches ..
  | refuserRelease => exact execRefuserRelease_switches ..
  | stateEntry _ => exact execStateEntry_switches ..
  | stateRise _ => exact execStateRise_switches ..
  | thermalGuardSample _ => exact execThermalGuardSample_switches ..
  | thermalRecoveryStep => exact execThermalRecoveryStep_switches ..
  | ledgerWindowStart _ => exact execLedgerWindowStart_switches ..
  | ledgerHold _ => exact execLedgerHold_switches ..
  | pwrLedgerCfgWrite _ _ => exact execPwrLedgerCfgWrite_switches ..
  | pwrAllowanceWrite _ _ => exact execPwrAllowanceWrite_switches ..
  | tierRegister _ _ _ _ => exact execTierRegister_switches ..
  | escalationRequest _ => exact execEscalationRequest_switches ..
  | signerRevoke _ _ => exact execSignerRevoke_switches ..
  | svnCommit _ _ => exact execSvnCommit_switches ..
  | releaseOpen _ _ => exact execReleaseOpen_switches ..
  | releaseKey _ _ => exact execReleaseKey_switches ..
  | releaseClose _ _ => exact execReleaseClose_switches ..
  | releaseEntryTimeout _ => exact execReleaseEntryTimeout_switches ..
  | unlockNonce _ => exact execUnlockNonce_switches ..
  | unlock _ _ => exact execUnlock_switches ..
  | getVersion _ _ => exact execGetVersion_switches ..
  | getCapabilities _ _ => exact execGetCapabilities_switches ..
  | negotiateAlgorithms _ _ => exact execNegotiateAlgorithms_switches ..
  | getDigests _ _ => exact execGetDigests_switches ..
  | getCertificate _ _ _ _ _ => exact execGetCertificate_switches ..
  | challenge _ _ => exact execChallenge_switches ..
  | getMeasurements _ _ _ => exact execGetMeasurements_switches ..
  | spdmUnsupportedRequest _ => exact execSpdmUnsupportedRequest_switches ..
  | d2dPacketTagFail _ _ _ => exact execD2dPacketTagFail_switches ..
  | tallyAudit _ _ _ => exact execTallyAudit_switches ..
  | fatalHalt _ _ => exact execFatalHalt_switches ..
  | ageingMonitorRead _ _ => exact execAgeingMonitorRead_switches ..
  | coreMigration _ _ => exact execCoreMigration_switches ..
  | sramRowSwap _ _ _ _ _ => exact execSramRowSwap_switches ..
  | stackRowRepair _ _ _ _ _ _ _ => exact execStackRowRepair_switches ..
  | pseudoChannelSwap _ _ _ _ => exact execPseudoChannelSwap_switches ..
  | ucieLaneRepair _ _ _ _ => exact execUcieLaneRepair_switches ..
  | errlogRead _ _ _ => exact execErrlogRead_switches ..
  | spareRead _ _ _ => exact execSpareRead_switches ..
  | mgmtEventDeliver _ => exact execMgmtEventDeliver_switches ..
  | traceRecordEmit _ _ _ _ _ _ => exact execTraceRecordEmit_switches ..
  | trcCtrlWrite _ _ => exact execTrcCtrlWrite_switches ..
  | glbSafeClear _ _ => exact execGlbSafeClear_switches ..
  | glbFaultClear _ => exact execGlbFaultClear_switches ..
  | bar0MisalignedAccess _ _ => exact execBar0MisalignedAccess_switches ..
  | counterLoRead _ _ => exact execCounterLoRead_switches ..
  | rcRegisterRead _ _ => exact execRcRegisterRead_switches ..
  | registerWrite _ _ _ => exact execRegisterWrite_switches ..
  | undefinedInstructionEncoding _ => exact execUndefinedInstructionEncoding_switches ..
  | unknownOpcodeRequest _ _ _ => exact execUnknownOpcodeRequest_switches ..

/-- A group is dark: muted, with its clock and its microphone power off and its indicator lit (R471). -/
def Dark (s : State) (g : Nat) : Prop := switches s.media.groups g = (true, false, false, true)

theorem dark_iff (s : State) (g : Nat) : Dark s g ↔ (s.media.group g).muted = true ∧ (s.media.group g).clock = false ∧
    (s.media.group g).power = false ∧ (s.media.group g).lit = true := by
  simp [Dark, switches, Media.group, AudGroup.switches]

theorem LeavesSwitches.dark {s t : State} {g : Nat} (h : LeavesSwitches s (.next t)) (d : Dark s g) : Dark t g :=
  (congrFun h g).trans d

/-- A group that a write leaves dark, and every other, stays dark. -/
theorem State.setGroup_dark {s : State} {g n : Nat} {x : AudGroup} (d : Dark s n) (h : n = g → x.switches = (true, false, false, true)) :
    Dark (s.setGroup g x) n := by
  change ((s.setGroup g x).media.group n).switches = _
  rw [State.group_setGroup]
  split
  next e => exact h e
  · exact d

theorem execMuteAssert_dark {s : State} {g n : Nat} (d : Dark s n) : ∃ t, execMuteAssert g s = .next t ∧ Dark t n := by
  cases on : s.pwr.aon with
  | false =>
    refine ⟨_, execMuteAssert_off on g, State.setGroup_dark d fun e => ?_⟩
    subst e
    exact d
  | true =>
    refine ⟨_, execMuteAssert_on on g, ?_⟩
    have muted : Dark (s.setGroup g (s.media.group g).silenced) n := State.setGroup_dark d fun _ => rfl
    exact LeavesSwitches.dark (by simp) muted

theorem execUnmute_dark {s : State} {g n : Nat} (d : Dark s n) (other : n ≠ g) : ∃ t, execUnmute g s = .next t ∧ Dark t n := by
  unfold execUnmute
  dsimp only
  split
  · exact ⟨_, rfl, d⟩
  · split
    · exact ⟨_, rfl, State.setGroup_dark d fun e => absurd e other⟩
    · exact ⟨_, rfl, State.setGroup_dark d fun e => absurd e other⟩

/-- Settles O46: mutes and unmutes by their lemmas, and every other command that is not excluded leaves the switches. -/
theorem onlyUnmuteLightsOut : Obligations.OnlyUnmuteLightsOut := by
  intro c s t g he hu hs hw muted clock power lit
  have d : Dark s g := (dark_iff ..).mpr ⟨muted, clock, power, lit⟩
  suffices Dark t g from (dark_iff ..).mp this
  by_cases h : WritesSwitches c
  · cases c with
    | muteAssert n =>
      obtain ⟨u, e, du⟩ := execMuteAssert_dark (g := n) d
      cases he.symm.trans e
      exact du
    | unmute n =>
      obtain ⟨u, e, du⟩ := execUnmute_dark (g := n) d fun e => hu (congrArg Instr.unmute (Fin.ext e.symm))
      cases he.symm.trans e
      exact du
    | powerOn a b d e f => exact absurd rfl (hs a b d e f).1
    | restartAfterSave a b d e f => exact absurd rfl (hs a b d e f).2
    | windfallSave k => exact absurd rfl (hw k)
    | _ => exact h.elim
  · exact LeavesSwitches.dark (he ▸ exec_switches c s h) d

end Sys2Proof.Machine
end
